-- ==== Sys2Proof/Word.lean ====
section
/-! DEFINITION. The words of the block: bytes, flits, lines, the unit numbers of the hierarchy
(00_scope.md, 01_architecture_and_planes.md Table 1.1 and Table 1.2), and the plainest arithmetic on them. -/

namespace Sys2Proof

/-- One byte. -/
abbrev Byte := BitVec 8
/-- A 32-bit register or operand. -/
abbrev W32 := BitVec 32
/-- A 64-bit register or operand. -/
abbrev W64 := BitVec 64
/-- A 64 B memory line, byte 0 in the low bits. -/
abbrev Line := BitVec 512
/-- A 256 B Coachway flit, byte 0 in the low bits (13_coachway_and_flock.md Table 13.2). -/
abbrev Flit := BitVec 2048
/-- A context number, 0 to 4,095. -/
abbrev CtxId := Fin 4096
/-- A queue number: 8 times the context, plus the queue 0 to 7 (09_contexts_queues_doorbells.md). -/
abbrev QNum := Fin 32768
/-- A core number (R12). -/
abbrev CoreId := Fin 16
/-- A cluster number (R12). -/
abbrev ClId := Fin 4
/-- An inlet number. -/
abbrev InletId := Fin 32
/-- A Coachway port number. -/
abbrev LinkId := Fin 4
/-- A memory port number. -/
abbrev PortId := Fin 8
/-- A key slot number. -/
abbrev SlotId := Fin 64
/-- An aperture offset: 64 MiB (R629). -/
abbrev Offset := BitVec 26

/-- `w` bits of `x` from bit `lo` up. -/
def bits (x lo w : Nat) : Nat := (x >>> lo) % 2 ^ w

/-- `x` with the `w` bits from bit `lo` up replaced by `v`. -/
def setBits (x lo w v : Nat) : Nat :=
  x % 2 ^ lo + (v % 2 ^ w) * 2 ^ lo + (x >>> (lo + w)) * 2 ^ (lo + w)

/-- Bit `i` of `x`. -/
def bit (x i : Nat) : Bool := Nat.testBit x i

/-- The quotient rounded up. -/
def ceilDiv (a b : Nat) : Nat := (a + b - 1) / b

/-- The number that little-endian bytes spell (00_scope.md, Notation and units). -/
def leNat : List Byte → Nat
  | [] => 0
  | b :: bs => b.toNat + 256 * leNat bs

/-- The `n` little-endian bytes of a number. -/
def natLe : Nat → Nat → List Byte
  | 0, _ => []
  | n + 1, x => BitVec.ofNat 8 x :: natLe n (x / 256)

/-- The number that big-endian bytes spell. -/
def beNat (bs : List Byte) : Nat := bs.foldl (fun a b => a * 256 + b.toNat) 0

/-- The `n` big-endian bytes of a number. -/
def natBe (n x : Nat) : List Byte := (natLe n x).reverse

/-- `Bool` as a number. -/
def b2n (b : Bool) : Nat := if b then 1 else 0

end Sys2Proof
end

