-- ==== Sys2Proof/Syntax.lean ====
section
/-! DEFINITION. The commands of the block: one constructor per row of spec/opcode_table.json. An operand is what the
agent that raises the event brings with it (an address, a value, a word, a measured quantity). -/

namespace Sys2Proof

/-- A path by which a register access reaches the block (R10). -/
inductive Path where
  | host | drover (n : Fin 4) | remote
  deriving DecidableEq, Repr

/-- The clock groups of Table 18.1. -/
inductive Clk where
  | mp (n : PortId) | hrp | ta | si (n : InletId) | lk (n : LinkId)
  deriving DecidableEq, Repr

/-- The engines that a sheepdog watches, numbered as SHD_STATE.EXPIRED numbers them (Table 16.11). -/
inductive Eng where
  | mxe | vxe | ate | wdu | tsq
  deriving DecidableEq, Repr

/-- What the patrol scrubber meets at a word of SRAM (R433, R434): nothing, a word that it corrects, or a word that is not
correctable, by what the word holds: an unused codebook half (R134), a line of a CSB, or shared metadata (R438). -/
inductive ScrubWord where
  | clean
  | corrected
  | cbsHalf (core : CoreId) (half : Fin 2) (line : BitVec 13)
  | csb (cl : ClId) (line : BitVec 18)
  | shared (inQueueManager : Bool)
  deriving DecidableEq, Repr


/-- The commands of opcode_table.json. -/
inductive Instr where
  /-- POR_N_RELEASE (R621). Release of the cold reset input starts a cold boot of the instance by Table 18.7. -/
  | porNRelease (bellwether : Bool) (strap : BitVec 14) (phyReady : BitVec 4) (fetched : Bool)
  /-- POR_N_ASSERT (R621). Assertion of POR_N holds every domain in reset, with its effect on a save in progress deferred until the seal. -/
  | porNAssert
  /-- WRST_N_ASSERT (R622). A warm reset starts an instance reset with RESET_CAUSE 8, keeping P00, the HSA, the event log and the EPOCH counter. -/
  | wrstNAssert
  /-- INSTANCE_RESET_READY (R552). The instance reset reaches its last step and GLB.PG_STAT shows the instance ready. -/
  | instanceResetReady (fetched : Bool)
  /-- EPOCH_PULSE (R607). A rising edge on EPOCH advances the 64-bit EPOCH counter and every EPOCH-counted count. -/
  | epochPulse (beats : BitVec 64) (tj : BitVec 36) (noProg : BitVec 80)
  /-- PWR_WARN_ASSERT (R584). With hold-up armed, P00 isolates onto VHOLD and the hold-up save of Table 17.7 begins. -/
  | pwrWarnAssert
  /-- HOLDUP_SEALED (R587). The HSA controller finishes writing the save and its header and writes the seal record, and HOLD_STATE becomes SEALED. -/
  | holdupSealed (mv : BitVec 10)
  /-- PWR_WARN_CLEAR (R579). Clearing of PWR_WARN lets quiesced cores resume, or permits a resume without reset once VHOLD has recharged. -/
  | pwrWarnClear
  /-- VHOLD_RECHARGED (R588). VHOLD recharges to at least 1.7 V after a seal while PWR_WARN is clear, which lets Broxa resume without reset. -/
  | vholdRecharged (mv : BitVec 10)
  /-- HOLDUP_RESUME_DONE (R588). The resume completes, CSB windows follow CSB_RETAINED, and parked commands resume at their resume points. -/
  | holdupResumeDone
  /-- VDD_NE_TILE_STOP (R585). VDD_NE falls below 0.52 V before a core reaches its tile boundary, so the core's tile is stopped for a later re-run. -/
  | vddNeTileStop (core : CoreId)
  /-- CSB_RETENTION_LOSS (R589). VDD_SRAM or VDD_NE falls below its retention level during a save and Broxa clears the cluster's CSB_RETAINED bit. -/
  | csbRetentionLoss (cl : ClId)
  /-- THERMAL_LIMIT_ENTER (R571). Tj above 105 °C sets the cluster's effective level to 0 in hardware and sets EV_RAW.THERMAL. -/
  | thermalLimitEnter (cl : ClId) (tj : BitVec 9)
  /-- THERMAL_LIMIT_EXIT (R571). Tj falls to 100 °C or below and the cluster leaves the thermal limit. -/
  | thermalLimitExit (cl : ClId) (tj : BitVec 9)
  /-- MP_RST_N_ASSERT (R597). A memory port's fabric-side reset with transactions outstanding resets the instance with RESET_CAUSE 3. -/
  | mpRstNAssert (port : PortId)
  /-- MP_READ_RESPONSE (R435). A read response arrives at a port, which checks fabric protection, decrypts, encodes RS and delivers the line, poisoned on error. -/
  | mpReadResponse (port : PortId) (id : Fin 2048) (data : Line) (ok : Bool) (poison : Bool)
  /-- MP_WRITE_RESPONSE (R423). A write response arrives and marks the write as having reached the point of coherence. -/
  | mpWriteResponse (port : PortId) (id : Fin 2048) (ok : Bool)
  /-- MP_ATOMIC_RESPONSE (R658). The result of an atomic returns, or the atomic is refused on a poisoned line or a fabric error. -/
  | mpAtomicResponse (port : PortId) (id : Fin 2048) (ok : Bool)
  /-- SI_FRAME_START (R269). A frame-start word arrives on an inlet, which checks the release counter and queue room and reserves a queue slot. -/
  | siFrameStart (n : InletId) (data : W32) (be : Fin 5) (fe ue full : Bool)
  /-- SI_DATA_WORD (R601). A valid word arrives on an inlet within a frame and is stored into the frame's ring slot. -/
  | siDataWord (n : InletId) (data : W32) (be : Fin 5) (ue full : Bool)
  /-- SI_FRAME_END (R271). A frame ends by end marker, full size or new start marker, and its completion sequence begins. -/
  | siFrameEnd (n : InletId) (data : W32) (be : Fin 5) (ue full : Bool)
  /-- SI_RST_N_ASSERT (R602). An inlet reset discards the open frame without a record and counts it in SI_DROPPED. -/
  | siRstNAssert (n : InletId)
  /-- LK_PHY_LOSS (R604). PHY reset or loss of PHY_READY while a port is UP takes the port to FAILED. -/
  | lkPhyLoss (p : LinkId) (ready : Bool)
  /-- LK_TRAIN_DONE (R464). A link port completes training and begins the identity exchange and keying. -/
  | lkTrainDone (p : LinkId)
  /-- LK_SESSION_KEYED (R464). An UP port completes its identity exchange and installs a fresh link session key. -/
  | lkSessionKeyed (p : LinkId) (ok : Bool) (peer : W64) (peerPort : LinkId) (lower higher : BitVec 256) (secret : BitVec 384)
  /-- CLOCK_STOP (R612). A port clock stops, and the crossing holds its data while bounds that wait on that side are extended. -/
  | clockStop (c : Clk)
  /-- CLOCK_RETURN (R610). A stopped clock returns and the crossing releases the data it held. -/
  | clockReturn (c : Clk)
  /-- CROSSING_RESYNC_DONE (R613). A crossing completes its pointer resynchronisation handshake and traffic resumes. -/
  | crossingResyncDone (c : Clk)
  /-- TAP_EXTEST (R627). The TAP takes EXTEST and boundary scan controls the port outputs while the crossings hold traffic. -/
  | tapExtest
  /-- TAP_SELF_TEST (R626). A TAP-started self-test in PROD holds the instance in reset, tests SRAM and zeroes the tested arrays. -/
  | tapSelfTest
  /-- TAP_RESET (R625). TRST_N resets the TAP and its IEEE 1687 network. -/
  | tapReset
  /-- LOCK (R490). The LOCK message moves trust to LOCKED, locks RWL pages, computes LOCK_DIGEST and replaces context 0's command key. -/
  | taLock (key : BitVec 256)
  /-- START (R490). The START message moves trust from LOCKED to RUN so confidential application queues begin fetching. -/
  | taStart
  /-- STOP (R650). The STOP message tears down every CONFIDENTIAL context, clears the trust locks and returns trust to UNLOCKED. -/
  | taStop
  /-- PERMIT (R490). The PERMIT message records one permitted firmware image digest. -/
  | taPermit (digest : BitVec 384)
  /-- QUERY (R614). The QUERY message is answered ACCEPTED with the present trust state. -/
  | taQuery
  /-- TA_RESERVED_MESSAGE (R614). A TRUST_ASSIGN message with a reserved code or wrong length is REFUSED and changes nothing. -/
  | taReservedMessage
  /-- IDLE_FLIT (R456). An IDLE flit arrives and, when its tag verifies, its ACK_SEQ and credits are taken. -/
  | idleFlit (p : LinkId) (nonce : BitVec 96) (f : Flit)
  /-- NAK (R455). A NAK arrives and the port resends every held flit from the named LSEQ. -/
  | nak (p : LinkId) (nonce : BitVec 96) (f : Flit)
  /-- DISCOVER (R463). A DISCOVER flit arrives, refused by a Bellwether or answered once every port is settled. -/
  | discover (p : LinkId) (nonce : BitVec 96) (f : Flit)
  /-- DISCOVER_REPLY (R464). A DISCOVER_REPLY reaches the Bellwether with the member's identity and port states. -/
  | discoverReply (p : LinkId) (nonce : BitVec 96) (f : Flit)
  /-- ROUTE (R464). A ROUTE flit gives a member its number, coordinates and route table. -/
  | routeFlit (p : LinkId) (nonce : BitVec 96) (f : Flit)
  /-- HEARTBEAT (R481). A HEARTBEAT reaches the Bellwether, which answers with HB_ACK. -/
  | heartbeatFlit (p : LinkId) (nonce : BitVec 96) (f : Flit)
  /-- HB_ACK (R482). An HB_ACK reaches a member and resets its Bellwether-loss count. -/
  | hbAck (p : LinkId) (nonce : BitVec 96) (f : Flit)
  /-- REG_REQ (R469). A remote register access arrives and the member performs it under its own access rules and answers REG_RSP. -/
  | regReq (p : LinkId) (nonce : BitVec 96) (f : Flit)
  /-- REG_RSP (R470). A REG_RSP reaches the Bellwether, which sets DONE and STATUS, or drops it after a timeout. -/
  | regRsp (p : LinkId) (nonce : BitVec 96) (f : Flit)
  /-- DOORBELL_FLIT (R471). A forwarded DOORBELL is applied as a TAIL or CQ_HEAD write at the member. -/
  | doorbellFlit (p : LinkId) (nonce : BitVec 96) (f : Flit)
  /-- IRQ_FLIT (R468). An IRQ flit reaches the Bellwether, which sets FWD_IRQ_PEND and sends the forwarded-interrupt message. -/
  | irqFlit (p : LinkId) (nonce : BitVec 96) (f : Flit)
  /-- COLL_READY (R477). A COLL_READY arrives and permits the rank to send COLL_DATA for that OP_ID. -/
  | collReady (p : LinkId) (nonce : BitVec 96) (f : Flit)
  /-- COLL_DATA (R476). A COLL_DATA flit arrives, is added to the local chunk in FP32 and forwarded in the next step. -/
  | collData (p : LinkId) (nonce : BitVec 96) (f : Flit)
  /-- SPDM_FLIT (R495). An SPDM flit carries an SPDM message between members during link keying. -/
  | spdmFlit (p : LinkId) (nonce : BitVec 96) (f : Flit)
  /-- ENGINE_SHEEPDOG_EXPIRY (R539). An engine sheepdog reaches its limit without progress and starts an engine reset. -/
  | engineSheepdogExpiry (core : CoreId) (eng : Eng)
  /-- ENGINE_RESET_COMPLETE (R549). The engine reset ends, the running tile ends as stopped and the core serves again. -/
  | engineResetComplete (core : CoreId)
  /-- TSQ_SHEEPDOG_EXPIRY (R539). The TSQ sheepdog expires and starts an engine reset of the TSQ. -/
  | tsqSheepdogExpiry (core : CoreId)
  /-- QUEUE_SHEEPDOG_EXPIRY (R539). A queue sheepdog reaches its limit and starts a context reset. -/
  | queueSheepdogExpiry (q : QNum)
  /-- ABORT_ACK (R547). An engine drops an aborted tile and acknowledges, releasing its pins and reservation. -/
  | abortAck (core : CoreId)
  /-- ABORT_ACK_TIMEOUT (R548). An engine does not acknowledge an abort within 20 µs, so its engine reset starts. -/
  | abortAckTimeout (core : CoreId)
  /-- CONTEXT_DRAIN_LIMIT (R548). A context-reset drain exceeds 10 ms and the instance resets. -/
  | contextDrainLimit (ctx : CtxId)
  /-- ENGINE_RESET_LIMIT (R546). An engine reset passes its 250 µs limit and a cluster reset starts. -/
  | engineResetLimit (core : CoreId)
  /-- CLUSTER_RESET_COMPLETE (R551). The cluster serves again, contexts with windows there are reset and other tiles run again. -/
  | clusterResetComplete (cl : ClId)
  /-- INSTANCE_RESET_LIMIT (R555). An instance reset misses its 100 ms limit or ends in BOOT_FAIL. -/
  | instanceResetLimit
  /-- DROVER_SHEEPDOG_EXPIRY (R539). A Drover's sheepdog expires and counts as a Drover crash. -/
  | droverSheepdogExpiry (n : Fin 4)
  /-- DROVER_CRASH (R518). A Drover halts on a protection violation, illegal instruction or kernel trap, and its restart begins. -/
  | droverCrash (n : Fin 4) (cause : Fin 3)
  /-- DROVER_RESTART_DONE (R523). A restarted Drover rebuilds its state from hardware and resumes its duties. -/
  | droverRestartDone (n : Fin 4) (digestOk : Bool)
  /-- SHEPHERD_SHEEPDOG_EXPIRY (R554). The Shepherd sheepdog expires and ROM checks and restarts the Shepherd image, or resets the instance. -/
  | shepherdSheepdogExpiry (digestOk : Bool)
  /-- SHEPHERD_RESTART_DONE (R554). The restarted Shepherd image resumes from P00's state. -/
  | shepherdRestartDone
  /-- SEQ_REFETCH (R337). On the scheduled EPOCH pulse, a slot that failed its SEQ test is fetched again. -/
  | seqRefetch (q : QNum)
  /-- SIGNAL_REREAD (R305). A command waiting in phase 2 reads its signal again. -/
  | signalReread (q : QNum)
  /-- GRAZING_SLOT_END (R361). The slot timer reaches DURATION and the next slot begins, each core taking its new owner at its boundary. -/
  | grazingSlotEnd
  /-- SLOWDOWN_WINDOW_CLOSE (R380). The EPOCH counter reaches a multiple of 2^k and the context's SLOWDOWN is computed. -/
  | slowdownWindowClose (ctx : CtxId)
  /-- SI_FRAME_TIMEOUT (R272). An open frame gets no data for SI_TIMEOUT EPOCHs and ends with SHORT and TIMEOUT. -/
  | siFrameTimeout (n : InletId)
  /-- LINK_ACK_TIMEOUT (R455). No ACK_SEQ advances for 8 EPOCHs and the port resends from its oldest held flit. -/
  | linkAckTimeout (p : LinkId)
  /-- LINK_SILENCE_EXPIRY (R457). An UP port receives no good flit for 64 EPOCHs and goes FAILED. -/
  | linkSilenceExpiry (p : LinkId)
  /-- FLK_TRAIN_EXPIRY (R467). A port not trained within FLK_TRAIN EPOCHs becomes DOWN. -/
  | flkTrainExpiry (p : LinkId)
  /-- FLK_SILENT_EXPIRY (R466). A trained port not keyed within FLK_SILENT becomes SILENT and its member may be excluded. -/
  | flkSilentExpiry (p : LinkId)
  /-- FLOCK_DISCOVERY (R464). The Bellwether sends DISCOVER level by level and then assigns member numbers and routes. -/
  | flockDiscovery
  /-- HEARTBEAT_PERIOD (R481). A member sends HEARTBEAT to the Bellwether every FLK_HB.PERIOD EPOCHs. -/
  | heartbeatPeriod
  /-- MEMBER_LOST (R481). The Bellwether gets no HEARTBEAT from a member for LOSS EPOCHs and marks it LOST. -/
  | memberLost (m : Fin 64)
  /-- BELLWETHER_LOST (R482). A member gets no HB_ACK for LOSS EPOCHs and raises BELLWETHER_LOST. -/
  | bellwetherLost
  /-- RRA_TIMEOUT (R470). A remote access gets no REG_RSP within TIMEOUT and completes PEER_LOST. -/
  | rraTimeout
  /-- COLLECTIVE_TIMEOUT (R480). A collective waits TIMEOUT EPOCHs without progress and completes LINK_TIMEOUT or PEER_LOST. -/
  | collectiveTimeout (q : QNum)
  /-- HOST_LOSS (R556). No HOST_BEAT arrives for LIMIT EPOCHs, and Broxa acts by DETACH_POLICY. -/
  | hostLoss
  /-- PRESERVE_MESSAGE (R560). After all write responses, Broxa sends PRESERVE_DATA to PRESERVE_ADDR and the state becomes PRESERVED. -/
  | preserveMessage
  /-- DV_SVC_TIMEOUT (R514). A command waiting on a paused firmware duty times out and completes EMU_TIMEOUT. -/
  | dvSvcTimeout (q : QNum)
  /-- KEY_QUARANTINE_END (R502). A retired key slot's 256-EPOCH quarantine ends and the slot can be created again. -/
  | keyQuarantineEnd (slot : SlotId)
  /-- IDLE_GATE_EXPIRY (R565). A core with no tile admitted for IDLE_EPOCHS has its domain switched off. -/
  | idleGateExpiry (core : CoreId)
  /-- CALIBRATION_PERIOD (R574). The calibration period elapses and a cluster is quiesced and calibrated. -/
  | calibrationPeriod
  /-- CALIBRATION_DONE (R574). Calibration writes the level table, sets CAL_DONE and releases the cluster. -/
  | calibrationDone (volts : BitVec 160)
  /-- TDP_WINDOW_END (R572). Drover 3 ends an averaging window and lowers or raises an allowed level. -/
  | tdpWindowEnd (mw : BitVec 20) (loaded raised : ClId)
  /-- PATROL_SCRUB_VISIT (R434). The patrol scrubber reads and corrects an idle SRAM word, poisoning it when uncorrectable. -/
  | patrolScrubVisit (w : ScrubWord)
  /-- EMU_READ_TIMEOUT (R520). An emulated read unanswered after 4 µs returns all-ones and sets EMU_TIMEOUT. -/
  | emuReadTimeout (n : Fin 4)
  /-- KEY_LINK_TIMEOUT (R504). A member selected by KEY_BIND LINK does not answer within 1,000 EPOCHs and the command completes PEER_LOST. -/
  | keyLinkTimeout (q : QNum)
  /-- BOOT_FETCH_TIMEOUT (R487). The RC-oscillator count ends a Shepherd image fetch that does not complete. -/
  | bootFetchTimeout
  /-- CAP_CHECK_TIMEOUT (R578). The capacitor charge misses 1.8 V in 12 ms or sees no EPOCH in 1 ms and ends SHORT or NO_EPOCH. -/
  | capCheckTimeout
  /-- CAP_CHARGED (R578). VHOLD reaches 1.8 V, the Shepherd computes C and switches off the charger for the droop test. -/
  | capCharged
  /-- CAP_DROOP_CHECK_END (R578). The 1 ms droop test ends, CAP_STATUS is written and the charger restarts. -/
  | capDroopCheckEnd (droop : BitVec 10)
  /-- MXE_FILL_GAP_EXPIRY (R106). FILL_GAP filler beats run without a real column and the MXE begins ramp-down. -/
  | mxeFillGapExpiry (core : CoreId)
  /-- MXE_RAMP_INTERVAL (R107). A ramp interval ends and the activity level steps, stopping the array at the end of ramp-down. -/
  | mxeRampInterval (core : CoreId)
  /-- SLOT_FETCH (R336). The queue manager fetches a slot below TAIL when completion-ring room exists and applies the SEQ test. -/
  | slotFetch (q : QNum)
  /-- COMMAND_START (R302). A command's FENCE and ordering conditions are met and it starts its phases. -/
  | commandStart (q : QNum)
  /-- TILE_ADMISSION (R292). A checked tile is granted its whole reservation on a core and starts. -/
  | tileAdmission (q : QNum) (core : CoreId)
  /-- CORE_POWER_ON_DONE (R565). A gated core's domain finishes switching on and its RW fields reload from the shadow. -/
  | corePowerOnDone (core : CoreId)
  /-- TILE_END_NORMAL (R294). A tile's last output is accepted, it releases its reservation and the core reaches a tile boundary. -/
  | tileEndNormal (core : CoreId)
  /-- TRANSLATION_WALK_DONE (R397). A translation walk finishes and caches a combined translation or raises a fault. -/
  | translationWalkDone (core : CoreId)
  /-- FAULT_REPORT_POST (R410). Drover 1 posts a fault report into the fault ring when it has room and EN is set. -/
  | faultReportPost
  /-- PARKED_RESUME (R370). A parked command is next served, its save record is checked and it resumes at its resume point. -/
  | parkedResume (q : QNum)
  /-- COMMAND_COMPLETE (R304). A command whose tiles have all ended and whose RELEASE drain is done writes its record, signal and interrupt. -/
  | commandComplete (q : QNum)
  /-- IRQ_MESSAGE_SEND (R600). After the record and signal write responses, an interrupt message leaves IRQ_MSG. -/
  | irqMessageSend
  /-- KV_FIFO_REFILL (R213). Drover 2's KV allocator moves free IDs from the ring into the free FIFO. -/
  | kvFifoRefill
  /-- KV_FULL (R213). Drover 2 completes a waiting command KV_FULL when no free blocks can cover its reservation. -/
  | kvFull (q : QNum)
  /-- INVALIDATION_DRAIN_DONE (R407). Transactions issued under removed translations complete, CBS halves are cleared and the record is written. -/
  | invalidationDrainDone (q : QNum)
  /-- TEARDOWN_COMPLETE (R508). After drain and scrub, records with 0x50 are written, the binding is removed and the context becomes FREE. -/
  | teardownComplete (ctx : CtxId)
  /-- KV_RECLAIM_DONE (R231). The reclaim scan ends, BUSY clears and RECLAIM_DONE is set. -/
  | kvReclaimDone
  /-- KEY_SLOT_DRAINED (R502). A RETIRING slot's in-flight count reaches zero, its key is overwritten and it becomes EMPTY. -/
  | keySlotDrained (slot : SlotId)
  /-- MB_REQUEST_DONE (R532). The Shepherd writes a mailbox response, sets DONE and RESULT and raises MB_DONE. -/
  | mbRequestDone
  /-- SHEPHERD_UPDATE_RESUME (R529). The new Shepherd image resumes from P00's state, PAUSED clears and FW_STAGE completes. -/
  | shepherdUpdateResume
  /-- EMU_READ_ANSWER (R520). Drover 0's emulator answers an emulated read, or its late answer is discarded. -/
  | emuReadAnswer (n : Fin 4)
  /-- REGISTER_WRITE (R6). A write to a register with no behaviour of its own sets fields by their access codes. -/
  | registerWrite (path : Path) (off : Offset) (wide : Bool) (v : W64)
  /-- REG_LOW_HALF_WRITE (R10). A write of the low half of a 64-bit register loads the path's holding latch only. -/
  | regLowHalfWrite (path : Path) (off : Offset) (v : W32)
  /-- REG_LOW_HALF_READ (R11). A read of the low half of a 64-bit register latches the high half for the next read. -/
  | regLowHalfRead (path : Path) (off : Offset)
  /-- EV_RAW_CLEAR (R7). A W1C write clears event bits unless Broxa sets them in the same access. -/
  | evRawClear (path : Path) (off : Offset) (v : W32)
  /-- EV_EN_WRITE (R633). A write to EV_EN or MSG_EN that makes EV_PEND non-zero with messages enabled sends the event message. -/
  | evEnWrite (path : Path) (off : Offset) (v : W32)
  /-- PAGE_QUIESCE_REQ (R632). Setting QUIESCE_REQ quiesces the cores the page names at their tile boundaries. -/
  | pageQuiesceReq (path : Path) (off : Offset)
  /-- PAGE_QUIESCE_RELEASE (R632). Clearing QUIESCE_REQ releases the quiesce. -/
  | pageQuiesceRelease (path : Path) (off : Offset)
  /-- PAGE_RESET_REQ (R632). Writing RESET_REQ starts the page's engine, cluster or instance reset. -/
  | pageResetReq (path : Path) (off : Offset)
  /-- PAGE_ENABLE (R643). Setting EN of the KVD or MP0 page enables the directory unit or the port interleave. -/
  | pageEnable (path : Path) (off : Offset)
  /-- DOORBELL (R334). A write of a queue's TAIL is accepted when in range and moves TAIL. -/
  | doorbell (q : QNum) (v : W32)
  /-- CQ_HEAD_WRITE (R344). A write of CQ_HEAD releases completion records when in range. -/
  | cqHeadWrite (q : QNum) (v : W32)
  /-- Q_RESTART (R349). GO restarts a halted queue with no pending command, resuming fetch at HEAD. -/
  | qRestart (q : QNum)
  /-- Q_RESTART_DISCARD (R349). GO with DISCARD sets TAIL to HEAD before restarting the halted queue. -/
  | qRestartDiscard (q : QNum)
  /-- KVD_PROV_GO (R209). Writing GO checks a range of OFFLINE entries and provisions them into the free ring. -/
  | kvdProvGo (path : Path)
  /-- XLT_FLT_HEAD_WRITE (R410). A write of XLT_FLT_HEAD releases fault reports and makes ring room. -/
  | xltFltHeadWrite (path : Path) (v : W32)
  /-- XLT_FLT_CFG_WRITE (R415). A write of XLT_FLT_CFG enables or disables the fault ring under the rules for EN. -/
  | xltFltCfgWrite (path : Path) (v : W32)
  /-- GRZ_CSB_INLET_WRITE (R378). A write sets each cluster's inlet CSB reserve, ignoring fields that would disturb bound granules. -/
  | grzCsbInletWrite (path : Path) (v : W32)
  /-- MXE_RAMP_WRITE (R113). A write of RAMP_BEATS below 256 is raised to 256 and sets CLAMPED. -/
  | mxeRampWrite (path : Path) (core : CoreId) (v : W32)
  /-- ATE_CTRL_WRITE (R193). A write of KV_AHEAD of 0 or above 8 sets 8 and sets CLAMPED. -/
  | ateCtrlWrite (path : Path) (core : CoreId) (v : W32)
  /-- SI_ENABLE (R274). Setting EN enables an inlet, resetting its frame counts, or refuses the enable. -/
  | siEnable (path : Path) (n : InletId) (format : BitVec 4)
  /-- SI_DISABLE (R274). Clearing EN disables an inlet. -/
  | siDisable (path : Path) (n : InletId) (format : BitVec 4)
  /-- LK_ENABLE (R457). EN changing from 0 to 1 trains the port again with a new session key. -/
  | lkEnable (path : Path) (p : LinkId)
  /-- LK_DISABLE (R485). Clearing EN takes the port DOWN. -/
  | lkDisable (path : Path) (p : LinkId)
  /-- FLK_RRA_GO (R469). GO starts a remote register access to a flock member. -/
  | flkRraGo (path : Path) (timeout : BitVec 16)
  /-- FWD_DB (R471). The high-half write of FWD_DB sends a DOORBELL flit to the named member. -/
  | fwdDb (path : Path) (hi : W32)
  /-- FLK_REJOIN (R483). Writing a LOST member's number reruns start-up steps 4 to 6 for it. -/
  | flkRejoin (path : Path) (m : Fin 64)
  /-- HOST_BEAT (R556). A write to HOST_BEAT is a host heartbeat that zeroes the loss count. -/
  | hostBeat (v : W32)
  /-- ATTACH (R559). A write of the correct token re-attaches the host, issues a new token and sends held messages. -/
  | attachWrite (token : W64)
  /-- ATTACH_FRESH (R559). Writing GO resets the instance and attaches without a token. -/
  | attachFresh (go : Bool)
  /-- EPOCH_NS_WRITE (R608). A write of EPOCH_NS sets the period and reconverts the real-time limits. -/
  | epochNsWrite (path : Path) (v : W32)
  /-- EMULATED_READ (R520). A read of an emulated DV register waits for Drover 0's emulator. -/
  | emulatedRead (n : Fin 4) (o : BitVec 12) (wide : Bool)
  /-- EMULATED_WRITE (R521). A write to an emulated register enters its page's 16-entry queue, or is dropped when full. -/
  | emulatedWrite (path : Path) (n : Fin 4) (o : BitVec 12) (v : W32)
  /-- MB_INFO (R535). A mailbox INFO request returns boot status, SVNs and measurements 2 and 3. -/
  | mbInfo (tag : Byte)
  /-- MB_LOG_READ (R535). A mailbox LOG_READ request returns event-log entries. -/
  | mbLogRead (tag : Byte)
  /-- MB_SPDM (R535). A mailbox SPDM request carries one SPDM request and returns its response. -/
  | mbSpdm (tag : Byte)
  /-- MB_STAGE (R535). A mailbox STAGE request returns the FW_STAGE progress. -/
  | mbStage (tag : Byte)
  /-- GET_VERSION (R492). The Shepherd answers GET_VERSION with version 1.3 only. -/
  | getVersion
  /-- GET_CAPABILITIES (R492). The Shepherd answers with its supported SPDM capabilities. -/
  | getCapabilities
  /-- NEGOTIATE_ALGORITHMS (R492). The Shepherd selects P-384, SHA-384 and AES-256-GCM or returns ERROR. -/
  | negotiateAlgorithms (offersAll : Bool)
  /-- GET_DIGESTS (R492). The Shepherd returns the digest of certificate slot 0. -/
  | getDigests
  /-- GET_CERTIFICATE (R492). The Shepherd returns the root, device identity and alias certificate chain. -/
  | getCertificate (slot : BitVec 4) (off len : BitVec 16)
  /-- CHALLENGE (R492). The Shepherd answers a CHALLENGE signed by the alias key. -/
  | challenge (slot : BitVec 4) (nonce : BitVec 256)
  /-- GET_MEASUREMENTS (R494). The Shepherd returns the measurements, signed when requested. -/
  | getMeasurements (index : Byte) (sign : Bool) (nonce : BitVec 256)
  /-- KEY_EXCHANGE (R492). The Shepherd performs an ECDH P-384 key exchange, or refuses beyond 8 sessions. -/
  | keyExchange (req : BitVec 16) (pub : BitVec 768)
  /-- FINISH (R492). The Shepherd verifies the requester HMAC and completes the session. -/
  | spdmFinish (session : W32) (hmac : BitVec 384)
  /-- END_SESSION (R492). The Shepherd ends an SPDM session. -/
  | endSession (session : W32)
  /-- SPDM_UNSUPPORTED_REQUEST (R492). Any other SPDM request receives ERROR with UnsupportedRequest. -/
  | spdmUnsupportedRequest (code : Byte)
  /-- NOP (R301). The NOP command completes OK without work. -/
  | nop (q : QNum)
  /-- TILES (R284). The TILES command runs the tiles of its tile descriptor table. -/
  | tiles (q : QNum)
  /-- WEIGHT_HINT (R142). WEIGHT_HINT probes 2 MiB pages, caching translations and posting HINT reports for missing ones. -/
  | weightHint (q : QNum)
  /-- KV_APPEND (R222). KV_APPEND quantises and appends K and V tokens into the sequence's blocks with copy on write. -/
  | kvAppend (q : QNum)
  /-- KV_FORK (R226). KV_FORK copies a parent's prefix entries into a child and raises the blocks' reference counts. -/
  | kvFork (q : QNum)
  /-- KV_FREE (R227). KV_FREE releases every entry of a sequence and zeroes its LENGTH and HIGH. -/
  | kvFree (q : QNum)
  /-- KV_TRIM (R228). KV_TRIM removes tokens from the end of a sequence and releases the blocks beyond. -/
  | kvTrim (q : QNum)
  /-- COLLECTIVE_REDUCE_SCATTER (R476). A ring reduce-scatter writes this rank's summed chunk to DST. -/
  | collectiveReduceScatter (q : QNum)
  /-- COLLECTIVE_ALL_GATHER (R475). A ring all-gather writes every rank's chunk to DST in rank order. -/
  | collectiveAllGather (q : QNum)
  /-- COLLECTIVE_ALL_REDUCE (R475). A reduce-scatter then all-gather writes all summed chunks to DST. -/
  | collectiveAllReduce (q : QNum)
  /-- CTX_RESUME (R412). CTX_RESUME waits for the context's tiles to end and makes it ACTIVE, retrying or failing faulted commands. -/
  | ctxResume (q : QNum)
  /-- CTX_SETUP (R327). CTX_SETUP generates and wraps a command key and makes a FREE context ACTIVE with its queues. -/
  | ctxSetup (q : QNum)
  /-- SEG_SET (R390). SEG_SET stops the context's admission, writes segments and invalidates its translations. -/
  | segSet (q : QNum)
  /-- XLT_ROOT (R404). XLT_ROOT writes the context's translation mode, VMID and roots and invalidates its translations. -/
  | xltRoot (q : QNum)
  /-- XLT_INVALIDATE (R407). XLT_INVALIDATE removes covered translations and drains transactions made under them. -/
  | xltInvalidate (q : QNum)
  /-- KEY_BIND_BIND (R504). KEY_BIND BIND binds a context to a VALID key slot. -/
  | keyBindBind (q : QNum)
  /-- KEY_BIND_CREATE (R504). KEY_BIND CREATE installs a new PLAIN or XTS key in an EMPTY slot and binds the context. -/
  | keyBindCreate (q : QNum)
  /-- KEY_BIND_RETIRE (R502). KEY_BIND RETIRE makes a VALID slot RETIRING, refusing new transactions. -/
  | keyBindRetire (q : QNum)
  /-- KEY_BIND_LINK (R505). KEY_BIND LINK installs a group link key in the slot on every selected member. -/
  | keyBindLink (q : QNum)
  /-- TEARDOWN (R508). TEARDOWN makes a context CLOSING, stops its work and begins the teardown sequence. -/
  | teardown (q : QNum)
  /-- GRAZE_UPDATE (R365). GRAZE_UPDATE checks a slot image and copies it into the inactive Grazing Table buffer. -/
  | grazeUpdate (q : QNum)
  /-- GRAZE_DISABLE (R365). GRAZE_UPDATE with DISABLE clears GRZ_CTRL.EN at the end of the cycle. -/
  | grazeDisable (q : QNum)
  /-- PARTITION_SET (R358). PARTITION_SET configures a partition, places a context in one, or both. -/
  | partitionSet (q : QNum)
  /-- POWER_STAGE_SET_LEVEL (R573). POWER_STAGE SET_LEVEL sets the requested performance level of selected clusters. -/
  | powerStageSetLevel (q : QNum)
  /-- POWER_STAGE_SET_TDP (R572). POWER_STAGE SET_TDP sets the TDP cap and averaging window. -/
  | powerStageSetTdp (q : QNum)
  /-- POWER_STAGE_RECAL (R574). POWER_STAGE RECAL calibrates the selected clusters. -/
  | powerStageRecal (q : QNum)
  /-- POWER_STAGE_RETIRE (R576). POWER_STAGE RETIRE retires a core at its next tile boundary and switches its domain off. -/
  | powerStageRetire (q : QNum)
  /-- POWER_STAGE_UNRETIRE (R576). POWER_STAGE UNRETIRE removes a core from the retired set. -/
  | powerStageUnretire (q : QNum)
  /-- POWER_STAGE_CAP_CHECK (R578). POWER_STAGE CAP_CHECK runs the hold-up capacitor check. -/
  | powerStageCapCheck (q : QNum)
  /-- FW_STAGE_DROVER (R527). FW_STAGE installs a checked Drover image and restarts Drovers 3 to 0 in turn. -/
  | fwStageDrover (q : QNum)
  /-- FW_STAGE_SHEPHERD (R529). FW_STAGE installs a checked Shepherd image and switches to it after a management pause. -/
  | fwStageShepherd (q : QNum)
  /-- FLOCK_BIND (R472). FLOCK_BIND binds a context into a flock group with its rank and link key. -/
  | flockBind (q : QNum)
  /-- FLOCK_UNBIND (R473). FLOCK_BIND with UNBIND removes the context's binding in the group. -/
  | flockUnbind (q : QNum)
  /-- KICK_REGISTER_WRITE (R539). Drover or Shepherd firmware writes its private kick register, which is the progress that zeroes its sheepdog count. -/
  | kickRegisterWrite (drover : Option (Fin 4))
  /-- EMULATED_WRITE_APPLY (R521). Drover 0's emulator takes the oldest queued write of a DV page and applies it. -/
  | emulatedWriteApply (n : Fin 4)
  /-- SHEPHERD_SERVICE_DONE (R17). The Shepherd finishes a service request of a waiting critical command, such as the key generation and wrapping of CTX_SETUP or a key installation, and the command continues. -/
  | shepherdServiceDone (q : QNum)
  /-- GROUP_LINK_KEY_FLIT (R498). A MGMT flit carrying a group link key or its salt reaches a selected member, whose Shepherd installs the LINK slot and answers the Bellwether. -/
  | groupLinkKeyFlit (p : LinkId) (nonce : BitVec 96) (f : Flit)
  /-- COLD_BOOT_READY (R621). At the end of a cold boot the Drovers load and run, the units leave reset and GLB.PG_STAT shows ready. -/
  | coldBootReady
  /-- CROSSING_RESET (R610). HRP_RST_N or TA_RST_N asserts on the SoC side of a crossing, and the crossing resynchronises its pointers without discarding accepted data. -/
  | crossingReset (c : Clk)
  /-- TAP_LEAVES_EXTEST (R627). The TAP leaves EXTEST, boundary scan releases the port outputs and the crossings resume their held traffic. -/
  | tapLeavesExtest
  /-- SELF_TEST_DONE (R626). A TAP-started SRAM self-test ends, the tested arrays are zeroed and the instance reset hold is released. -/
  | selfTestDone
  deriving DecidableEq, Repr

end Sys2Proof
end

