-- ==== Sys2Proof/Decode.lean ====
section
/-! DEFINITION. The word form of a command. No row of spec/opcode_table.json gives its command any bits (every row's
fields are empty): the commands are events, messages and accesses, so no word spells one. -/

namespace Sys2Proof

/-- The command that a word spells by the table's bits: the table gives none. -/
def decodeTableWord (_nbits _w : Nat) : Option Instr := none

end Sys2Proof
end

