-- ==== Sys2Proof/Config.lean ====
section
/-! DEFINITION. What an implementation fixes, and the values that the spec leaves open. None has a body: nothing can be
proved of a particular value. -/

namespace Sys2Proof.Config

/-- The n-th free value: a value that the spec leaves open (State.free counts them; assumption 3). -/
opaque freeNat : Nat → Nat

/-- The n-th output of the Shepherd's DRBG (14_trust_keys_and_tenants.md, The Shepherd and its secrets). -/
opaque drbg : Nat → Nat

/-- The OTP fields of Table 14.1. -/
opaque lifecycle : Nat
opaque imgKeyHash : Nat
opaque caRootHash : Nat
opaque deviceKey : Nat
opaque packageKey : Nat
opaque svnShepFloor : Nat
opaque svnDroverFloor : Nat
opaque bootHpa : Nat
opaque bootHpaAlt : Nat

/-- Where the Drover image lies in memory: the spec names no address (step 6 of Table 14.2). -/
opaque droverHpa : Bool → Nat

/-- The protection regions that a Drover image gives (R515), which the spec leaves to the image: by the image's digest, the component
(0 the kernel) and the region, the base, the size as a power of two beyond 4 KiB, and R, W, X in bits 0 to 2. -/
opaque droverRegion : Nat → Nat → Nat → Nat × Nat × Nat

/-- The instance's serial number (Table 13.5). -/
opaque serial : Nat

/-- The digest of the ROM (Table 14.7, index 1). -/
opaque romDigest : Nat

/-- The certificate chain of the instance, as bytes, given the alias certificate's measurement 2 (R493). -/
opaque certChain : Nat → List Nat

/-- The alias key's signature over a transcript digest (R493, Table 14.5). -/
opaque aliasSign : Nat → Nat → Nat

/-- The order in which an engine adds terms whose order the spec leaves open: a permutation seed per use. -/
opaque sumOrder : Nat → Nat → Nat

/-- Candidates for the elementary functions whose value the spec bounds but does not fix: function code and operand bits. -/
opaque approx : Nat → Nat → Nat

/-- The shared secret of an SPDM key exchange, given the exchanged public values (Table 14.5). -/
opaque dhSecret : Nat → Nat

/-- How the fields that LOCK_DIGEST covers are laid out as bytes: the spec gives their order and not their layout (R490). -/
opaque fieldBytes : List Nat → List Nat

/-- The bytes of an SPDM response: its code and its fields in the layout of DMTF SPDM 1.3, which the spec names and does not
give (Table 14.5). -/
opaque spdmBytes : Nat → List Nat → List Nat

/-- The requester's HMAC that FINISH must carry, given the session's secret (Table 14.5). -/
opaque finishMac : Nat → Nat

/-- What the Shepherd sends on a link in answer to an SPDM message that a port received while KEYING (R495): the port and the
message to the answer, empty for none. -/
opaque linkSpdm : Nat → List Nat → List Nat

/-- What the byte at an offset of a core's CSP holds when a tile starts: dead contents (R289), given the tile's seed. -/
opaque cspByte : Nat → Nat → Nat

/-- The contents of a filler generator by the number of its state: the spec gives neither its feedback nor its start (R105). -/
opaque fillerBits : Nat → BitVec 32

/-- Bytes that the spec leaves unspecified, by a seed and a position. -/
opaque freeByte : Nat → Nat → Nat

end Sys2Proof.Config
end

