-- ==== Sys2Proof/Machine/Tbl.lean ====
section
/-! DEFINITION. Sparse tables: sorted lists of (key, value) pairs that list no entry equal to what an unlisted key
reads as, so that equal tables are equal data. Memory, the register file and every numbered unit are such tables. -/

namespace Sys2Proof.Machine

/-- The value listed under a key. -/
def tblFind {V : Type} : List (Nat × V) → Nat → Option V
  | [], _ => none
  | (k', v) :: t, k => if k' = k then some v else tblFind t k

/-- The value under a key, `d` where none is listed. -/
def tblGet {V : Type} (d : V) (t : List (Nat × V)) (k : Nat) : V := (tblFind t k).getD d

/-- List `v` under `k`, keeping the keys rising. -/
def tblIns {V : Type} : List (Nat × V) → Nat → V → List (Nat × V)
  | [], k, v => [(k, v)]
  | (k', v') :: t, k, v =>
    if k' = k then (k, v) :: t else if k < k' then (k, v) :: (k', v') :: t else (k', v') :: tblIns t k v

/-- List nothing under `k`. -/
def tblDel {V : Type} : List (Nat × V) → Nat → List (Nat × V)
  | [], _ => []
  | (k', v') :: t, k => if k' = k then tblDel t k else (k', v') :: tblDel t k

/-- Set the value under `k` to `v`; `d` is what an unlisted key reads as, and is never listed. The table is looked at
before the values are compared, so that evaluation stops at an unknown table (`tblPut_eq` is the form without that look). -/
def tblPut {V : Type} [DecidableEq V] (d : V) (t : List (Nat × V)) (k : Nat) (v : V) : List (Nat × V) :=
  match t with
  | [] => if v = d then [] else [(k, v)]
  | e :: r => if v = d then tblDel (e :: r) k else tblIns (e :: r) k v

/-- Set the value under `k` to `f` of the present one. -/
def tblMod {V : Type} [DecidableEq V] (d : V) (t : List (Nat × V)) (k : Nat) (f : V → V) : List (Nat × V) :=
  tblPut d t k (f (tblGet d t k))

/-- Drop every key from `lo` up to but not including `hi`. -/
def tblDropRange {V : Type} (t : List (Nat × V)) (lo hi : Nat) : List (Nat × V) :=
  t.filter (fun e => !(lo ≤ e.1 && e.1 < hi))

/-- Keys strictly rising from above `lo`. -/
def tblRising {V : Type} : Nat → List (Nat × V) → Bool
  | _, [] => true
  | lo, (k, _) :: t => decide (lo ≤ k) && tblRising (k + 1) t

/-- The canonical form: keys strictly rising, and no value equal to what an unlisted key reads as. -/
def tblOk {V : Type} [DecidableEq V] (d : V) (t : List (Nat × V)) : Bool :=
  tblRising 0 t && t.all (fun e => !decide (e.2 = d))

/-- Sorted insertion into a list of numbers without repeats. -/
def setIns : List Nat → Nat → List Nat
  | [], k => [k]
  | k' :: t, k => if k' = k then k' :: t else if k < k' then k :: k' :: t else k' :: setIns t k

/-- Removal from a list of numbers. -/
def setDel (t : List Nat) (k : Nat) : List Nat := t.filter (fun x => !(x == k))

end Sys2Proof.Machine
end

