-- ==== Sys2Proof/Machine/Operands.lean ====
section
/-! DEFINITION. Operand formats: integers, floating-point elements, packed arrays, and the exact numbers that they denote
(02_arithmetic_and_formats.md). -/

namespace Sys2Proof.Machine

/-! Numbers. -/

/-- What an encoding denotes: NaN, an infinity, or the dyadic number (−1)^neg × m × 2^e. -/
inductive Num where
  | nan
  | inf (neg : Bool)
  | fin (neg : Bool) (m : Nat) (e : Int)
  deriving DecidableEq, Repr

def Num.zero : Num := .fin false 0 0

/-- An integer as a number. -/
def Num.ofInt (i : Int) : Num := .fin (decide (i < 0)) i.natAbs 0

/-- A power of two times an integer. -/
def Num.scaled (i : Int) (e : Int) : Num := .fin (decide (i < 0)) i.natAbs e

def Num.neg : Num → Num
  | .nan => .nan
  | .inf s => .inf (!s)
  | .fin s m e => .fin (!s) m e

def Num.abs : Num → Num
  | .nan => .nan
  | .inf _ => .inf false
  | .fin _ m e => .fin false m e

def Num.isNan : Num → Bool
  | .nan => true
  | .inf _ => false
  | .fin _ _ _ => false

def Num.isZero : Num → Bool
  | .nan => false
  | .inf _ => false
  | .fin _ m _ => m == 0

/-- A number that is neither NaN nor an infinity. -/
def Num.isFin : Num → Bool
  | .nan => false
  | .inf _ => false
  | .fin _ _ _ => true

/-- The signed mantissa of a dyadic number at an exponent not above its own. -/
def alignInt (s : Bool) (m : Nat) (e q : Int) : Int := (if s then -1 else 1) * (m : Int) * 2 ^ (e - q).toNat

/-- The exact sum; a sum that is exactly zero is +0 (R45), and Inf − Inf is NaN (R44). -/
def Num.add : Num → Num → Num
  | .nan, _ => .nan
  | _, .nan => .nan
  | .inf a, .inf b => if a = b then .inf a else .nan
  | .inf a, .fin _ _ _ => .inf a
  | .fin _ _ _, .inf b => .inf b
  | .fin s m e, .fin t n f =>
    let q := min e f
    Num.scaled (alignInt s m e q + alignInt t n f q) q

/-- The exact product; 0 × Inf is NaN (R40, R44). -/
def Num.mul : Num → Num → Num
  | .nan, _ => .nan
  | _, .nan => .nan
  | .inf a, .inf b => .inf (a != b)
  | .inf a, .fin t n _ => if n = 0 then .nan else .inf (a != t)
  | .fin s m _, .inf b => if m = 0 then .nan else .inf (s != b)
  | .fin s m e, .fin t n f => .fin (s != t) (m * n) (e + f)

def Num.sub (a b : Num) : Num := a.add b.neg

/-- The exact sum of a list, in order; the empty sum is +0. -/
def Num.sum (l : List Num) : Num := l.foldl Num.add Num.zero

/-- Strict comparison of numbers that are not NaN. -/
def Num.lt : Num → Num → Bool
  | .nan, _ => false
  | _, .nan => false
  | .inf a, .inf b => a && !b
  | .inf a, .fin _ _ _ => a
  | .fin _ _ _, .inf b => !b
  | .fin s m e, .fin t n f => let q := min e f; decide (alignInt s m e q < alignInt t n f q)

/-- Equality in value. -/
def Num.eqv : Num → Num → Bool
  | .nan, _ => false
  | _, .nan => false
  | .inf a, .inf b => a == b
  | .inf _, .fin _ _ _ => false
  | .fin _ _ _, .inf _ => false
  | .fin s m e, .fin t n f => let q := min e f; decide (alignInt s m e q = alignInt t n f q)

def Num.le (a b : Num) : Bool := a.lt b || a.eqv b

/-! Formats (Table 2.2). -/

/-- A floating-point format: exponent bits, mantissa bits, bias, whether it has infinities, and its NaN codes. -/
structure Fmt where
  ebits : Nat
  mbits : Nat
  bias : Nat
  inf : Bool
  /-- Magnitude code of the largest finite value. -/
  maxFin : Nat
  /-- The canonical NaN (Table 2.4), when the format has NaN. -/
  nan : Option Nat
  deriving DecidableEq, Repr

def fp4 : Fmt := ⟨2, 1, 1, false, 0x7, none⟩
def fp6e2m3 : Fmt := ⟨2, 3, 1, false, 0x1F, none⟩
def fp6e3m2 : Fmt := ⟨3, 2, 3, false, 0x1F, none⟩
def fp8e4m3 : Fmt := ⟨4, 3, 7, false, 0x7E, some 0x7F⟩
def fp8e5m2 : Fmt := ⟨5, 2, 15, true, 0x7B, some 0x7E⟩
def fp16 : Fmt := ⟨5, 10, 15, true, 0x7BFF, some 0x7E00⟩
def bf16 : Fmt := ⟨8, 7, 127, true, 0x7F7F, some 0x7FC0⟩
def fp32 : Fmt := ⟨8, 23, 127, true, 0x7F7FFFFF, some 0x7FC00000⟩

/-- Bits of an element. -/
def Fmt.width (f : Fmt) : Nat := 1 + f.ebits + f.mbits

/-- The number that a code denotes (R28 to R30). -/
def Fmt.dec (f : Fmt) (x : Nat) : Num :=
  let mag := x % 2 ^ (f.ebits + f.mbits)
  let s := bit x (f.ebits + f.mbits)
  let e := mag / 2 ^ f.mbits
  let m := mag % 2 ^ f.mbits
  if f.maxFin < mag then (if f.inf && m == 0 then .inf s else .nan)
  else if e = 0 then .fin s m (1 - (f.bias : Int) - f.mbits)
  else .fin s (m + 2 ^ f.mbits) ((e : Int) - f.bias - f.mbits)

/-- A number divided by 2^k, rounded to nearest, ties to even. -/
def rneShift (m k : Nat) : Nat :=
  let q := m / 2 ^ k
  let r := m % 2 ^ k
  if 2 * r < 2 ^ k then q else if 2 ^ k < 2 * r then q + 1 else q + q % 2

/-- The magnitude code that m × 2^e rounds to, unbounded above: a code above `maxFin` has overflowed. -/
def Fmt.roundMag (f : Fmt) (m : Nat) (e : Int) : Nat :=
  if m = 0 then 0
  else
    let emin : Int := 1 - (f.bias : Int) - f.mbits
    let q := max (e + (Nat.log2 m : Int) - f.mbits) emin
    let mant := if e < q then rneShift m (q - e).toNat else m * 2 ^ (e - q).toNat
    (q - emin).toNat * 2 ^ f.mbits + mant

/-- Overflow handling (Table 2.10). -/
inductive Sat where
  | saturate | ieee
  deriving DecidableEq, Repr

/-- The code of an overflow or of an infinity (Tables 2.10 and 2.11), with its sign. -/
def Fmt.over (f : Fmt) (sat : Sat) (s : Bool) : Nat :=
  let sg := b2n s * 2 ^ (f.ebits + f.mbits)
  match sat with
  | .saturate => sg + f.maxFin
  | .ieee => if f.inf then sg + f.maxFin + 1 else match f.nan with
    | some n => n
    | none => sg + f.maxFin

/-- Convert a number to a format, rounding once to nearest even (R62, Tables 2.10 and 2.11). -/
def Fmt.enc (f : Fmt) (sat : Sat) : Num → Nat
  | .nan => f.nan.getD 0
  | .inf s => f.over sat s
  | .fin s m e =>
    let c := f.roundMag m e
    if f.maxFin < c then f.over sat s else b2n s * 2 ^ (f.ebits + f.mbits) + c

/-- Round to FP32 by IEEE 754 (R42 to R44). -/
def toF32 (n : Num) : Nat := fp32.enc .ieee n
def ofF32 (x : Nat) : Num := fp32.dec x
/-- The number after one rounding to FP32. -/
def rnd32 (n : Num) : Num := ofF32 (toF32 n)

def f32add (a b : Nat) : Nat := toF32 ((ofF32 a).add (ofF32 b))
def f32mul (a b : Nat) : Nat := toF32 ((ofF32 a).mul (ofF32 b))
/-- Fused multiply and add with one rounding. -/
def f32fma (a b c : Nat) : Nat := toF32 (((ofF32 a).mul (ofF32 b)).add (ofF32 c))

/-! Integers (R26). -/

/-- The signed value of `w` bits. -/
def sInt (w x : Nat) : Int := if x % 2 ^ w < 2 ^ (w - 1) then (x % 2 ^ w : Nat) else (x % 2 ^ w : Nat) - 2 ^ w

/-- The two's complement code of an integer in `w` bits. -/
def codeInt (w : Nat) (i : Int) : Nat := (i % (2 ^ w : Nat)).toNat

/-- Least and greatest value of a `w`-bit integer. -/
def intMin (w : Nat) (signed : Bool) : Int := if signed then -(2 ^ (w - 1) : Nat) else 0
def intMax (w : Nat) (signed : Bool) : Int := if signed then (2 ^ (w - 1) : Nat) - 1 else (2 ^ w : Nat) - 1
def clampInt (lo hi i : Int) : Int := max lo (min hi i)

/-- The integer nearest a number, ties to even; none for NaN; an infinity saturates beyond every range. -/
def Num.toInt : Num → Option Int
  | .nan => none
  | .inf s => some (if s then -(2 ^ 200 : Nat) else (2 ^ 200 : Nat))
  | .fin s m e =>
    let v : Nat := if e < 0 then rneShift m (-e).toNat else m * 2 ^ e.toNat
    some (if s then -(v : Int) else v)

/-- The floor of a finite number; none for NaN and infinities. -/
def Num.floor : Num → Option Int
  | .nan => none
  | .inf _ => none
  | .fin s m e =>
    let v : Int := if s then -(m : Int) else m
    some (if e < 0 then v / (2 ^ (-e).toNat : Nat) else v * (2 ^ e.toNat : Nat))

/-! Packed elements (R27, R31, R655). -/

/-- Element `i` of `w` bits of a packed array read as one little-endian number. -/
def packedAt (bs : List Byte) (w i : Nat) : Nat := bits (leNat bs) (w * i) w

/-- All `n` elements of a packed array, without rereading the whole number per element. -/
def unpackGo (w : Nat) : Nat → Nat → List Nat
  | 0, _ => []
  | n + 1, x => x % 2 ^ w :: unpackGo w n (x / 2 ^ w)
def unpack (w n : Nat) (bs : List Byte) : List Nat := unpackGo w n (leNat bs)

/-- The number that elements of `w` bits spell, the first lowest. -/
def packNat (w : Nat) : List Nat → Nat
  | [] => 0
  | x :: xs => x % 2 ^ w + 2 ^ w * packNat w xs

/-- Bytes of a run of `n` elements of `w` bits, and the run as bytes: the last byte's unused bits are zero (R655). -/
def runBytes (w n : Nat) : Nat := ceilDiv (w * n) 8
def pack (w : Nat) (xs : List Nat) : List Byte := natLe (runBytes w xs.length) (packNat w xs)

/-! Microscaling scales (R33, R38). -/

/-- The number of an E8M0 scale byte. -/
def e8m0 (x : Nat) : Num := if x = 255 then .nan else .fin false 1 ((x : Int) - 127)

/-- The exact value of m × 2^(ea+eb−254) for two scale bytes (R40). -/
def scalePair (a b : Nat) : Num := (e8m0 a).mul (e8m0 b)

end Sys2Proof.Machine
end

