-- ==== Sys2Proof/Machine/ElemOps.lean ====
section
/-! DEFINITION. Quotients and the elementary functions of the engines. A quotient or a function is first worked out far more
finely than FP32, and each engine rounds it where its rule says; where a rule bounds the error of a result and leaves the result
open, the result is a free value within the bound (05_attention_engine.md R152, 07_vector_engine_windows_and_inlets.md R237). -/

namespace Sys2Proof.Machine

/-- A quotient, by the cases of IEEE 754. A finite quotient is cut after at least 64 bits with a last bit that tells whether
something was cut, so that it rounds to every format as the exact quotient does. -/
def Num.div : Num → Num → Num
  | .nan, _ => .nan
  | _, .nan => .nan
  | .inf _, .inf _ => .nan
  | .inf a, .fin t _ _ => .inf (a != t)
  | .fin s _ _, .inf t => .fin (s != t) 0 0
  | .fin s m e, .fin t n f =>
    if n = 0 then (if m = 0 then .nan else .inf (s != t))
    else
      let k := 64 + Nat.log2 n
      let q := m * 2 ^ k / n
      let r := m * 2 ^ k % n
      .fin (s != t) (2 * q + if r = 0 then 0 else 1) (e - f - k - 1)

/-- Fractional bits of the fine results. -/
def fineBits : Nat := 96
/-- ln 2 and 2π in fixed point, with 96 and 320 fractional bits. -/
def ln2Fix : Nat := 0xB17217F7D1CF79ABC9E3B398
def twoPiFix : Nat := 0x6487ED5110B4611A62633145C06E0E68948127044533E63A0105DF531D89CD9128A5043CC71A026EF

/-- A number in fixed point with `p` fractional bits, cut downwards in magnitude. -/
def fixOf (p : Nat) (m : Nat) (e : Int) : Nat :=
  if 0 ≤ e + p then m * 2 ^ (e + p).toNat else m / 2 ^ (-(e + p)).toNat

/-- The sum of r^i / i! for i from `i` up, given the term before it. -/
def expTerms (r : Nat) : Nat → Nat → Nat → Nat
  | 0, _, _ => 0
  | f + 1, i, t =>
    let t' := t * r / 2 ^ fineBits / i
    t' + expTerms r f (i + 1) t'

/-- e^x for an argument at most 0, to about 90 bits; 0 below every FP32 value. -/
def expFine : Num → Num
  | .nan => .nan
  | .inf s => if s then Num.zero else .inf false
  | .fin s m e =>
    if m = 0 then .fin false 1 0
    else if s && decide (8 ≤ e + Nat.log2 m) then Num.zero
    else if s then
      let x := fixOf fineBits m e
      let k := ceilDiv x ln2Fix
      let r := k * ln2Fix - x
      .fin false (2 ^ fineBits + expTerms r 32 1 (2 ^ fineBits)) (-(fineBits : Int) - k)
    else .nan

/-- Partial sum of z^(2i+1)/(2i+1) from `i` up, given z² and the power of z. -/
def atanhTerms (z2 : Nat) : Nat → Nat → Nat → Nat
  | 0, _, _ => 0
  | f + 1, i, t => t / (2 * i + 1) + atanhTerms z2 f (i + 1) (t * z2 / 2 ^ fineBits)

/-- ln x for a positive finite number, to about 90 bits. -/
def lnFine : Num → Num
  | .nan => .nan
  | .inf _ => .inf false
  | .fin _ m e =>
    let k := Nat.log2 m
    let one := 2 ^ fineBits
    let f := m * one / 2 ^ k
    let z := (f - one) * one / (f + one)
    let l := 2 * atanhTerms (z * z / one) 44 0 z
    (Num.scaled ((l : Int) + (e + k) * (ln2Fix : Int)) (-(fineBits : Int)))

/-- The integer square root, bit by bit from bit `b` down. -/
def sqrtGo (n : Nat) : Nat → Nat → Nat
  | 0, a => a
  | b + 1, a => sqrtGo n b (if (a + 2 ^ b) * (a + 2 ^ b) ≤ n then a + 2 ^ b else a)

/-- 1/√x for a positive finite number, to about 80 bits. -/
def rsqrtFine : Num → Num
  | .nan => .nan
  | .inf s => if s then .nan else Num.zero
  | .fin s m e =>
    if m = 0 then .inf s
    else if s then .nan
    else
      let odd := decide (e % 2 ≠ 0)
      let m := if odd then 2 * m else m
      let e := if odd then e - 1 else e
      let p := 96 + Nat.log2 m
      let q := sqrtGo (2 ^ (2 * p) / m) (p + 2) 0
      .fin false q (-(e / 2) - p)

/-- Alternating Taylor terms: t, −t·x²/((i+1)(i+2)), and so on, the given term being that of power `i`. -/
def trigTerms (x2 : Nat) : Nat → Nat → Nat → Bool → Int
  | 0, _, _, _ => 0
  | f + 1, i, t, neg =>
    (if neg then -(t : Int) else (t : Int)) + trigTerms x2 f (i + 2) (t * x2 / 2 ^ fineBits / ((i + 1) * (i + 2))) (!neg)

/-- Sine and cosine of a finite angle, reduced modulo 2π with a 2π of 320 fractional bits (R245). -/
def sinCosFine : Num → Num × Num
  | .nan => (.nan, .nan)
  | .inf _ => (.nan, .nan)
  | .fin s m e =>
    let r := fixOf 320 m e % twoPiFix
    let half := twoPiFix / 2
    let (sg, r) := if half < r then (!s, twoPiFix - r) else (s, r)
    let x := r / 2 ^ 224
    let x2 := x * x / 2 ^ fineBits
    let sn := trigTerms x2 30 1 x false
    let cs := trigTerms x2 30 0 (2 ^ fineBits) false
    (Num.scaled (if sg then -sn else sn) (-(fineBits : Int)), Num.scaled cs (-(fineBits : Int)))

/-! Results that the spec bounds and leaves open. -/

/-- A candidate FP32 code lies within 2^(-k) of the exact value, relative to it or absolutely: the bound on the distance from the fine
value is less by 2^(-k-60), which is more than the fine value itself is off. -/
def nearRel (k : Nat) (c e : Num) : Bool :=
  (c.sub e).abs.le ((e.abs).mul (.fin false (2 ^ 60 - 1) (-(k : Int) - 60)))
def nearAbs (k : Nat) (c e : Num) : Bool := (c.sub e).abs.le (.fin false (2 ^ 60 - 1) (-(k : Int) - 60))

/-- The free value within the bound, else the nearest FP32 value. -/
def boundedBy (near : Num → Num → Bool) (code arg : Nat) (fine : Num) : Num :=
  let c := ofF32 (Config.approx code arg % 2 ^ 32)
  match c with
  | .fin _ _ _ => if near c fine then c else rnd32 fine
  | .nan => rnd32 fine
  | .inf _ => rnd32 fine

/-- The exponential unit (R152, R237): e^x for x ≤ 0 with a relative error of at most 2^(-21), e^(-∞) = +0, and e^0 = 1, as a block
that hides every key leaves a row unchanged (R172, DEDUCED); for any other argument the spec states no result, which is free. -/
def expF (x : Num) : Num :=
  match x with
  | .nan => ofF32 (Config.approx 1 (toF32 x) % 2 ^ 32)
  | .inf s => if s then Num.zero else ofF32 (Config.approx 1 (toF32 x) % 2 ^ 32)
  | .fin s m _ =>
    if m = 0 then .fin false 1 0
    else if s then boundedBy (nearRel 21) 0 (toF32 x) (expFine x) else ofF32 (Config.approx 1 (toF32 x) % 2 ^ 32)

/-- The reciprocal square root (R237): relative error at most 2^(-22). -/
def rsqrtF (x : Num) : Num :=
  match x with
  | .fin false (_ + 1) _ => boundedBy (nearRel 22) 2 (toF32 x) (rsqrtFine x)
  | _ => rsqrtFine x

/-- Sine and cosine (R237): absolute error at most 2^(-22). `arg` names the angle. -/
def sinCosF (arg : Nat) (theta : Num) : Num × Num :=
  match theta with
  | .fin _ _ _ =>
    let f := sinCosFine theta
    (boundedBy (nearAbs 22) 3 arg f.1, boundedBy (nearAbs 22) 4 arg f.2)
  | _ => (.nan, .nan)

end Sys2Proof.Machine
end

