-- ==== Sys2Proof/Machine/Crypto.lean ====
section
/-! DEFINITION. The cryptographic functions that the spec names by their standards: AES-256 (FIPS 197), CMAC
(SP 800-38B, R313), XTS (IEEE 1619, R442), key wrap (Table 14.9), GCM (R450), SHA-384, HMAC and HKDF, and ECDSA
verification on P-384 (Tables 14.2 and 14.3). Byte strings are lists of numbers below 256. -/

namespace Sys2Proof.Machine

/-- The AES S-box, byte i at bits 8i. -/
def aesSboxTable : Nat := 0x16bb54b00f2d99416842e6bf0d89a18cdf2855cee9871e9b948ed9691198f8e19e1dc186b95735610ef6034866b53e708a8bbd4b1f74dde8c6b4a61c2e2578ba08ae7a65eaf4566ca94ed58d6d37c8e779e4959162acd3c25c2406490a3a32e0db0b5ede14b8ee4688902a22dc4f816073195d643d7ea7c41744975fec130ccdd2f3ff1021dab6bcf5389d928f40a351a89f3c507f02f94585334d43fbaaefd0cf584c4a39becb6a5bb1fc20ed00d153842fe329b3d63b52a05a6e1b1a2c830975b227ebe28012079a059618c323c7041531d871f1e5a534ccf73f362693fdb7c072a49cafa2d4adf04759fa7dc982ca76abd7fe2b670130c56f6bf27b777c63
/-- The inverse S-box. -/
def aesInvTable : Nat := 0x7d0c2155631469e126d677ba7e042b17619953833cbbebc8b0f52aae4d3be0a0ef9cc9939f7ae52d0d4ab519a97f51605fec8027591012b131c7078833a8dd1ff45acd78fec0db9a2079d2c64b3e56fc1bbe18aa0e62b76f89c5291d711af1476edf751ce837f9e28535ade72274ac9673e6b4f0cecff297eadc674f4111913a6b8a130103bdafc1020f3fca8f1e2cd00645b3b80558e4f70ad3bc8c00abd890849d8da75746155edab9edfd5048706c92b6655dcc5ca4d41698688664f6f87225d18b6d49a25b76b224d92866a12e084ec3fa420b954cee3d23c2a632947b54cbe9dec444438e3487ff2f9b8239e37cfbd7f3819ea340bf38a53630d56a0952
def aesS (x : Nat) : Nat := bits aesSboxTable (8 * x) 8
def aesInvS (x : Nat) : Nat := bits aesInvTable (8 * x) 8

/-- Multiplication by x in GF(2^8). -/
def gfX (a : Nat) : Nat := if a < 128 then 2 * a else (2 * a) % 256 ^^^ 0x1B

/-- Multiplication in GF(2^8) by a small constant given by its bits. -/
def gfMul (c a : Nat) : Nat :=
  let a2 := gfX a
  let a4 := gfX a2
  let a8 := gfX a4
  (if bit c 0 then a else 0) ^^^ (if bit c 1 then a2 else 0) ^^^ (if bit c 2 then a4 else 0) ^^^ (if bit c 3 then a8 else 0)

/-- Bytewise exclusive or. -/
def xorB (a b : List Nat) : List Nat := List.zipWith (· ^^^ ·) a b

/-- The big-endian number of a byte string, and the `n` bytes of a number. -/
def bNat (bs : List Nat) : Nat := bs.foldl (fun a b => a * 256 + b) 0
def natB (n x : Nat) : List Nat := (List.range n).map (fun i => bits x (8 * (n - 1 - i)) 8)
/-- Little-endian forms. -/
def lNat (bs : List Nat) : Nat := bNat bs.reverse
def natL (n x : Nat) : List Nat := (List.range n).map (fun i => bits x (8 * i) 8)

/-- Cut a list into pieces of `n`, at most `fuel` of them. -/
def chunksOf {α : Type} (n : Nat) : Nat → List α → List (List α)
  | 0, _ => []
  | _ + 1, [] => []
  | f + 1, x :: xs => (x :: xs).take n :: chunksOf n f ((x :: xs).drop n)

/-- The AES-256 key schedule: the words from the last one back, newest first. -/
def aesSched : Nat → Nat → List (List Nat) → List (List Nat)
  | 0, _, ws => ws
  | f + 1, i, ws =>
    let t := ws.headD []
    let t' :=
      if i % 8 = 0 then
        match (t.drop 1 ++ t.take 1).map aesS with
        | a :: r => (a ^^^ 2 ^ (i / 8 - 1)) :: r
        | [] => []
      else if i % 8 = 4 then t.map aesS else t
    aesSched f (i + 1) (xorB (ws.getD 7 []) t' :: ws)

/-- The fifteen round keys of a 32-byte key. -/
def aesRoundKeys (key : List Nat) : List (List Nat) :=
  chunksOf 16 15 ((aesSched 52 8 (chunksOf 4 8 key).reverse).reverse.flatten)

def aesShift (b : List Nat) : List Nat :=
  [0, 5, 10, 15, 4, 9, 14, 3, 8, 13, 2, 7, 12, 1, 6, 11].map (fun i => b.getD i 0)
def aesInvShift (b : List Nat) : List Nat :=
  [0, 13, 10, 7, 4, 1, 14, 11, 8, 5, 2, 15, 12, 9, 6, 3].map (fun i => b.getD i 0)

def aesMixCol (k0 k1 k2 k3 : Nat) (c : List Nat) : List Nat :=
  let a := c.getD 0 0
  let b := c.getD 1 0
  let d := c.getD 2 0
  let e := c.getD 3 0
  [gfMul k0 a ^^^ gfMul k1 b ^^^ gfMul k2 d ^^^ gfMul k3 e, gfMul k3 a ^^^ gfMul k0 b ^^^ gfMul k1 d ^^^ gfMul k2 e,
   gfMul k2 a ^^^ gfMul k3 b ^^^ gfMul k0 d ^^^ gfMul k1 e, gfMul k1 a ^^^ gfMul k2 b ^^^ gfMul k3 d ^^^ gfMul k0 e]

def aesMix (b : List Nat) : List Nat := ((chunksOf 4 4 b).map (aesMixCol 2 3 1 1)).flatten
def aesInvMix (b : List Nat) : List Nat := ((chunksOf 4 4 b).map (aesMixCol 14 11 13 9)).flatten

def aesEncRounds : List (List Nat) → List Nat → List Nat
  | [], b => b
  | [k], b => xorB (aesShift (b.map aesS)) k
  | k :: ks, b => aesEncRounds ks (xorB (aesMix (aesShift (b.map aesS))) k)

/-- AES-256 encryption of one 16-byte block under round keys. -/
def aesEncK (rks : List (List Nat)) (b : List Nat) : List Nat :=
  match rks with
  | [] => b
  | k :: ks => aesEncRounds ks (xorB b k)

def aesDecRounds : List (List Nat) → List Nat → List Nat
  | [], b => b
  | [k], b => xorB ((aesInvShift b).map aesInvS) k
  | k :: ks, b => aesDecRounds ks (aesInvMix (xorB ((aesInvShift b).map aesInvS) k))

/-- AES-256 decryption of one block. -/
def aesDecK (rks : List (List Nat)) (b : List Nat) : List Nat :=
  match rks.reverse with
  | [] => b
  | k :: ks => aesDecRounds ks (xorB b k)

def aesEnc (key b : List Nat) : List Nat := aesEncK (aesRoundKeys key) b

/-- Doubling of a 128-bit value for the CMAC subkeys. -/
def cmacDbl (x : Nat) : Nat := if x < 2 ^ 127 then 2 * x else (2 * x) % 2 ^ 128 ^^^ 0x87

def cmacFold (rks : List (List Nat)) (bs : List (List Nat)) : List Nat :=
  bs.foldl (fun a b => aesEncK rks (xorB a b)) (List.replicate 16 0)

/-- AES-256-CMAC of a message (SP 800-38B). -/
def cmac (key msg : List Nat) : List Nat :=
  let rks := aesRoundKeys key
  let k1 := cmacDbl (bNat (aesEncK rks (List.replicate 16 0)))
  let k2 := cmacDbl k1
  let n := if msg.isEmpty then 1 else ceilDiv msg.length 16
  let last := msg.drop (16 * (n - 1))
  let last' :=
    if last.length = 16 then xorB last (natB 16 k1)
    else xorB (last ++ 0x80 :: List.replicate (15 - last.length) 0) (natB 16 k2)
  cmacFold rks (chunksOf 16 (n - 1) msg ++ [last'])

/-- The tweak of the next block in XTS. -/
def xtsNext (t : Nat) : Nat := if t < 2 ^ 127 then 2 * t else (2 * t) % 2 ^ 128 ^^^ 0x87

def xtsBlocks (f : List Nat → List Nat) : Nat → List (List Nat) → List Nat
  | _, [] => []
  | t, b :: bs => xorB (f (xorB b (natL 16 t))) (natL 16 t) ++ xtsBlocks f (xtsNext t) bs

/-- AES-256-XTS over one 64 B line; `key` holds 64 bytes, `unit` is the data unit number (R442). -/
def xtsEnc (key : List Nat) (unit : Nat) (line : List Nat) : List Nat :=
  xtsBlocks (aesEncK (aesRoundKeys (key.take 32))) (lNat (aesEnc (key.drop 32) (natL 16 unit))) (chunksOf 16 4 line)
def xtsDec (key : List Nat) (unit : Nat) (line : List Nat) : List Nat :=
  xtsBlocks (aesDecK (aesRoundKeys (key.take 32))) (lNat (aesEnc (key.drop 32) (natL 16 unit))) (chunksOf 16 4 line)

def kwInner (rks : List (List Nat)) : Nat → List (List Nat) → List Nat → List (List Nat) → List Nat × List (List Nat)
  | _, [], a, acc => (a, acc.reverse)
  | t, r :: rs, a, acc =>
    let b := aesEncK rks (a ++ r)
    kwInner rks (t + 1) rs (natB 8 (bNat (b.take 8) ^^^ t)) (b.drop 8 :: acc)

def kwRounds (rks : List (List Nat)) : Nat → Nat → List Nat → List (List Nat) → List Nat × List (List Nat)
  | 0, _, a, rs => (a, rs)
  | f + 1, t, a, rs =>
    let (a', rs') := kwInner rks t rs a []
    kwRounds rks f (t + rs.length) a' rs'

/-- AES-256 key wrap (RFC 3394). -/
def keyWrap (kek msg : List Nat) : List Nat :=
  let (a, rs) := kwRounds (aesRoundKeys kek) 6 1 (List.replicate 8 0xA6) (chunksOf 8 64 msg)
  a ++ rs.flatten

def kwInnerInv (rks : List (List Nat)) : Nat → List (List Nat) → List Nat → List (List Nat) → List Nat × List (List Nat)
  | _, [], a, acc => (a, acc)
  | t, r :: rs, a, acc =>
    let b := aesDecK rks (natB 8 (bNat a ^^^ t) ++ r)
    kwInnerInv rks (t - 1) rs (b.take 8) (b.drop 8 :: acc)

def kwRoundsInv (rks : List (List Nat)) : Nat → Nat → List Nat → List (List Nat) → List Nat × List (List Nat)
  | 0, _, a, rs => (a, rs)
  | f + 1, t, a, rs =>
    let (a', rs') := kwInnerInv rks t rs.reverse a []
    kwRoundsInv rks f (t - rs.length) a' rs'

/-- AES-256 key unwrap: the message, or none when the integrity value differs. -/
def keyUnwrap (kek w : List Nat) : Option (List Nat) :=
  let rs := chunksOf 8 64 (w.drop 8)
  let (a, out) := kwRoundsInv (aesRoundKeys kek) 6 (6 * rs.length) (w.take 8) rs
  if a = List.replicate 8 0xA6 then some out.flatten else none

/-- Multiplication in the GHASH field, bit-reflected as SP 800-38D gives. -/
def ghashMul : Nat → Nat → Nat → Nat → Nat
  | 0, _, _, z => z
  | f + 1, x, v, z =>
    ghashMul f x (if v % 2 = 0 then v / 2 else v / 2 ^^^ 0xE1000000000000000000000000000000)
      (if bit x f then z ^^^ v else z)

def ghash (h : Nat) (bs : List (List Nat)) : Nat :=
  bs.foldl (fun y b => ghashMul 128 (y ^^^ bNat (b ++ List.replicate (16 - b.length) 0)) h 0) 0

def gcmCtr (rks : List (List Nat)) (nonce : List Nat) : Nat → List (List Nat) → List Nat
  | _, [] => []
  | i, b :: bs => xorB b (aesEncK rks (nonce ++ natB 4 i)) ++ gcmCtr rks nonce (i + 1) bs

def gcmTag (rks : List (List Nat)) (nonce aad ct : List Nat) : List Nat :=
  let h := bNat (aesEncK rks (List.replicate 16 0))
  let bs := chunksOf 16 (aad.length + 1) aad ++ chunksOf 16 (ct.length + 1) ct ++ [natB 8 (8 * aad.length) ++ natB 8 (8 * ct.length)]
  xorB (natB 16 (ghash h bs)) (aesEncK rks (nonce ++ natB 4 1))

/-- AES-256-GCM with a 96-bit nonce: ciphertext and 16-byte tag. -/
def gcmSeal (key nonce aad pt : List Nat) : List Nat × List Nat :=
  let rks := aesRoundKeys key
  let ct := gcmCtr rks nonce 2 (chunksOf 16 (pt.length + 1) pt)
  (ct, gcmTag rks nonce aad ct)

/-- Opening: the plaintext when the tag verifies. -/
def gcmOpen (key nonce aad ct tag : List Nat) : Option (List Nat) :=
  let rks := aesRoundKeys key
  if (gcmTag rks nonce aad ct).take tag.length = tag then some (gcmCtr rks nonce 2 (chunksOf 16 (ct.length + 1) ct)) else none

/-- SHA-512 round constants, word i at bits 64i, and the initial values of SHA-384. -/
def shaK : Nat := 0x6c44198c4a4758175fcb6fab3ad6faec597f299cfc657e2a4cc5d4becb3e42b6431d67c49c100d4c3c9ebe0a15c9bebc32caab7b40c7249328db77f523047d841b710b35131c471b113f9804bef90dae0a637dc5a2c898a606f067aa72176fbaf57d4f7fee6ed178eada7dd6cde0eb1ed186b8c721c0c207ca273eceea26619cc67178f2e372532bbef9a3f7b2c67915a4506cebde82bde990befffa23631e288cc702081a6439ec84c87814a1f0ab7278a5636f43172f60748f82ee5defb2fc682e6ff3d6b2b8a35b9cca4f7763e3734ed8aa4ae3418acb391c0cb3c5c95a6334b0bcb5e19b48a82748774cdf8eeb991e376c085141ab5319a4c116b8d2d0c8106aa07032bbd1b8f40e35855771202ad69906245565a910d192e819d6ef5218c76c51a30654be30c24b8b70d0f89791a81a664bbc423001a2bfe8a14cf1036492722c851482353b81c2c92e47edaee6766a0abb3c77b2a8650a73548baf63de53380d139d95b3df4d2c6dfc5ac42aed2e1b21385c26c92627b70a8546d22ffc142929670a0e6e7006ca6351e003826fd5a79147930aa725c6e00bf33da88fc2bf597fc7beef0ee4b00327c898fb213fa831c66d2db43210983e5152ee66dfab76f988da831153b55cb0a9dcbd41fbd44a7484aa6ea6e4832de92c6f592b0275240ca1cc77ac9c650fc19dc68b8cd5b5efbe4786384f25e3e49b69c19ef14ad2c19bf174cf6926949bdc06a725c7123580deb1fe3b1696b172be5d74f27b896f550c7dc3d5ffb4e2243185be4ee4b28c12835b0145706fbed807aa98a3030242ab1c5ed5da6d8118923f82a4af194f9b59f111f1b605d0193956c25bf348b538e9b5dba58189dbbcb5c0fbcfec4d3b2f7137449123ef65cd428a2f98d728ae22
def shaH : Nat := 0x47b5481dbefa4fa4db0c2e0d64f98fa78eb44a876858151167332667ffc00b31152fecd8f70e59399159015a3070dd17629a292a367cd507cbbb9d5dc1059ed8

def rotr64 (n x : Nat) : Nat := (x >>> n) ||| ((x <<< (64 - n)) % 2 ^ 64)

/-- The 80 message words, newest first. -/
def shaSched : Nat → List Nat → List Nat
  | 0, w => w
  | f + 1, w =>
    let a := w.getD 1 0
    let b := w.getD 14 0
    let s1 := rotr64 19 a ^^^ rotr64 61 a ^^^ (a >>> 6)
    let s0 := rotr64 1 b ^^^ rotr64 8 b ^^^ (b >>> 7)
    shaSched f ((s1 + w.getD 6 0 + s0 + w.getD 15 0) % 2 ^ 64 :: w)

def shaRounds : Nat → List Nat → List Nat → List Nat
  | _, [], h => h
  | i, w :: ws, h =>
    let a := h.getD 0 0
    let b := h.getD 1 0
    let c := h.getD 2 0
    let d := h.getD 3 0
    let e := h.getD 4 0
    let f := h.getD 5 0
    let g := h.getD 6 0
    let t1 := h.getD 7 0 + (rotr64 14 e ^^^ rotr64 18 e ^^^ rotr64 41 e) + ((e &&& f) ^^^ ((2 ^ 64 - 1 - e) &&& g))
      + bits shaK (64 * i) 64 + w
    let t2 := (rotr64 28 a ^^^ rotr64 34 a ^^^ rotr64 39 a) + ((a &&& b) ^^^ (a &&& c) ^^^ (b &&& c))
    shaRounds (i + 1) ws [(t1 + t2) % 2 ^ 64, a, b, c, (d + t1) % 2 ^ 64, e, f, g]

def shaBlock (h : List Nat) (blk : List Nat) : List Nat :=
  let w := ((chunksOf 8 16 blk).map bNat).reverse
  List.zipWith (fun x y => (x + y) % 2 ^ 64) h (shaRounds 0 (shaSched 64 w).reverse h)

/-- SHA-384 of a byte string. -/
def sha384 (m : List Nat) : List Nat :=
  let padLen := (239 - m.length % 128) % 128
  let p := m ++ 0x80 :: (List.replicate padLen 0 ++ natB 16 (8 * m.length))
  let h0 := (List.range 8).map (fun i => bits shaH (64 * i) 64)
  (((chunksOf 128 (m.length + 2) p).foldl shaBlock h0).take 6).flatMap (natB 8)

/-- HMAC-SHA-384. -/
def hmac384 (key m : List Nat) : List Nat :=
  let k := (if key.length ≤ 128 then key else sha384 key)
  let k := k ++ List.replicate (128 - k.length) 0
  sha384 (k.map (· ^^^ 0x5C) ++ sha384 (k.map (· ^^^ 0x36) ++ m))

def hkdfExpand (prk info : List Nat) : Nat → Nat → List Nat → List Nat
  | 0, _, _ => []
  | f + 1, i, t =>
    let t' := hmac384 prk (t ++ info ++ [i])
    t' ++ hkdfExpand prk info f (i + 1) t'

/-- HKDF with SHA-384: extract and expand to `n` bytes. -/
def hkdf384 (salt ikm info : List Nat) (n : Nat) : List Nat :=
  (hkdfExpand (hmac384 salt ikm) info (n / 48 + 1) 1 []).take n

/-- The field prime, the order and the base point of P-384. -/
def p384P : Nat := 2 ^ 384 - 2 ^ 128 - 2 ^ 96 + 2 ^ 32 - 1
def p384N : Nat :=
  0xffffffffffffffffffffffffffffffffffffffffffffffffc7634d81f4372ddf581a0db248b0a77aecec196accc52973
def p384B : Nat :=
  0xb3312fa7e23ee7e4988e056be3f82d19181d9c6efe8141120314088f5013875ac656398d8a2ed19d2a85c8edd3ec2aef
def p384G : Nat × Nat :=
  (0xaa87ca22be8b05378eb1c71ef320ad746e1d3b628ba79b9859f741e082542a385502f25dbf55296c3a545e3872760ab7,
   0x3617de4a96262c6f5d9e98bf9292dc29f8f41dbd289a147ce9da3113b5f0b8c00a60b1ce1d7e819d7a431d7c90ea0e5f)

/-- Modular power by squaring. -/
def powMod (m : Nat) : Nat → Nat → Nat → Nat → Nat
  | 0, _, _, r => r
  | f + 1, b, e, r => powMod m f (b * b % m) (e / 2) (if e % 2 = 1 then r * b % m else r)

/-- The inverse modulo a prime. -/
def invMod (m a : Nat) : Nat := powMod m 400 (a % m) (m - 2) 1

/-- Addition on the curve; none is the point at infinity. -/
def ecAdd (a b : Option (Nat × Nat)) : Option (Nat × Nat) :=
  match a, b with
  | none, q => q
  | p, none => p
  | some (x1, y1), some (x2, y2) =>
    if x1 = x2 ∧ (y1 + y2) % p384P = 0 then none
    else
      let l :=
        if x1 = x2 then (3 * x1 * x1 + (p384P - 3)) * invMod p384P (2 * y1) % p384P
        else (y2 + p384P - y1) * invMod p384P (x2 + p384P - x1) % p384P
      let x3 := (l * l + 2 * p384P - x1 - x2) % p384P
      some (x3, (l * (x1 + p384P - x3) + p384P - y1) % p384P)

/-- Scalar multiplication. -/
def ecMul : Nat → Nat → Option (Nat × Nat) → Option (Nat × Nat) → Option (Nat × Nat)
  | 0, _, _, acc => acc
  | f + 1, k, p, acc => ecMul f (k / 2) (ecAdd p p) (if k % 2 = 1 then ecAdd acc p else acc)

/-- ECDSA verification on P-384 of a 48-byte digest, with the public key's and signature's 48-byte halves. -/
def ecdsaVerify (digest pubkey sig : List Nat) : Bool :=
  let z := bNat digest
  let q := (bNat (pubkey.take 48), bNat (pubkey.drop 48))
  let r := bNat (sig.take 48)
  let v := bNat (sig.drop 48)
  if r = 0 ∨ v = 0 ∨ p384N ≤ r ∨ p384N ≤ v ∨ p384P ≤ q.1 ∨ p384P ≤ q.2 then false
  else if (q.2 * q.2) % p384P ≠ (q.1 * q.1 * q.1 + (p384P - 3) * q.1 + p384B) % p384P then false
  else
    let w := invMod p384N v
    match ecAdd (ecMul 384 (z * w % p384N) (some p384G) none) (ecMul 384 (r * w % p384N) (some q) none) with
    | none => false
    | some (x, _) => x % p384N == r

end Sys2Proof.Machine
end

