-- ==== Sys2Proof/Machine/RegTable.lean ====
section
/-! DEFINITION. The register tables of every page (19_register_reference.md Tables 19.1 to 19.9 and the register tables
that close chapters 03 to 17): which register lies at which offset, the fields each holds, their access codes (R6) and reset values. -/

namespace Sys2Proof.Machine

/-- The access codes of Table 0.2 (R6); `ctx0` is "RO; RWL for context 0" of Table 19.7. -/
inductive Acc where
  | ro | rw | w1c | wo | rwl | ctx0
  deriving DecidableEq, Repr

/-- One field of a register table: its low bit, its width, its access code and its reset value. -/
structure FieldRow where
  lo : Nat
  w : Nat
  acc : Acc
  rst : Nat
  deriving DecidableEq, Repr

/-- One row of a register table: the first offset in the page, whether it is 64 bits wide, how many such registers
follow each other and at which stride, and the fields. Bits that no field names are reserved (R8). -/
structure RegRow where
  off : Nat
  wide : Bool
  count : Nat
  stride : Nat
  fields : List FieldRow
  deriving DecidableEq, Repr

/-- The page types of Table 19.3, with the pages that differ within a type apart. -/
inductive Page where
  | glb | shm | pwr | hup | grz | grzSlots | xlt | kvd | mp | lk | si | dv | cl | mxe | vxe | ate | wdu | tsq | shd | ctx | db
  deriving DecidableEq, Repr

/-- Where an offset lies: the page's type, its number within the type, the page's first offset. -/
structure Loc where
  page : Page
  idx : Nat
  base : Nat
  deriving DecidableEq, Repr

/-- A field with a number of bits, read-only. -/
def fRo (lo w : Nat) (r : Nat := 0) : FieldRow := ⟨lo, w, .ro, r⟩
/-- A field, read-write. -/
def fRw (lo w : Nat) (r : Nat := 0) : FieldRow := ⟨lo, w, .rw, r⟩
/-- A field, read-write while the page is unlocked. -/
def fL (lo w : Nat) (r : Nat := 0) : FieldRow := ⟨lo, w, .rwl, r⟩
/-- A field, write one to clear. -/
def fC (lo w : Nat) : FieldRow := ⟨lo, w, .w1c, 0⟩
/-- A field, write only. -/
def fWo (lo w : Nat) : FieldRow := ⟨lo, w, .wo, 0⟩
/-- A field of a CTX page that is RWL in context 0's page and RO in every other. -/
def fX (lo w : Nat) (r : Nat := 0) : FieldRow := ⟨lo, w, .ctx0, r⟩

/-- One 32-bit register. -/
def r32 (off : Nat) (fs : List FieldRow) : RegRow := ⟨off, false, 1, 4, fs⟩
/-- One 64-bit register. -/
def r64 (off : Nat) (fs : List FieldRow) : RegRow := ⟨off, true, 1, 8, fs⟩
/-- An array of 32-bit registers. -/
def r32s (off count stride : Nat) (fs : List FieldRow) : RegRow := ⟨off, false, count, stride, fs⟩
/-- An array of 64-bit registers. -/
def r64s (off count stride : Nat) (fs : List FieldRow) : RegRow := ⟨off, true, count, stride, fs⟩
/-- A 64-bit counter, read-only. -/
def c64 (off : Nat) : RegRow := r64 off [fRo 0 64]

/-- The page that holds an offset (R629, Table 19.1); `none` for a reserved range. -/
def locate (o : Nat) : Option Loc :=
  if o < 0x1000 then some ⟨.glb, 0, 0⟩
  else if o < 0x2000 then some ⟨.shm, 0, 0x1000⟩
  else if o < 0x3000 then some ⟨.pwr, 0, 0x2000⟩
  else if o < 0x4000 then some ⟨.hup, 0, 0x3000⟩
  else if o < 0x5000 then some ⟨.grz, 0, 0x4000⟩
  else if o < 0x8000 then none
  else if o < 0xA000 then some ⟨.grzSlots, 0, 0x8000⟩
  else if o < 0xC000 then some ⟨.grzSlots, 1, 0xA000⟩
  else if o < 0x10000 then none
  else if o < 0x11000 then some ⟨.xlt, 0, 0x10000⟩
  else if o < 0x12000 then some ⟨.kvd, 0, 0x11000⟩
  else if o < 0x1A000 then some ⟨.mp, (o - 0x12000) / 0x1000, o / 0x1000 * 0x1000⟩
  else if o < 0x20000 then none
  else if o < 0x24000 then some ⟨.lk, (o - 0x20000) / 0x1000, o / 0x1000 * 0x1000⟩
  else if o < 0x30000 then none
  else if o < 0x38000 then some ⟨.si, (o - 0x30000) / 0x400, o / 0x400 * 0x400⟩
  else if o < 0x40000 then none
  else if o < 0x44000 then some ⟨.dv, (o - 0x40000) / 0x1000, o / 0x1000 * 0x1000⟩
  else if o < 0x80000 then none
  else if o < 0xC0000 then
    if o % 0x10000 < 0x1000 then some ⟨.cl, (o - 0x80000) / 0x10000, o / 0x10000 * 0x10000⟩ else none
  else if o < 0x100000 then none
  else if o < 0x200000 then
    let n := (o - 0x100000) / 0x10000
    let b := o / 0x1000 * 0x1000
    match o % 0x10000 / 0x1000 with
    | 0 => some ⟨.mxe, n, b⟩
    | 1 => some ⟨.vxe, n, b⟩
    | 2 => some ⟨.ate, n, b⟩
    | 3 => some ⟨.wdu, n, b⟩
    | 4 => some ⟨.tsq, n, b⟩
    | 5 => some ⟨.shd, n, b⟩
    | _ => none
  else if o < 0x400000 then none
  else if o < 0x1400000 then some ⟨.ctx, (o - 0x400000) / 0x1000, o / 0x1000 * 0x1000⟩
  else if o < 0x2000000 then none
  else if o < 0x3000000 then some ⟨.db, (o - 0x2000000) / 0x1000, o / 0x1000 * 0x1000⟩
  else none

/-- The EV_RAW bits that a page defines (Tables 3.9, 4.10, 5.12, 6.20, 7.14, 7.19, 10.9, 11.16, 12.8, 13.10, 14.18, 15.9,
16.11, 16.12, 17.10, 19.6, 19.9). -/
def evMask (p : Page) (idx : Nat) : Nat :=
  match p with
  | .glb => 0x3F
  | .shm => 0x1FF
  | .pwr => 0x1F
  | .grz => 0x3
  | .xlt => 0x7
  | .kvd => 0x3F
  | .mp => if idx = 0 then 0x1F else 0x13
  | .lk => if idx = 0 then 0x3F else 0x3
  | .si => 0x1F
  | .mxe => 0x7
  | .vxe => 0x3
  | .ate => 0x7
  | .wdu => 0x3
  | .tsq => 0x1
  | .shd => 0x7
  | .hup => 0x1F
  | .grzSlots | .dv | .cl | .ctx | .db => 0

/-- The type code of a page (Table 19.3). -/
def pageType : Page → Nat
  | .glb => 0x1 | .shm => 0x2 | .pwr => 0x3 | .hup => 0x4 | .grz => 0x5 | .grzSlots => 0x5 | .xlt => 0x6 | .kvd => 0x7
  | .mp => 0x8 | .lk => 0x9 | .si => 0xA | .dv => 0xB | .cl => 0xC | .mxe => 0x10 | .vxe => 0x11 | .ate => 0x12
  | .wdu => 0x13 | .tsq => 0x14 | .shd => 0x15 | .ctx => 0x20 | .db => 0x21

/-- PG_CAPS.LOCKABLE: the page has RWL fields (R630, R637; the MXE pages by R636). -/
def pageLockable (p : Page) (idx : Nat) : Bool :=
  match p with
  | .glb | .kvd | .xlt | .grz | .pwr | .hup | .lk | .si | .wdu | .ate | .shd | .mxe => true
  | .mp | .ctx => idx == 0
  | .shm | .grzSlots | .dv | .cl | .vxe | .tsq | .db => false

/-- PG_CAPS of a page (Tables 19.2 and 19.4). -/
def pageCaps (p : Page) (idx : Nat) : Nat :=
  b2n (pageLockable p idx) + 2 * b2n (evMask p idx != 0)
    + 4 * b2n (p == .glb || p == .cl || p == .tsq)
    + 8 * b2n (p == .glb || p == .cl || p == .mxe || p == .vxe || p == .ate || p == .wdu || p == .tsq || p == .shd)
    + 16 * b2n (p == .kvd || (p == .mp && idx == 0))

/-- The common page header (R630, Table 19.2; PG_CTRL by Table 19.4). -/
def hdrRows (p : Page) (idx : Nat) : List RegRow :=
  [ r32 0x000 [fRo 0 7 1, fRo 7 1 (b2n (p == .dv)), fRo 8 8 (idx % 256), fRo 16 16 (pageType p)],
    r32 0x004 [fRo 0 4 0, fRo 4 4 0x3, fRo 16 16 0xB016],
    r32 0x008 [fRo 0 5 (pageCaps p idx)],
    r32 0x00C [if p == .kvd || (p == .mp && idx == 0) then fL 0 1 0 else fRo 0 1 (b2n (!(p == .ctx || p == .mp))),
      if p == .glb || p == .cl || p == .tsq then fRw 1 1 else fRo 1 1,
      if p == .glb || p == .cl || p == .mxe || p == .vxe || p == .ate || p == .wdu || p == .tsq || p == .shd
        then fRw 2 1 else fRo 2 1],
    r32 0x010 [fRo 0 2 (if p == .ctx then 1 else 0), fRo 2 1, fRo 3 1, if p == .ctx then fRo 4 1 else fC 4 1, fRo 5 1],
    r32 0x018 [⟨0, 32, .w1c, 0⟩],
    r32 0x01C [fRw 0 32],
    r32 0x020 [fRo 0 32],
    r32 0x024 [if p == .ctx then fRo 0 6 else fRw 0 6, if p == .ctx then fRo 7 1 else fRw 7 1],
    r32 0x028 [fRo 0 8],
    r32 0x02C [fRo 0 32],
    r64 0x030 [fRo 0 64],
    r32 0x038 [fRo 0 2],
    r32 0x03C [fRw 0 32] ]

/-- The GLB block registers (Tables 19.5, 19.6 and 16.12). -/
def glbRows : List RegRow :=
  [ r32 0x040 [fL 0 14 1000], c64 0x048, r32 0x050 [fWo 0 32], r32 0x054 [fL 0 32], r32 0x058 [fL 0 1],
    r32 0x05C [fRo 0 2, fRo 2 1, fRo 8 8], r64 0x060 [fRo 0 64], r64 0x068 [fWo 0 64], r32 0x070 [fWo 0 1],
    r32 0x074 [fRo 0 14], r64 0x078 [fL 0 52], r32 0x080 [fL 0 32], r32 0x084 [fRo 0 4 1, fRo 8 16],
    r64 0x088 [fRo 0 64], r32 0x090 [fL 0 10 1000],
    r64s 0x100 64 16 [fL 2 50], r32s 0x108 64 16 [fL 0 32] ]

/-- The SHM registers (Tables 14.17, 14.18, 15.8 and 15.9). -/
def shmRows : List RegRow :=
  [ r32 0x040 [fWo 0 1, fWo 8 8, fWo 16 8], r32 0x044 [fRo 0 3, fRo 8 8, fRo 16 8], r32 0x048 [fRw 0 17],
    r32 0x04C [fRo 0 17], r64 0x050 [fRw 12 40], r64 0x058 [fRw 0 64], c64 0x060,
    r32 0x100 [fRo 0 5, fRo 8 8], r32 0x104 [fRo 0 5, fRo 8 4], r32 0x108 [fRo 0 32], r32 0x10C [fRo 0 32],
    r32s 0x120 8 4 [fRo 0 32], r32s 0x140 16 4 [fRo 0 32],
    r64s 0x200 64 8 [fRo 0 6, fRo 16 16, fRo 32 27] ]

/-- The PWR registers (Tables 17.9 and 17.10). PWR_TARGET_L resets to 450 + 100L, set by `resetVal`. -/
def pwrRows : List RegRow :=
  [ r32 0x040 [fRo 0 30 1], r32 0x044 [fRo 0 32], r32 0x048 [fL 0 24 10000, fL 31 1],
    r32 0x04C [fRo 0 8 240, fRo 8 5 14, fRo 16 16], r32 0x050 [fRo 0 16 0xFFFF, fRo 16 8], r32 0x054 [fL 0 32],
    r32 0x058 [fL 0 8 8], r32s 0x060 4 4 [fRo 0 25], r32s 0x080 16 4 [fL 0 12],
    r32s 0x100 64 4 [fRo 0 22, fRo 31 1] ]

/-- The HUP registers (Tables 17.9 and 17.10). -/
def hupRows : List RegRow :=
  [ r32 0x040 [fL 0 1 1, fL 1 1 1], r32 0x044 [fRo 0 18], r32 0x048 [fRo 0 3, fRo 16 10], r32 0x04C [fRo 0 32],
    r32 0x050 [fRo 0 3, fRo 16 12], c64 0x058 ]

/-- The GRZ registers (Tables 10.8 and 10.9). P_CFG of partition 0 resets with VALID set, by `resetVal`. -/
def grzRows : List RegRow :=
  [ r32 0x040 [fRo 0 3], r32 0x044 [fRo 0 9, fRo 16 16], c64 0x048, r64 0x050 [fL 21 31],
    r32 0x058 [fL 0 7, fL 8 7, fL 16 7, fL 24 7], c64 0x060,
    r32s 0x100 64 16 [fRo 0 2 2, fRo 2 2, fRo 8 7, fRo 16 16], r32s 0x104 64 16 [fRo 0 14, fRo 16 13],
    r32s 0x108 64 16 [fRo 0 14, fRo 16 13], r32s 0x10C 64 16 [fRo 0 16] ]

/-- The XLT registers (Tables 11.15 and 11.16). -/
def xltRows : List RegRow :=
  [ r64 0x040 [fL 12 40], r32 0x048 [fL 0 4 4, fL 31 1], r32 0x04C [fRo 0 32], r32 0x050 [fRw 0 32], r32 0x054 [fRo 0 6],
    c64 0x058, c64 0x060, c64 0x068, c64 0x070 ]

/-- The KVD registers (Tables 6.10 to 6.19). -/
def kvdRows : List RegRow :=
  [ r64 0x040 [fL 21 31], r32 0x048 [fL 0 25], r32 0x04C [fL 5 10 0x101], r64 0x050 [fL 12 40], r32 0x058 [fL 0 5 12],
    r32 0x05C [fRo 0 32], r32 0x060 [fRw 0 24], r32 0x064 [fRw 0 24], r32 0x068 [fWo 0 1], r32 0x06C [fRo 0 23],
    r32 0x070 [fRo 0 12, fRo 31 1], c64 0x078, c64 0x080 ]

/-- The MP registers (Tables 12.5 to 12.7); the instance-wide ones exist in the MP0 page only. -/
def mpRows (idx : Nat) : List RegRow :=
  (if idx = 0 then
    [ r32 0x040 [fL 0 5 8, fL 5 2 3, fL 8 1, fL 9 1], r32 0x048 [fL 0 5 24, fL 31 1 1], c64 0x070, c64 0x078 ] else [])
  ++ [ r32 0x044 [fRo 0 23], c64 0x050, c64 0x058, c64 0x060, c64 0x068 ]

/-- The LK registers (Tables 13.9 to 13.12); those at 0x100 and above exist in the LK0 page only. -/
def lkRows (idx : Nat) : List RegRow :=
  [ r32 0x040 [fL 0 1 1], r32 0x044 [fRo 0 3, fRo 8 15], r32 0x048 [fRo 0 30], c64 0x050, c64 0x058, c64 0x060, c64 0x068,
    c64 0x070 ]
  ++ (if idx = 0 then
    [ r32 0x100 [fL 0 8, fL 8 7 1, fL 16 6], r32 0x104 [fRo 0 5, fRo 8 19], r32 0x108 [fL 0 32 150000],
      r32 0x10C [fL 0 32 25000], r32 0x110 [fL 0 16 1000, fL 16 16 10000], c64 0x118, r64 0x120 [fC 0 64],
      r64 0x128 [fRw 0 26, fRw 32 6, fRw 40 2], r64 0x130 [fRw 0 64], r32 0x138 [fWo 0 1, fRo 1 1, fRo 8 8, fRw 16 16 100],
      r64 0x140 [fWo 0 64], r64 0x148 [fC 0 64], r32 0x150 [fWo 0 6],
      r64s 0x200 8 8 [fRo 0 64 0x0707070707070707] ] else [])

/-- The SI registers (Tables 7.15 to 7.18). -/
def siRows : List RegRow :=
  [ r32 0x040 [fL 0 1, fL 1 4], r32 0x044 [fL 0 12, fL 12 3 1], r32 0x048 [fL 0 16, fL 16 12, fL 28 4], r32 0x04C [fL 0 32],
    r64 0x050 [fL 0 56, fL 56 2], r32 0x058 [fL 0 16], r32 0x05C [fL 6 26], r64 0x060 [fL 5 47], r64 0x068 [fL 7 45],
    r64 0x070 [fL 3 49], c64 0x078, c64 0x080, r32 0x088 [fRo 0 2] ]

/-- The DV registers (Tables 15.8 and 15.9). -/
def dvRows : List RegRow :=
  [ r32 0x040 [fRo 0 3, fRo 8 8], r32 0x044 [fRo 0 32], r32 0x048 [fRo 0 18], r32 0x04C [fRw 0 32 2000], c64 0x050 ]

/-- The CL registers (R644, Table 19.8). -/
def clRows : List RegRow :=
  [ r32 0x040 [fRo 0 4, fRo 4 4, fRo 8 7 64, fRo 16 7], c64 0x048, c64 0x050, c64 0x058, c64 0x060 ]

/-- The MXE registers (R113, Tables 3.3 to 3.8). -/
def mxeRows : List RegRow :=
  [ r32 0x040 [fL 0 16 0x100], r32 0x044 [fL 0 16 0x800], r32 0x048 [fRo 0 14], r32 0x04C [fRo 0 15, fRo 16 7], c64 0x050,
    c64 0x058, c64 0x060, c64 0x068 ]

/-- The VXE registers (R275, Tables 7.11 to 7.13). -/
def vxeRows : List RegRow := [ r32 0x040 [fRo 0 4], r32 0x044 [fRo 0 16], c64 0x048, c64 0x050 ]

/-- The ATE registers (R193, Tables 5.7 to 5.11). -/
def ateRows : List RegRow :=
  [ r32 0x040 [fL 0 1 1, fL 1 4 4], r32 0x044 [fRo 0 13], r32 0x048 [fRo 0 15, fRo 16 14], c64 0x050, c64 0x058, c64 0x060,
    c64 0x068, c64 0x070 ]

/-- The WDU registers (R149, Tables 4.5 to 4.9). -/
def wduRows : List RegRow :=
  [ r32 0x040 [fL 0 1 1], r32 0x044 [fRo 0 9, fRo 16 11], r32 0x048 [fRo 0 32], r32 0x04C [fRo 0 32], c64 0x050, c64 0x058,
    c64 0x060, c64 0x068 ]

/-- The TSQ registers (R645, Table 19.9). -/
def tsqRows : List RegRow :=
  [ r32 0x040 [fRo 0 18], r32 0x044 [fRo 0 15], r32 0x048 [fRo 0 32], c64 0x050, c64 0x058, c64 0x060 ]

/-- The SHD registers (R563, Tables 16.10 and 16.11). -/
def shdRows : List RegRow := [ r32s 0x040 5 4 [fL 0 24 1000], r32 0x054 [fRo 0 7], c64 0x058, c64 0x060 ]

/-- The CTX registers (Tables 19.7, 9.10, 9.11, 10.10, 11.17, 14.18 and 16.11). -/
def ctxRows : List RegRow :=
  [ r32 0x040 [fRo 0 2], c64 0x048, r32 0x050 [fRo 0 7, fRo 8 3, fRo 16 7, fRo 24 5 10], r64 0x058 [fRo 0 24],
    r32 0x060 [fRo 0 4], r32 0x068 [fRo 0 8, fRo 16 16],
    r64s 0x100 8 0x40 [fX 12 40], r64s 0x108 8 0x40 [fX 12 40],
    r32s 0x110 8 0x40 [fX 0 4 4, fX 8 4 4, fX 16 6, fX 31 1], r32s 0x114 8 0x40 [fRo 0 16],
    r32 0x118 [fRw 0 32], r32s 0x158 7 0x40 [fRo 0 32], r32s 0x11C 8 0x40 [fRo 0 32], r32s 0x120 8 0x40 [fRo 0 32],
    r32 0x124 [fRw 0 32], r32s 0x164 7 0x40 [fRo 0 32], r32s 0x128 8 0x40 [fWo 0 2], r32s 0x12C 8 0x40 [fRw 0 24 1000000],
    r64s 0x400 16 0x20 [fX 21 27], r32s 0x408 16 0x20 [fX 0 27], r32s 0x40C 16 0x20 [fX 0 3],
    r64 0x600 [fX 12 40], r64 0x608 [fX 12 40], r32 0x610 [fX 0 2, fX 16 16], r32 0x614 [fRo 0 16] ]

/-- The DB registers (R351, Table 9.12), queue blocks 1 to 7. They are the CTX registers of the same queue by another
address (`dbAlias`). -/
def dbRows : List RegRow :=
  [ r32s 0x180 7 0x80 [fRw 0 32], r32s 0x184 7 0x80 [fRo 0 32], r32s 0x188 7 0x80 [fRw 0 32], r32s 0x18C 7 0x80 [fRo 0 32],
    r32s 0x190 7 0x80 [fRo 0 32] ]

/-- The block registers of a page. -/
def blockRows (p : Page) (idx : Nat) : List RegRow :=
  match p with
  | .glb => glbRows | .shm => shmRows | .pwr => pwrRows | .hup => hupRows | .grz => grzRows
  | .grzSlots => [r64s 0 1024 8 [fRo 0 64]]
  | .xlt => xltRows | .kvd => kvdRows | .mp => mpRows idx | .lk => lkRows idx | .si => siRows | .dv => dvRows
  | .cl => clRows | .mxe => mxeRows | .vxe => vxeRows | .ate => ateRows | .wdu => wduRows | .tsq => tsqRows
  | .shd => shdRows | .ctx => ctxRows | .db => dbRows

/-- The header a page has: the Grazing slot window has none (R629), and a DB page has PG_ID alone (R351). -/
def headerRows (p : Page) (idx : Nat) : List RegRow :=
  match p with
  | .grzSlots => []
  | .db => (hdrRows .db idx).take 1
  | .glb | .shm | .pwr | .hup | .grz | .xlt | .kvd | .mp | .lk | .si | .dv | .cl | .mxe | .vxe | .ate | .wdu | .tsq | .shd
  | .ctx => hdrRows p idx

/-- Whether a row holds the page offset `o`. -/
def RegRow.holds (r : RegRow) (o : Nat) : Bool :=
  decide (r.off ≤ o) && decide ((o - r.off) / r.stride < r.count)
    && decide ((o - r.off) % r.stride < if r.wide then 8 else 4)

/-- A register found at an offset: its own first offset in the aperture, its row, its page. -/
structure RegAt where
  off : Nat
  row : RegRow
  loc : Loc
  deriving DecidableEq, Repr

/-- The register at an offset of the aperture; `none` for a reserved offset (R598, R629). -/
def regAt (o : Nat) : Option RegAt :=
  match locate o with
  | none => none
  | some l =>
    let po := o - l.base
    match (if po < 0x40 ∧ l.page ≠ .grzSlots then headerRows l.page l.idx else blockRows l.page l.idx).find?
        (fun r => r.holds po) with
    | none => none
    | some r => some ⟨l.base + r.off + (po - r.off) / r.stride * r.stride, r, l⟩

/-- The value that the fields' reset values spell. -/
def fieldsReset (fs : List FieldRow) : Nat := fs.foldl (fun a f => a + f.rst * 2 ^ f.lo) 0

/-- The reset value of the register whose first offset is `o`: the fields' reset values, and the few that depend on a
number: P_CFG.VALID of partition 0, PWR_TARGET_L, and CTX_STATE, CTX_PART and CTX_KEY of context 0 (Tables 9.10, 10.9,
10.10, 14.18, 17.10). -/
def resetVal (o : Nat) : W64 :=
  if o = 0x4100 then 0xA
  else if 0x2080 ≤ o ∧ o < 0x20C0 then BitVec.ofNat 64 (450 + 100 * ((o - 0x2080) / 4))
  else if o = 0x400040 then 1
  else if o = 0x400050 then BitVec.ofNat 64 (0x40 + 7 * 0x100 + 10 * 0x1000000)
  else if o = 0x400068 then 0x41
  else match regAt o with
    | none => 0
    | some r => BitVec.ofNat 64 (fieldsReset r.row.fields)

/-- The CTX register that a DB register is (Table 9.12). -/
def dbAlias (o : Nat) : Nat :=
  let c := (o - 0x2000000) / 0x1000
  let po := o % 0x1000
  let q := (po - 0x100) / 0x80
  let b := 0x400000 + c * 0x1000 + 0x100 + q * 0x40
  match (po - 0x100) % 0x80 with
  | 0x00 => b + 0x18
  | 0x04 => b + 0x1C
  | 0x08 => b + 0x24
  | 0x0C => b + 0x20
  | _ => b + 0x14

end Sys2Proof.Machine
end

