-- ==== Sys2Proof/Machine/State.lean ====
section
/-! DEFINITION. The state of the block as plain data. A register field has one home, the register file `regs`; what the
spec gives the machine beside its registers stands in the records below, one per unit. -/

namespace Sys2Proof.Machine

/-- A field of a register: the register's first offset, the low bit, the width. -/
structure Fld where
  off : Nat
  lo : Nat
  w : Nat
  deriving DecidableEq, Repr

/-- An interrupt message formed for IRQ_MSG (R600): its vector (none for the PRESERVE message), its address, its data. -/
structure IrqMsg where
  vec : Option Nat
  addr : Nat
  data : Nat
  /-- The command (queue, slot) whose record and signal writes it follows (R600). -/
  after : Option (Nat × Nat)
  deriving DecidableEq, Repr

/-- Port signals that hold a value, and the outputs that Broxa has driven (Table 18.1). -/
structure Pins where
  /-- POR_N is high. -/
  porN : Bool
  /-- PWR_WARN is high. -/
  pwrWarn : Bool
  /-- BELLWETHER as sampled at POR_N release (R616). -/
  bellwether : Bool
  /-- LKn_PHY_READY, bit n. -/
  phyReady : Nat
  /-- The clocks now stopped (R610), by the clock group. -/
  stopped : List Clk
  /-- Crossings that resynchronise (R613). -/
  resync : List Clk
  /-- The TAP holds EXTEST (R627). -/
  extest : Bool
  /-- The TAP holds the instance in reset for a self-test (R626). -/
  selfTest : Bool
  /-- TRAY_PWRCYC_REQ (R617). -/
  trayReq : Bool
  /-- The last response of the host register port: RDATA and RSP_ERR (R598). -/
  rdata : Nat
  rerr : Bool
  /-- Messages formed and not yet sent on IRQ_MSG, oldest first (R600). -/
  irqQ : List IrqMsg
  /-- Messages sent on IRQ_MSG, newest first. -/
  irqSent : List IrqMsg
  /-- Words answered on TRUST_ASSIGN, newest first (R614). -/
  taRsp : List Nat
  /-- TRUST_ASSIGN messages held in the crossing, oldest first (R615, Table 18.9): code and payload. -/
  taHeld : List (Nat × Nat)
  deriving DecidableEq, Repr

/-- Where the cold boot or the instance reset stands (Tables 14.2, 16.6 and 18.7). -/
inductive BootPhase where
  | held | booting | loaded | ready | failed | resetting | tray
  deriving DecidableEq, Repr

/-- An entry of the event log (Table 15.6). -/
structure LogEntry where
  number : Nat
  epoch : Nat
  code : Nat
  a : Nat
  b : Nat
  c : Nat
  d : Nat
  deriving DecidableEq, Repr

/-- Boot and reset bookkeeping of the supervisors in P00. -/
structure Boot where
  phase : BootPhase
  /-- EPOCH counts at which instance resets began, newest first (R555). -/
  resets : List Nat
  /-- A POR_N or WRST_N effect deferred until a save seals or a resume ends (R586, R623). -/
  porDeferred : Bool
  wrstDeferred : Bool
  /-- EPOCH count at which the running instance reset began. -/
  rstStart : Nat
  /-- EPOCH count of the last Shepherd restart, if any (R554). -/
  shepRestart : Option Nat
  /-- The Shepherd is halted (R554). -/
  shepHalted : Bool
  /-- EPOCH counts of Drover crashes, newest first (R525). -/
  crashes : List Nat
  /-- Count of the Shepherd's sheepdog. -/
  shepDog : Nat
  /-- The boot under way is that of an instance reset (Table 16.6), not a cold boot. -/
  rst : Bool
  /-- Step 6 of Table 14.2 has run since POR_N (R496, R497). -/
  made : Bool
  /-- Responses to requests made before the last instance reset that are still to be discarded (R624), by port and ID. -/
  discard : List (Nat × Nat)
  /-- Log entries that wait for the end of a pause of the Shepherd (Table 15.7); their numbers come when they are written. -/
  waitLog : List LogEntry
  deriving DecidableEq, Repr

/-- A tile that a translation fault has stopped: its index, the kind and the stage of the fault (Table 11.9), its EVA. -/
structure TileFault where
  index : Nat
  kind : Nat
  stage : Nat
  eva : Nat
  deriving DecidableEq, Repr

/-- A command fetched and not yet recorded (08_commands_and_tiles.md). -/
structure Cmd where
  qn : Nat
  /-- Slot number p of the first slot. -/
  slot : Nat
  /-- The command's bytes as read, 128 or 256. -/
  bytes : List Byte
  /-- Slots in the command. -/
  len : Nat
  /-- The phase of Table 8.10 that the command is in; 0 before its start. -/
  phase : Nat
  /-- The status so far, and the tile that set it. -/
  status : Nat
  detail : Nat
  /-- A fetch check failed, or an error has set the status: no further tile. -/
  failed : Bool
  /-- The record carries OPCODE 0xFF (checks 1 and 2 of Table 8.3, R338). -/
  opFF : Bool
  /-- The record halts the queue whatever HALT_ON_ERROR holds (R311, R332). -/
  halts : Bool
  /-- Tiles of the command's table. -/
  tiles : Nat
  /-- The next tile index to admit. -/
  next : Nat
  /-- Tile indices that ended normally (R296). -/
  ended : List Nat
  /-- Tiles that ended normally, including skipped empty tiles. -/
  tilesDone : Nat
  /-- Some tile moved something (R301). -/
  moved : Bool
  /-- The phase-4 action of a command that runs no TDT has been taken. -/
  acted : Bool
  /-- The command is parked (10_grazing_and_preemption.md, Parking). -/
  parked : Bool
  /-- The save record's RESUME when parked. -/
  resume : Nat
  /-- The lowest tile that has stopped on a translation fault (R412). -/
  faulted : Option TileFault
  /-- Tile indices that a reset has stopped once (R550). -/
  stopped : List Nat
  /-- The command waits for the Shepherd (R318) or for a Drover's duty (R514). -/
  svc : Bool
  /-- EPOCH count at which the wait of `svc` began (R514). -/
  svcStart : Nat
  /-- The command has reached phase 3 of Table 8.10, so that no halt returns it (R311). -/
  reached : Bool
  /-- The command's tally has been accepted (R314, R316). -/
  tallied : Bool
  deriving DecidableEq, Repr

/-- An access that a tile or unit asks for: the context's segment and offset, or a direct HPA, and the right needed. -/
structure Access where
  /-- True for an access by HPA (R384). -/
  direct : Bool
  seg : Nat
  /-- Offset in the segment, or the HPA; the first byte of a 64 B line. -/
  off : Nat
  /-- 1 read, 2 write, 4 atomic. -/
  right : Nat
  deriving DecidableEq, Repr

/-- A 64 B line that has been delivered to a tile. -/
structure Staged where
  direct : Bool
  seg : Nat
  off : Nat
  hpa : Nat
  data : Line
  poison : Bool
  deriving DecidableEq, Repr

/-- A directory entry (Table 6.1). -/
structure DirEnt where
  addr : Nat
  owner : Nat
  ref : Nat
  st : Nat
  fmt : Nat
  kind : Nat
  dcode : Nat
  valid : Nat
  gen : Nat
  deriving DecidableEq, Repr

/-- What a tile has learnt of a usable block: its key in the tile, its ID, the directory entry then, whether another held a pin
on it, and whether this tile holds its pin: 0 not taken, 1 held, 2 dropped (R204, R216, R222). -/
structure BlockGot where
  key : Nat
  id : Nat
  ent : DirEnt
  pinned : Bool
  hold : Nat
  deriving DecidableEq, Repr

/-- A byte with its poison mark. -/
abbrev MB := Byte × Bool

/-- A run of bytes that a tile writes: the source code of the destination (3 for a block slot, by HPA), its segment or its
cluster, and the offset. -/
structure Out where
  src : Nat
  seg : Nat
  cl : Nat
  off : Nat
  bytes : List MB
  deriving DecidableEq, Repr

/-- Counts that a histogram tile adds: base address, and per bin the number. -/
structure HistAdd where
  src : Nat
  seg : Nat
  off : Nat
  add : Nat
  deriving DecidableEq, Repr

/-- What a directory or an append tile does to the directory at its end, in order (R199, R222, R226 to R228): the `i`-th block of
the reservation leaves the FIFO and its word is entered at an address; VALID is set; a reference is given back; a word is copied
to a child's table; a word is released; the VALID of a block that stays is cut; the record's HIGH is written. -/
inductive KvOp where
  | take (i kind fmt dcode valid seg off : Nat)
  | valid (id v : Nat)
  | release (id : Nat)
  | copied
  | fork (word kind fmt dcode seg off : Nat)
  | free (word kind fmt dcode seg off : Nat)
  | trim (word kind fmt dcode v : Nat)
  | high (v seg off : Nat)
  deriving DecidableEq, Repr

/-- What a tile does at its end. -/
structure TRes where
  outs : List Out
  kv : List KvOp
  hist : List HistAdd
  /-- The tile reports OK_EMPTY (R174). -/
  empty : Bool
  /-- Poison entered an engine's arithmetic (Table 12.3). -/
  poison : Bool
  /-- Event bits that the tile raises: page and bit. -/
  events : List (Nat × Nat)
  /-- Counters that the tile advances. -/
  counts : List (Fld × Nat)
  deriving DecidableEq, Repr

/-- A piece of an output within one line, and a count to add, at their places. -/
inductive Wr where
  | mem (hpa : Nat) (bs : List MB)
  | csb (phys : Nat) (bs : List MB)
  | addMem (hpa add : Nat)
  | addCsb (phys add : Nat)
  deriving DecidableEq, Repr

/-- The end of a tile, from the hand-over of its outputs to their ports until the last one is accepted (R294, R422): its result
without the outputs' bytes, the outputs' places, the directory steps with the places of their words, whether a write was refused,
whether the directory steps are done. -/
structure TileFin where
  res : TRes
  places : List Wr
  kv : List (KvOp × Nat)
  bad : Bool
  done : Bool
  deriving DecidableEq, Repr

/-- A tile on a core, or waiting on it for its domain (08_commands_and_tiles.md). -/
structure Tile where
  qn : Nat
  slot : Nat
  index : Nat
  /-- 0 MXE, 1 ATE, 2 VXE, 3 DMA, 4 codebook, 5 append, 6 directory (Table 19.9). -/
  kind : Nat
  ctx : Nat
  part : Nat
  /-- The 256 B entry of the TDT. -/
  entry : List Byte
  /-- The reservation (R292). -/
  reads : Nat
  cspKib : Nat
  csbKib : Nat
  kv : List Nat
  /-- Work beats (R288). -/
  beats : Nat
  /-- Lines delivered so far. -/
  staged : List Staged
  /-- The accesses asked for and not yet delivered, oldest first, each with whether its translation walk (true) or its transaction
  (false) is awaited. -/
  waits : List (Access × Bool)
  /-- Every input has been delivered. -/
  ready : Bool
  /-- KV blocks pinned, in the order taken (R216), and what the tile has learnt of its block-table entries. -/
  pins : List Nat
  blocks : List BlockGot
  /-- Poison has been consumed as operand data (Table 12.3). -/
  poison : Bool
  /-- The tile is being aborted (R547). -/
  aborting : Bool
  /-- SKIP_EN and the like as in force at the tile's start (Table 5.8). -/
  skipEn : Bool
  /-- The CBS half that a codebook tile writes. -/
  half : Nat
  /-- Seed of the free values that the tile uses. -/
  seed : Nat
  /-- The tile's end has begun. -/
  fin : Option TileFin
  deriving DecidableEq, Repr

/-- Contents and tag of a codebook half that the register WDU_CBS_H does not show (R128, R130). -/
structure CbsHalf where
  /-- Image address of the tag. -/
  image : Nat
  /-- Bytes of the half, zeros beyond them, and its 64 B lines that hold poison (R126). -/
  data : List Byte
  bad : List Nat
  /-- Stamp of the tile that used it last, for the choice of a half (R131). -/
  used : Nat
  /-- The tile (queue, slot, index) for which a codebook tile has loaded it, until that tile is admitted (R129). -/
  loaded : Option (Nat × Nat × Nat)
  deriving DecidableEq, Repr

/-- The MXE's row buffers (R88): the rows of B0 and of B1 that are HELD, bit k for row k; the stationary sets whose loads have
completed and the column beats that have entered, in the tile. -/
structure Arr where
  b0 : Nat
  b1 : Nat
  sets : Nat
  beats : Nat
  deriving DecidableEq, Repr

/-- A combined translation in the second level or in a micro-TLB (Table 11.6, R400). -/
structure Tlb where
  ctx : Nat
  part : Nat
  /-- First EVA and bytes covered. -/
  eva : Nat
  size : Nat
  hpa : Nat
  /-- Base of the IPA range, for IPA_RANGE invalidation (R406). -/
  ipa : Nat
  /-- Rights of the stage-1 and the stage-2 leaf, and their levels. -/
  r1 : Nat
  r2 : Nat
  l1 : Nat
  l2 : Nat
  deriving DecidableEq, Repr

/-- An entry of a walk cache (Table 11.6): a stage-1 entry that is no leaf, or the result of a stage-2 leaf. -/
structure WalkEnt where
  ctx : Nat
  /-- 0 stage 1, 1 stage 2. -/
  stage : Nat
  level : Nat
  /-- The first input address that it serves, and the bytes. -/
  input : Nat
  size : Nat
  /-- The next table's address, or the output for `input`; and the leaf's rights. -/
  out : Nat
  rights : Nat
  deriving DecidableEq, Repr

/-- A core beyond its registers. -/
structure Core where
  tile : Option Tile
  /-- The owner byte now in force, as in Table 10.3 (R361). -/
  own : Nat
  /-- A quiesce is pending, by who asked: host page, hold-up or preserve, calibration, firmware (bits 0 to 3). -/
  quiesceReq : Nat
  /-- The partition last served on lent time (R366). -/
  lastLent : Nat
  /-- The context served now, and the queue whose turn is next (R356). -/
  served : Option Nat
  turn : Nat
  h0 : CbsHalf
  h1 : CbsHalf
  /-- Sheepdog counts: MXE, VXE, ATE, WDU, TSQ (Table 16.1). -/
  dogs : List Nat
  /-- Engines now in engine reset (bit e), and the EPOCHs since it began (R546). -/
  engRst : Nat
  rstAge : Nat
  /-- EPOCH counts of the core's engine resets, newest first (R576). -/
  rstLog : List Nat
  /-- EPOCHs with no tile admitted (R565). -/
  idle : Nat
  /-- The domain switches on. -/
  powering : Bool
  /-- Retirement asked for and not yet in effect (R576). -/
  retirePend : Bool
  /-- Consecutive filler beats before ramp-down in this gap (R106); the beats of the ramp under way (R110). -/
  fillLeft : Nat
  ramp : Nat
  /-- Bytes of run-on weight reads held (R138), and, while that is not 0, their lines; the tile (queue, slot, index) that they
  serve. -/
  runOn : Nat
  ahead : List Staged
  runFor : Option (Nat × Nat × Nat)
  /-- Started commands that the core serves, by queue and slot (R369, R371). -/
  serving : List (Nat × Nat)
  /-- Engines whose reset takes place after a hold-up resume (Table 16.9). -/
  rstAfter : Nat
  /-- MXE activity level and what moves it: 0 stopped, 1 ramp up, 2 active or filler, 3 ramp down (R103 to R109). -/
  act : Nat
  arr : Arr
  /-- The filler generator, a 32-bit linear-feedback register (R105), as the number of the state that it has reached in its cycle. -/
  lfsr : Nat
  /-- Filler and quiet beats counted since the MXE tile on the core began (R102). -/
  fq : Nat
  /-- Engines that have made progress since the last EPOCH pulse, bit e (R101, R192, Table 16.1). -/
  prog : Nat
  /-- The micro-TLB (Table 11.6). -/
  utlb : List Tlb
  deriving DecidableEq, Repr

/-- A directory entry's copy in a directory cache, and the partition that filled it (R207, R377). -/
structure DirCopy where
  id : Nat
  part : Nat
  ent : DirEnt
  deriving DecidableEq, Repr

/-- A cluster beyond its registers. -/
structure Cluster where
  /-- A cluster reset runs (R551). -/
  resetting : Bool
  /-- The directory cache, newest first (R207). -/
  dirCache : List DirCopy
  /-- The walker's cache (Table 11.6). -/
  walkCache : List WalkEnt
  deriving DecidableEq, Repr

/-- A fault report waiting to be posted (Table 11.12). -/
structure Report where
  eva : Nat
  seg : Nat
  ipa : Nat
  ctx : Nat
  kind : Nat
  stage : Nat
  level : Nat
  hint : Bool
  access : Nat
  qn : Nat
  /-- The slot of the command, which no field of the report shows. -/
  slot : Nat
  epoch : Nat
  deriving DecidableEq, Repr

/-- The page of a fault already reported while its context stays SWITCHED_OUT (R409). -/
structure Reported where
  ctx : Nat
  page : Nat
  stage : Nat
  kind : Nat
  deriving DecidableEq, Repr

/-- An invalidation's drain (Table 11.10): its command, and the transactions still awaited by port and ID. -/
structure Drain where
  qn : Nat
  slot : Nat
  txns : List (Nat × Nat)
  deriving DecidableEq, Repr

/-- The translation unit beyond its registers. -/
structure Xlt where
  tlb : List Tlb
  reports : List Report
  reported : List Reported
  drains : List Drain
  /-- Contexts whose admission a SEG_SET or XLT_ROOT has stopped, with the command's queue and slot (R390). -/
  holds : List (Nat × Nat × Nat)
  deriving DecidableEq, Repr

/-- Whom a memory transaction serves. -/
inductive Client where
  | tile (core : Nat) (acc : Access)
  | command (qn slot : Nat)
  | record (qn slot : Nat)
  | signal (qn slot : Nat)
  /-- Inlet `n`, for the command that slot `slot` of its queue holds or will hold. -/
  | inlet (n slot : Nat)
  | runOn (core : Nat) (acc : Access)
  /-- A run-on read whose data are dropped when they come (R139). -/
  | runDrop (core : Nat)
  | nobody
  deriving DecidableEq, Repr

/-- Bytes that a port has sent to the fabric for a line: their first HPA, the bytes, whether they are marked poisoned. -/
structure Sent where
  hpa : Nat
  bytes : List Byte
  bad : Bool
  deriving DecidableEq, Repr

/-- A transaction outstanding on a memory port (R418, R441). -/
structure Txn where
  port : Nat
  id : Nat
  /-- 0 read, 1 write, 2 atomic add (Table 18.1). -/
  op : Nat
  hpa : Nat
  ctx : Nat
  inst : Bool
  slot : Nat
  client : Client
  /-- Addend of an atomic. -/
  addend : Nat
  /-- The line is held against every other access until the response (R430, R443). -/
  hold : Bool
  /-- Of a write: what it sent. Of a read: what was sent to its line before the port accepted it and is not yet answered, oldest
  first, and what the port has accepted for the line since (R420). -/
  before : List Sent
  after : List Sent
  deriving DecidableEq, Repr

/-- An access that waits for its port to accept it: for a tag, or for a line that is held (R418, R430, R443). -/
structure Req where
  /-- 0 read, 1 write, 2 far SIGNAL_ADD, 3 SIGNAL_ADD that the port performs, 4 HIST_ADD, 5 a write of the instance whose bytes memory
  already holds. -/
  op : Nat
  hpa : Nat
  ctx : Nat
  inst : Bool
  slot : Nat
  client : Client
  /-- The bytes of a write, and whether they are marked poisoned. -/
  bytes : List Byte
  bad : Bool
  addend : Nat
  /-- The class PRIORITY (R419). -/
  prio : Bool
  /-- The core whose tile's end makes the access. -/
  core : Option Nat
  /-- The invalidations, by queue and slot, whose drains wait for the access (Table 11.10). -/
  drains : List (Nat × Nat)
  /-- Of the Shepherd, which reaches memory through MP0 (R533). -/
  mp0 : Bool
  deriving DecidableEq, Repr

/-- A signal update of phase 7 that waits for its command's record to be visible (R25): queue, slot, SIG_ADDR, SIG_ADD. -/
structure Sig where
  qn : Nat
  slot : Nat
  addr : Nat
  add : Nat
  deriving DecidableEq, Repr

/-- The KV directory unit beyond its registers (06_kv_block_directory.md). -/
structure Kvd where
  /-- The free FIFO, oldest first. -/
  fifo : List Nat
  /-- The pin table: block ID and pins. -/
  pins : List (Nat × Nat)
  /-- Ring indices, unwrapped modulo 2^32. -/
  ringHead : Nat
  ringTail : Nat
  /-- Sequence locks held: the command's queue and slot, and the sequence-record address (R220). -/
  locks : List (Nat × Nat × Nat)
  /-- Contexts waiting for a reclaim scan, oldest first (R231). -/
  reclaims : List Nat
  deriving DecidableEq, Repr

/-- The Grazing Table and partitions beyond their registers. -/
structure Grz where
  /-- A pending update's or disable's queue number, which completes at the switch (R365). -/
  pend : Option (Nat × Bool)
  /-- EPOCHs counted in the current slot. -/
  count : Nat
  /-- Slots in each buffer. -/
  slots0 : Nat
  slots1 : Nat
  /-- Waiters for an excess share, oldest first: pool (0 reads, 1 KV, 2 to 5 CSB of cluster), queue, slot, tile (R375). -/
  waiters : List (Nat × Nat × Nat × Nat)
  deriving DecidableEq, Repr

/-- A context's open SLOWDOWN window (R379, R380): its beat counts, and the EPOCH count at which it opened. -/
structure Slow where
  active : Nat
  stalled : Nat
  since : Nat
  deriving DecidableEq, Repr

/-- The state of one queue that no register shows. -/
structure Queue where
  /-- The next slot to fetch, and records reserved for fetched commands (R336, R341). -/
  fetch : Nat
  reserved : Nat
  /-- A slot under SEQ test: the failed slot number, the EPOCH count of its first fetch (R337), and, when it is a command's second
  slot, the bytes of the first (Table 9.8). -/
  refetch : Option (Nat × Nat × List Byte)
  /-- The queue sheepdog's count and its progress mark (Table 16.1). -/
  dog : Nat
  progress : Bool
  /-- Parked commands' entries as last written into the save record (R369): SEQ, PHASE, slot, RESUME, TILES_DONE. -/
  save : List (Nat × Nat × Nat × Nat × Nat)
  /-- A record could not be written: HEAD passes no further command until a restart (R348). -/
  headStop : Bool
  deriving DecidableEq, Repr

/-- A context's teardown or reset in progress (Table 14.14, R547). -/
structure Closing where
  ctx : Nat
  /-- The steward queue whose TEARDOWN asked, or none for a context reset. -/
  cmd : Option (Nat × Nat)
  /-- 0 teardown; else cause + 1 of LAST_CTX_RESET. -/
  cause : Nat
  /-- The step of Table 14.14 reached. -/
  step : Nat
  /-- Carve-out range to scrub: base and length. -/
  carve : Option (Nat × Nat)
  deriving DecidableEq, Repr

/-- A stream inlet beyond its registers (07, Stream inlets). -/
structure Inlet where
  /-- A frame is open. -/
  inFrame : Bool
  /-- Bytes received in the frame, and bytes stored in its slot. -/
  got : Nat
  bytes : Nat
  units : Nat
  /-- SHORT, TRUNC, OVERRUN, TIMEOUT, POISON in bits 0 to 4 (Table 7.8). -/
  flags : Nat
  /-- EPOCH counts at the frame's start and at its last data. -/
  start : Nat
  last : Nat
  /-- The cached release counter (R269). -/
  release : Nat
  /-- Bytes of the present line that are not yet written, and the last byte received. -/
  part : List Byte
  prev : Byte
  deriving DecidableEq, Repr

/-- The fields of a flit's header that its origin sets (Table 13.2); LSEQ, ACK_SEQ and the credits are the hop's. -/
structure Hdr where
  dst : Nat
  cls : Nat
  src : Nat
  dl : Nat
  typ : Nat
  flock : Nat
  ctx : Nat
  /-- Key slot, or 0x7F for the link session key. -/
  key : Nat
  gen : Nat
  len : Nat
  step : Nat
  opId : Nat
  group : Nat
  deriving DecidableEq, Repr

/-- A sequenced flit that waits for a port: its header and payload, and the port and queue that it arrived on when it is
forwarded. -/
structure Waiting where
  hdr : Hdr
  pay : List Byte
  via : Option (Nat × Nat)
  deriving DecidableEq, Repr

/-- A flit in a replay buffer: how often it was resent, the key slot it is sealed under, its LSEQ and its bits. -/
structure Held where
  resent : Nat
  key : Nat
  lseq : Nat
  flit : Flit
  deriving DecidableEq, Repr

/-- A Coachway port beyond its registers (13_coachway_and_flock.md). -/
structure Link where
  /-- Next LSEQ to send and next LSEQ expected. -/
  txSeq : Nat
  rxSeq : Nat
  /-- Sequenced flits held for resend, oldest first (R455). -/
  held : List Held
  /-- Flits sent, newest first. -/
  sent : List Flit
  /-- Flits that wait to be sent, oldest first. -/
  waitQ : List Waiting
  /-- Credits held for the peer's six queues, and credits to return to it (R454). -/
  cred : List Nat
  owe : List Nat
  /-- Rejects in a row of the expected LSEQ (R457). -/
  rejects : Nat
  /-- EPOCH counts of the last flit that passed, of the last advance of ACK_SEQ, and of the start of training or keying. -/
  lastRx : Nat
  ackStart : Nat
  start : Nat
  /-- The link session key of the present training, and the count of flits sent under it (R450, R452). -/
  key : Option Nat
  count : Nat
  /-- The counts of flits sent under LINK slots, by slot (R452). -/
  slotCount : List (Nat × Nat)
  /-- The neighbour's serial number, from the identity exchange. -/
  peer : Nat
  deriving DecidableEq, Repr

/-- What a member has answered to DISCOVER: its serial, and for each port its state, its neighbour's serial and its
neighbour's port (Table 13.3). -/
structure Node where
  serial : Nat
  ports : List (Nat × Nat × Nat)
  deriving DecidableEq, Repr

/-- The Bellwether's plan for a member: its number, the source route to it, the ROUTE payload it is sent. -/
structure Plan where
  num : Nat
  route : List Nat
  body : List Byte
  deriving DecidableEq, Repr

/-- A flock group bound by FLOCK_BIND (R472): the ranks' members and contexts, this rank, the key slot, the next OP_ID and the
members whose COLL_READY for it has come early. -/
structure Group where
  idx : Nat
  ctx : Nat
  ranks : List (Nat × Nat)
  rank : Nat
  key : Nat
  counter : Nat
  early : List Nat
  deriving DecidableEq, Repr

/-- A collective in phase 4 (R474 to R480): its command, its group, its OP_ID, whether its successor is ready, the flits sent
and received, the payloads to forward, the EPOCH count of its last progress. -/
structure Coll where
  qn : Nat
  slot : Nat
  ctx : Nat
  part : Nat
  group : Nat
  opId : Nat
  ready : Bool
  sent : Nat
  got : Nat
  fwd : List (List Byte)
  last : Nat
  deriving DecidableEq, Repr

/-- A KEY_BIND LINK in progress at the Bellwether (R504, R505): its command, slot, generation, the members still to answer,
those that hold the slot, the EPOCH count at its start. -/
structure KeyJob where
  qn : Nat
  slot : Nat
  kslot : Nat
  gen : Nat
  todo : List Nat
  held : List Nat
  start : Nat
  deriving DecidableEq, Repr

/-- The flock's state beyond its registers. -/
structure Flock where
  /-- Answers to DISCOVER so far, the routes and serials asked and not yet answered, the serials that stayed silent. -/
  nodes : List Node
  asked : List (List Nat × Nat)
  silent : List Nat
  plans : List Plan
  /-- Members whose acknowledgement of ROUTE is awaited. -/
  acks : List Nat
  /-- EPOCH count of each member's last heartbeat, and the members marked LOST. -/
  hb : List (Nat × Nat)
  lost : List Nat
  /-- The member that FLK_REJOIN names, while its steps run. -/
  rejoin : Option Nat
  /-- A DISCOVER that is answered once every port is settled: the port it came on and its payload. -/
  due : Option (Nat × List Byte)
  groups : List Group
  colls : List Coll
  /-- A remote access pending: its start EPOCH and tag (R469). -/
  rra : Option (Nat × Nat)
  rraTag : Nat
  /-- EPOCH counts: last heartbeat sent, last HB_ACK, start of the wait for DISCOVER_REPLY. -/
  hbSent : Nat
  hbAck : Nat
  discStart : Nat
  /-- BELLWETHER_LOST was raised since the last HB_ACK. -/
  bwLost : Bool
  /-- The member has its number. -/
  joined : Bool
  /-- The flock starts READY_DEGRADED (R466). -/
  degraded : Bool
  /-- Width and height of the mesh or torus. -/
  w : Nat
  h : Nat
  job : Option KeyJob
  deriving DecidableEq, Repr

/-- An SPDM session (R492): its identity, the secret of its key exchange, and whether FINISH has completed it. -/
structure Spdm where
  id : Nat
  secret : Nat
  established : Bool
  deriving DecidableEq, Repr

/-- A firmware update in progress (Tables 15.3 and 15.4). -/
structure Update where
  qn : Nat
  slot : Nat
  shepherd : Bool
  svn : Nat
  digest : Nat
  step : Nat
  deriving DecidableEq, Repr

/-- A mailbox request in service (R532), and the answer to an SPDM request once the Shepherd has formed it. -/
structure MbReq where
  op : Nat
  tag : Nat
  len : Nat
  buf : Nat
  arg : Nat
  answer : Option (List Byte)
  deriving DecidableEq, Repr

/-- The Shepherd beyond its registers. -/
structure Shep where
  /-- The wrapping key (R499), and the digest of a permit (R490). -/
  wk : Nat
  permit : Option Nat
  /-- LOCK_DIGEST of R490. -/
  lockDigest : Nat
  /-- Measurement values by index (Table 14.7). -/
  meas : List (Nat × Nat)
  sessions : List Spdm
  nextSession : Nat
  mb : Option MbReq
  update : Option Update
  /-- Anti-rollback counters: Shepherd, Drover (R488). -/
  svnShep : Nat
  svnDrover : Nat
  /-- The Drover images held in slots A and B: SVN and digest. -/
  slotA : Option (Nat × Nat)
  slotB : Option (Nat × Nat)
  /-- A STOP in progress (R650). -/
  stopping : Bool
  deriving DecidableEq, Repr

/-- A memory-protection region of a Drover (R515): its base, the size as a power of two, its R, W and X. -/
structure Region where
  base : Nat
  log2 : Nat
  r : Bool
  w : Bool
  x : Bool
  deriving DecidableEq, Repr

/-- A Drover beyond its page. -/
structure Drover where
  /-- The 16 protection regions, 0 to 3 of the kernel, none while no image is loaded; the user-mode component entered last (R515). -/
  regions : List Region
  component : Option Nat
  dog : Nat
  /-- The running image's slot, false A. -/
  slotB : Bool
  /-- EPOCH at which the restart began. -/
  restart : Nat
  deriving DecidableEq, Repr

/-- A hold-up or PRESERVE save (Table 17.6). -/
structure Save where
  gen : Nat
  sealed : Bool
  superseded : Bool
  preserve : Bool
  omitted : Nat
  /-- The saved registers, key material, commands and context numbers. -/
  regs : List (Nat × W64)
  keys : List (Nat × Nat)
  cmds : List Cmd
  ctxs : List Nat
  grz : Grz
  kvd : Kvd
  closing : List Closing
  token : Nat
  checked : List (Nat × Nat × List Byte)
  /-- Unposted reports, and the pages already reported (Table 11.14, R409). -/
  reports : List Report
  reported : List Reported
  deriving DecidableEq, Repr

/-- The hold-up save area and what else the HSA keeps (R576, R580, R497, R536). -/
structure Hsa where
  areaA : Option Save
  areaB : Option Save
  /-- The save in the capture buffer. -/
  capture : Option Save
  retired : Nat
  log : List LogEntry
  logNext : Nat
  bootCount : Nat
  deriving DecidableEq, Repr

/-- The performance levels of a cluster that the TDP controller allows and that POWER_STAGE requested (R570, R572). -/
structure Lvl where
  allowed : Nat
  requested : Nat
  deriving DecidableEq, Repr

/-- Power bookkeeping in Drover 3 and the supervisors. -/
structure Pwr where
  /-- The levels of the clusters; P00 holds them, so an instance reset keeps them. -/
  levels : List (Nat × Lvl)
  /-- The cluster calibrating and those still to do. -/
  calQ : List Nat
  /-- EPOCH count at which the TDP window began. -/
  tdpStart : Nat
  /-- Capacitor check: 0 none, 1 charging, 2 droop; its start. -/
  cap : Nat
  capStart : Nat
  /-- Charge time measured, EPOCHs. -/
  capTime : Nat
  deriving DecidableEq, Repr

/-- Why the machine stops with a fault. -/
inductive Fault where
  /-- No meaning raises it: every operand is bounded by its type (`Instr.wf`). It is here because the interface names a type of faults. Safe. -/
  | illFormed
  deriving DecidableEq, Repr

/-- Why a command has no meaning. -/
inductive Refusal where
  /-- Raised by an arm of `exec` for a command that is not modelled: no arm is. Safe. -/
  | notModelled (mnemonic : String)
  deriving DecidableEq, Repr

/-- The machine. -/
structure State where
  /-- Commands that wait, first in, first out. -/
  pending : List Instr
  /-- The register file: first offset of each register that differs from its reset value, and its value. -/
  regs : List (Nat × W64)
  /-- Holding latches of R10 and R11, by path and register. -/
  wlatch : List (Nat × Nat)
  rlatch : List (Nat × Nat)
  /-- The shared memory by HPA, and the 64 B lines that it holds poisoned. -/
  mem : List Host.Cell
  poison : List Nat
  /-- CSB bytes by cluster times 16 MiB plus the physical offset, and its poisoned bytes' 64 B lines. -/
  csb : List Host.Cell
  csbPoison : List Nat
  /-- The CSB granule map: cluster times 64 plus granule, to context times 64 plus window granule, plus 1. -/
  csbMap : List (Nat × Nat)
  pins : Pins
  boot : Boot
  hsa : Hsa
  /-- Key material by slot (the key store; SHM_SLOT shows the rest). -/
  keys : List (Nat × Nat)
  /-- The command-key store (R313), by context. -/
  cmdKeys : List (Nat × Nat)
  queues : List (Nat × Queue)
  cmds : List Cmd
  cores : List (Nat × Core)
  clusters : List (Nat × Cluster)
  xlt : Xlt
  txns : List Txn
  /-- Accesses that wait for their ports, in the order in which they were made. -/
  waiting : List Req
  /-- Signal updates that wait for their records' write responses. -/
  sigs : List Sig
  /-- Critical commands that passed the tag and tally checks and were returned or dropped before they ran: queue, slot, bytes (R316). -/
  checked : List (Nat × Nat × List Byte)
  kvd : Kvd
  grz : Grz
  slow : List (Nat × Slow)
  closing : List Closing
  inlets : List (Nat × Inlet)
  links : List (Nat × Link)
  flock : Flock
  shep : Shep
  drovers : List (Nat × Drover)
  pwr : Pwr
  /-- EPOCH counts at which timed conditions began, plus 1, by timer number. -/
  timers : List (Nat × Nat)
  /-- Emulated accesses that wait for Drover service: path code, offset, data, write. -/
  emu : List (Nat × Nat × Nat × Bool)
  /-- The model's own: the number of the next free value (no register of the machine). -/
  free : Nat
  deriving DecidableEq, Repr

def Core.init : Core :=
  { tile := none, own := 0x40, quiesceReq := 0, lastLent := 63, served := none, turn := 0, h0 := ⟨0, [], [], 0, none⟩, h1 := ⟨0, [], [], 0, none⟩,
    dogs := [0, 0, 0, 0, 0], engRst := 0, rstAge := 0, rstLog := [], idle := 0, powering := false,
    retirePend := false, fillLeft := 0, ramp := 0, runOn := 0, ahead := [], runFor := none, serving := [], rstAfter := 0, act := 0,
    arr := ⟨0, 0, 0, 0⟩, lfsr := 1, fq := 0, prog := 0, utlb := [] }
def Cluster.init : Cluster := { resetting := false, dirCache := [], walkCache := [] }
def Queue.init : Queue :=
  { fetch := 0, reserved := 0, refetch := none, dog := 0, progress := false, save := [], headStop := false }
def Inlet.init : Inlet :=
  { inFrame := false, got := 0, bytes := 0, units := 0, flags := 0, start := 0, last := 0, release := 0, part := [], prev := 0 }
def Link.init : Link :=
  { txSeq := 0, rxSeq := 0, held := [], sent := [], waitQ := [], cred := [0, 0, 0, 0, 0, 0], owe := [0, 0, 0, 0, 0, 0],
    rejects := 0, lastRx := 0, ackStart := 0, start := 0, key := none, count := 0, slotCount := [], peer := 0 }
def Drover.init : Drover := { regions := [], component := none, dog := 0, slotB := false, restart := 0 }
def Slow.init : Slow := ⟨0, 0, 0⟩
def Xlt.init : Xlt := ⟨[], [], [], [], []⟩
def Kvd.init : Kvd :=
  { fifo := [], pins := [], ringHead := 0, ringTail := 0, locks := [], reclaims := [] }
def Grz.init : Grz := { pend := none, count := 0, slots0 := 0, slots1 := 0, waiters := [] }
def Flock.init : Flock :=
  { nodes := [], asked := [], silent := [], plans := [], acks := [], hb := [], lost := [], rejoin := none, due := none,
    groups := [], colls := [], rra := none, rraTag := 0, hbSent := 0, hbAck := 0, discStart := 0,
    bwLost := false, joined := false, degraded := false, w := 1, h := 1, job := none }
def Shep.init : Shep :=
  { wk := 0, permit := none, lockDigest := 0, meas := [], sessions := [], nextSession := 0,
    mb := none, update := none, svnShep := 0, svnDrover := 0, slotA := none, slotB := none, stopping := false }
def Lvl.init : Lvl := { allowed := 15, requested := 15 }
def Pwr.init : Pwr :=
  { levels := [], calQ := [], tdpStart := 0, cap := 0, capStart := 0, capTime := 0 }
def Boot.init : Boot :=
  { phase := .held, resets := [], porDeferred := false, wrstDeferred := false, rstStart := 0, shepRestart := none,
    shepHalted := false, crashes := [], shepDog := 0, rst := false, made := false, discard := [], waitLog := [] }
def Hsa.init : Hsa :=
  { areaA := none, areaB := none, capture := none, retired := 0, log := [], logNext := 0, bootCount := 0 }
def Pins.init : Pins :=
  { porN := false, pwrWarn := false, bellwether := false, phyReady := 0, stopped := [], resync := [], extest := false,
    selfTest := false, trayReq := false, rdata := 0, rerr := false, irqQ := [], irqSent := [], taRsp := [], taHeld := [] }

/-- The machine while POR_N is held low: every register at its reset value, every queue and table empty (R621). -/
def State.reset : State :=
  { pending := [], regs := [], wlatch := [], rlatch := [], mem := [], poison := [], csb := [], csbPoison := [],
    csbMap := [], pins := Pins.init, boot := Boot.init, hsa := Hsa.init, keys := [], cmdKeys := [], queues := [],
    cmds := [], cores := [], clusters := [], xlt := Xlt.init, txns := [], waiting := [], sigs := [],
    checked := [], kvd := Kvd.init, grz := Grz.init, slow := [],
    closing := [], inlets := [], links := [], flock := Flock.init, shep := Shep.init, drovers := [], pwr := Pwr.init,
    timers := [], emu := [], free := 0 }

end Sys2Proof.Machine
end

