-- ==== Sys2Proof/Machine/Ops.lean ====
section
/-! DEFINITION. The named operations over registers, events, messages, timers, units and memory that every meaning
shares. -/

namespace Sys2Proof.Machine

/-! Registers. -/

/-- The value of the register whose first offset is `o`. -/
def State.reg (s : State) (o : Nat) : W64 := (tblFind s.regs o).getD (resetVal o)

/-- Set a register; a register at its reset value is not listed. -/
def State.setReg (s : State) (o : Nat) (v : W64) : State :=
  { s with regs := tblPut (resetVal o) s.regs o v }

/-- Read a field. -/
def State.rf (s : State) (f : Fld) : Nat := bits (s.reg f.off).toNat f.lo f.w

/-- Write a field. -/
def State.wf (s : State) (f : Fld) (v : Nat) : State :=
  s.setReg f.off (BitVec.ofNat 64 (setBits (s.reg f.off).toNat f.lo f.w v))

/-- Add to a counting field; it wraps (R649). -/
def State.inc (s : State) (f : Fld) (n : Nat) : State := s.wf f (s.rf f + n)

/-- Add to a field that its table describes as saturating (R649). -/
def State.incSat (s : State) (f : Fld) (n : Nat) : State := s.wf f (min (2 ^ f.w - 1) (s.rf f + n))

/-- Write a one-bit field. -/
def State.wb (s : State) (f : Fld) (v : Bool) : State := s.wf f (b2n v)

/-- Read a one-bit field. -/
def State.rb (s : State) (f : Fld) : Bool := s.rf f == 1

/-- Page bases (Table 19.1). -/
def pgShm : Nat := 0x1000
def pgPwr : Nat := 0x2000
def pgHup : Nat := 0x3000
def pgGrz : Nat := 0x4000
def pgXlt : Nat := 0x10000
def pgKvd : Nat := 0x11000
def pgMp (n : Nat) : Nat := 0x12000 + n * 0x1000
def pgLk (n : Nat) : Nat := 0x20000 + n * 0x1000
def pgSi (n : Nat) : Nat := 0x30000 + n * 0x400
def pgDv (n : Nat) : Nat := 0x40000 + n * 0x1000
def pgCl (c : Nat) : Nat := 0x80000 + c * 0x10000
def pgMxe (n : Nat) : Nat := 0x100000 + n * 0x10000
def pgVxe (n : Nat) : Nat := 0x101000 + n * 0x10000
def pgAte (n : Nat) : Nat := 0x102000 + n * 0x10000
def pgWdu (n : Nat) : Nat := 0x103000 + n * 0x10000
def pgTsq (n : Nat) : Nat := 0x104000 + n * 0x10000
def pgShd (n : Nat) : Nat := 0x105000 + n * 0x10000
def pgCtx (c : Nat) : Nat := 0x400000 + c * 0x1000

/-- The queue block of queue number `q` in its CTX page (Table 9.1). -/
def qBlk (q : Nat) : Nat := pgCtx (q / 8) + 0x100 + q % 8 * 0x40

namespace F
/-- Header fields of a page. -/
def pgEn (b : Nat) : Fld := ⟨b + 0x0C, 0, 1⟩
def pgQuiesceReq (b : Nat) : Fld := ⟨b + 0x0C, 1, 1⟩
def pgResetReq (b : Nat) : Fld := ⟨b + 0x0C, 2, 1⟩
def pgQuiesced (b : Nat) : Fld := ⟨b + 0x10, 3, 1⟩
def pgError (b : Nat) : Fld := ⟨b + 0x10, 4, 1⟩
def pgEmuTimeout (b : Nat) : Fld := ⟨b + 0x10, 5, 1⟩
def evRaw (b : Nat) : Fld := ⟨b + 0x18, 0, 32⟩
def evEn (b : Nat) : Fld := ⟨b + 0x1C, 0, 32⟩
def evVector (b : Nat) : Fld := ⟨b + 0x24, 0, 6⟩
def evMsgEn (b : Nat) : Fld := ⟨b + 0x24, 7, 1⟩
def errCode (b : Nat) : Fld := ⟨b + 0x28, 0, 8⟩
def errInfo (b : Nat) : Fld := ⟨b + 0x2C, 0, 32⟩
def errAddr (b : Nat) : Fld := ⟨b + 0x30, 0, 64⟩
def lockBoot (b : Nat) : Fld := ⟨b + 0x38, 0, 1⟩
/-- GLB. -/
def epochNs : Fld := ⟨0x40, 0, 14⟩
def epochCount : Fld := ⟨0x48, 0, 64⟩
def hostLossEpochs : Fld := ⟨0x54, 0, 32⟩
def detachPolicy : Fld := ⟨0x58, 0, 1⟩
def hostState : Fld := ⟨0x5C, 0, 2⟩
def hostRestored : Fld := ⟨0x5C, 2, 1⟩
def badTokens : Fld := ⟨0x5C, 8, 8⟩
def attachToken : Fld := ⟨0x60, 0, 64⟩
def lastCtx : Fld := ⟨0x74, 0, 12⟩
def lastCause : Fld := ⟨0x74, 12, 2⟩
def preserveAddr : Fld := ⟨0x78, 0, 52⟩
def preserveData : Fld := ⟨0x80, 0, 32⟩
def resetCause : Fld := ⟨0x84, 0, 4⟩
def resetCount : Fld := ⟨0x84, 8, 16⟩
def irqHeld : Fld := ⟨0x88, 0, 64⟩
def hrpMhz : Fld := ⟨0x90, 0, 10⟩
def vecAddr (v : Nat) : Fld := ⟨0x100 + 16 * v, 0, 52⟩
def vecData (v : Nat) : Fld := ⟨0x108 + 16 * v, 0, 32⟩
/-- SHM. -/
def mbBusy : Fld := ⟨0x1044, 0, 1⟩
def mbDone : Fld := ⟨0x1044, 1, 1⟩
def mbPaused : Fld := ⟨0x1044, 2, 1⟩
def mbResult : Fld := ⟨0x1044, 8, 8⟩
def mbTag : Fld := ⟨0x1044, 16, 8⟩
def mbLen : Fld := ⟨0x1048, 0, 17⟩
def mbRlen : Fld := ⟨0x104C, 0, 17⟩
def mbBuf : Fld := ⟨0x1050, 0, 52⟩
def mbArg : Fld := ⟨0x1058, 0, 64⟩
def logNext : Fld := ⟨0x1060, 0, 64⟩
def trust : Fld := ⟨0x1100, 0, 2⟩
def wkSrc : Fld := ⟨0x1100, 2, 2⟩
def permit : Fld := ⟨0x1100, 4, 1⟩
def trustCause : Fld := ⟨0x1100, 8, 8⟩
def bootStatus : Fld := ⟨0x1104, 0, 4⟩
def bootAlt : Fld := ⟨0x1104, 4, 1⟩
def sessions : Fld := ⟨0x1104, 8, 4⟩
def bootCount : Fld := ⟨0x1108, 0, 32⟩
def wkId : Fld := ⟨0x110C, 0, 32⟩
def wkWord (i : Nat) : Fld := ⟨0x1120 + 4 * i, 0, 32⟩
def key0Word (i : Nat) : Fld := ⟨0x1140 + 4 * i, 0, 32⟩
def slState (n : Nat) : Fld := ⟨0x1200 + 8 * n, 0, 2⟩
def slKind (n : Nat) : Fld := ⟨0x1200 + 8 * n, 2, 2⟩
def slQuar (n : Nat) : Fld := ⟨0x1200 + 8 * n, 4, 1⟩
def slFixed (n : Nat) : Fld := ⟨0x1200 + 8 * n, 5, 1⟩
def slGen (n : Nat) : Fld := ⟨0x1200 + 8 * n, 16, 16⟩
def slInflight (n : Nat) : Fld := ⟨0x1200 + 8 * n, 32, 14⟩
def slBound (n : Nat) : Fld := ⟨0x1200 + 8 * n, 46, 13⟩
/-- PWR and HUP. -/
def domains : Fld := ⟨0x2040, 0, 30⟩
def domain (d : Nat) : Fld := ⟨0x2040, d, 1⟩
def retired (n : Nat) : Fld := ⟨0x2044, n, 1⟩
def retiredAll : Fld := ⟨0x2044, 0, 16⟩
def gated (n : Nat) : Fld := ⟨0x2044, 16 + n, 1⟩
def gateEpochs : Fld := ⟨0x2048, 0, 24⟩
def gateEn : Fld := ⟨0x2048, 31, 1⟩
def tdpCap : Fld := ⟨0x204C, 0, 8⟩
def tdpWin : Fld := ⟨0x204C, 8, 5⟩
def tdpAvg : Fld := ⟨0x204C, 16, 16⟩
def level (c : Nat) : Fld := ⟨0x2050, 4 * c, 4⟩
def calBusy (c : Nat) : Fld := ⟨0x2050, 16 + c, 1⟩
def thermal (c : Nat) : Fld := ⟨0x2050, 20 + c, 1⟩
def calPeriod : Fld := ⟨0x2054, 0, 32⟩
def engLimit : Fld := ⟨0x2058, 0, 8⟩
def monBeats (c : Nat) : Fld := ⟨0x2060 + 4 * c, 0, 16⟩
def monTj (c : Nat) : Fld := ⟨0x2060 + 4 * c, 16, 9⟩
def target (l : Nat) : Fld := ⟨0x2080 + 4 * l, 0, 12⟩
def entTarget (c l : Nat) : Fld := ⟨0x2100 + 64 * c + 4 * l, 0, 12⟩
def entVolt (c l : Nat) : Fld := ⟨0x2100 + 64 * c + 4 * l, 12, 10⟩
def entValid (c l : Nat) : Fld := ⟨0x2100 + 64 * c + 4 * l, 31, 1⟩
def holdEn : Fld := ⟨0x3040, 0, 1⟩
def restoreEn : Fld := ⟨0x3040, 1, 1⟩
def holdState : Fld := ⟨0x3044, 0, 3⟩
def armed : Fld := ⟨0x3044, 3, 1⟩
def csbRetained (c : Nat) : Fld := ⟨0x3044, 4 + c, 1⟩
def csbRetainedAll : Fld := ⟨0x3044, 4, 4⟩
def vhold : Fld := ⟨0x3044, 8, 10⟩
def capStatus : Fld := ⟨0x3048, 0, 3⟩
def capUf : Fld := ⟨0x3048, 16, 10⟩
def saveGen : Fld := ⟨0x304C, 0, 32⟩
def saveArea : Fld := ⟨0x3050, 0, 1⟩
def saveSuper : Fld := ⟨0x3050, 1, 1⟩
def saveRestored : Fld := ⟨0x3050, 2, 1⟩
def saveOmitted : Fld := ⟨0x3050, 16, 12⟩
def saves : Fld := ⟨0x3058, 0, 64⟩
/-- GRZ. -/
def grzEn : Fld := ⟨0x4040, 0, 1⟩
def grzActive : Fld := ⟨0x4040, 1, 1⟩
def grzPending : Fld := ⟨0x4040, 2, 1⟩
def grzSlot : Fld := ⟨0x4044, 0, 8⟩
def grz256 : Fld := ⟨0x4044, 8, 1⟩
def grzLeft : Fld := ⟨0x4044, 16, 16⟩
def grzCycles : Fld := ⟨0x4048, 0, 64⟩
def grzSaveBase : Fld := ⟨0x4050, 0, 52⟩
def csbInlet (c : Nat) : Fld := ⟨0x4058, 8 * c, 7⟩
def grzParks : Fld := ⟨0x4060, 0, 64⟩
def pClass (p : Nat) : Fld := ⟨0x4100 + 16 * p, 0, 2⟩
def pBorrow (p : Nat) : Fld := ⟨0x4100 + 16 * p, 2, 1⟩
def pValid (p : Nat) : Fld := ⟨0x4100 + 16 * p, 3, 1⟩
def pMinCsb (p : Nat) : Fld := ⟨0x4100 + 16 * p, 8, 7⟩
def pMinXlt (p : Nat) : Fld := ⟨0x4100 + 16 * p, 16, 8⟩
def pMinDir (p : Nat) : Fld := ⟨0x4100 + 16 * p, 24, 8⟩
def pMinReads (p : Nat) : Fld := ⟨0x4104 + 16 * p, 0, 14⟩
def pMinKv (p : Nat) : Fld := ⟨0x4104 + 16 * p, 16, 13⟩
def pReads (p : Nat) : Fld := ⟨0x4108 + 16 * p, 0, 14⟩
def pKv (p : Nat) : Fld := ⟨0x4108 + 16 * p, 16, 13⟩
def pWait (p : Nat) : Fld := ⟨0x410C + 16 * p, 0, 16⟩
/-- Word `i` (64 bits) of slot `sl` of buffer `b`. -/
def grzWord (b sl i : Nat) : Fld := ⟨0x8000 + b * 0x2000 + 32 * sl + 8 * i, 0, 64⟩
/-- XLT. -/
def fltBase : Fld := ⟨0x10040, 0, 52⟩
def fltLog2 : Fld := ⟨0x10048, 0, 4⟩
def fltEn : Fld := ⟨0x10048, 31, 1⟩
def fltTail : Fld := ⟨0x1004C, 0, 32⟩
def fltHead : Fld := ⟨0x10050, 0, 32⟩
def xltWalks : Fld := ⟨0x10054, 0, 4⟩
def invBusy : Fld := ⟨0x10054, 4, 1⟩
def fltFull : Fld := ⟨0x10054, 5, 1⟩
def l2Hits : Fld := ⟨0x10058, 0, 64⟩
def l2Misses : Fld := ⟨0x10060, 0, 64⟩
def walkReads : Fld := ⟨0x10068, 0, 64⟩
def xltReports : Fld := ⟨0x10070, 0, 64⟩
/-- KVD. -/
def dirBase : Fld := ⟨0x11040, 0, 52⟩
def dirCount : Fld := ⟨0x11048, 0, 25⟩
def slotBytes : Fld := ⟨0x1104C, 0, 15⟩
def ringBase : Fld := ⟨0x11050, 0, 52⟩
def ringLog2 : Fld := ⟨0x11058, 0, 5⟩
def ringHead : Fld := ⟨0x1105C, 0, 16⟩
def ringTail : Fld := ⟨0x1105C, 16, 16⟩
def provFirst : Fld := ⟨0x11060, 0, 24⟩
def provCount : Fld := ⟨0x11064, 0, 24⟩
def kvFifo : Fld := ⟨0x1106C, 0, 13⟩
def kvPins : Fld := ⟨0x1106C, 13, 10⟩
def reclaimCtx : Fld := ⟨0x11070, 0, 12⟩
def reclaimBusy : Fld := ⟨0x11070, 31, 1⟩
def kvCopies : Fld := ⟨0x11078, 0, 64⟩
def kvBadRef : Fld := ⟨0x11080, 0, 64⟩
/-- MP. -/
def granLog2 : Fld := ⟨0x12040, 0, 5⟩
def portsLog2 : Fld := ⟨0x12040, 5, 2⟩
def poisonStore : Fld := ⟨0x12040, 8, 1⟩
def farAtomic : Fld := ⟨0x12040, 9, 1⟩
def mpReads (n : Nat) : Fld := ⟨pgMp n + 0x44, 0, 11⟩
def mpWrites (n : Nat) : Fld := ⟨pgMp n + 0x44, 11, 10⟩
def mpDraining (n : Nat) : Fld := ⟨pgMp n + 0x44, 21, 1⟩
def mpEnabled (n : Nat) : Fld := ⟨pgMp n + 0x44, 22, 1⟩
def scrubPeriod : Fld := ⟨0x12048, 0, 5⟩
def scrubEn : Fld := ⟨0x12048, 31, 1⟩
def mpReadBytes (n : Nat) : Fld := ⟨pgMp n + 0x50, 0, 64⟩
def mpWriteBytes (n : Nat) : Fld := ⟨pgMp n + 0x58, 0, 64⟩
def mpAtomics (n : Nat) : Fld := ⟨pgMp n + 0x60, 0, 64⟩
def mpFabErr (n : Nat) : Fld := ⟨pgMp n + 0x68, 0, 64⟩
def sramCe : Fld := ⟨0x12070, 0, 64⟩
def sramUe : Fld := ⟨0x12078, 0, 64⟩
/-- LK. -/
def lkEn (n : Nat) : Fld := ⟨pgLk n + 0x40, 0, 1⟩
def lkState (n : Nat) : Fld := ⟨pgLk n + 0x44, 0, 3⟩
def lkPeer (n : Nat) : Fld := ⟨pgLk n + 0x44, 8, 6⟩
def lkPeerPort (n : Nat) : Fld := ⟨pgLk n + 0x44, 14, 2⟩
def lkHeld (n : Nat) : Fld := ⟨pgLk n + 0x44, 16, 7⟩
def lkCredit (n q : Nat) : Fld := ⟨pgLk n + 0x48, 5 * q, 5⟩
def lkTx (n : Nat) : Fld := ⟨pgLk n + 0x50, 0, 64⟩
def lkRx (n : Nat) : Fld := ⟨pgLk n + 0x58, 0, 64⟩
def lkRetries (n : Nat) : Fld := ⟨pgLk n + 0x60, 0, 64⟩
def lkStale (n : Nat) : Fld := ⟨pgLk n + 0x68, 0, 64⟩
def lkDrops (n : Nat) : Fld := ⟨pgLk n + 0x70, 0, 64⟩
def flockId : Fld := ⟨0x20100, 0, 8⟩
def expect : Fld := ⟨0x20100, 8, 7⟩
def fwdVector : Fld := ⟨0x20100, 16, 6⟩
def flkState : Fld := ⟨0x20104, 0, 3⟩
def flkBw : Fld := ⟨0x20104, 3, 1⟩
def flkHoles : Fld := ⟨0x20104, 4, 1⟩
def flkMember : Fld := ⟨0x20104, 8, 6⟩
def flkCount : Fld := ⟨0x20104, 14, 7⟩
def flkX : Fld := ⟨0x20104, 21, 3⟩
def flkY : Fld := ⟨0x20104, 24, 3⟩
def flkSilent : Fld := ⟨0x20108, 0, 32⟩
def flkTrain : Fld := ⟨0x2010C, 0, 32⟩
def hbPeriod : Fld := ⟨0x20110, 0, 16⟩
def hbLoss : Fld := ⟨0x20110, 16, 16⟩
def flkMembers : Fld := ⟨0x20118, 0, 64⟩
def flkLost : Fld := ⟨0x20120, 0, 64⟩
def rraOffset : Fld := ⟨0x20128, 0, 26⟩
def rraMember : Fld := ⟨0x20128, 32, 6⟩
def rraWrite : Fld := ⟨0x20128, 40, 1⟩
def rraSize : Fld := ⟨0x20128, 41, 1⟩
def rraData : Fld := ⟨0x20130, 0, 64⟩
def rraBusy : Fld := ⟨0x20138, 1, 1⟩
def rraStatus : Fld := ⟨0x20138, 8, 8⟩
def rraTimeout : Fld := ⟨0x20138, 16, 16⟩
def fwdIrqPend : Fld := ⟨0x20148, 0, 64⟩
def route (m : Nat) : Fld := ⟨0x20200 + m / 8 * 8, m % 8 * 8, 8⟩
def routePort (m : Nat) : Fld := ⟨0x20200 + m / 8 * 8, m % 8 * 8, 3⟩
/-- SI. -/
def siEn (n : Nat) : Fld := ⟨pgSi n + 0x40, 0, 1⟩
def siFormat (n : Nat) : Fld := ⟨pgSi n + 0x40, 1, 4⟩
def siCtx (n : Nat) : Fld := ⟨pgSi n + 0x44, 0, 12⟩
def siQueue (n : Nat) : Fld := ⟨pgSi n + 0x44, 12, 3⟩
def siW (n : Nat) : Fld := ⟨pgSi n + 0x48, 0, 16⟩
def siH (n : Nat) : Fld := ⟨pgSi n + 0x48, 16, 12⟩
def siCh (n : Nat) : Fld := ⟨pgSi n + 0x48, 28, 4⟩
def siTimeout (n : Nat) : Fld := ⟨pgSi n + 0x4C, 0, 32⟩
def siRing (n : Nat) : Fld := ⟨pgSi n + 0x50, 0, 56⟩
def siCluster (n : Nat) : Fld := ⟨pgSi n + 0x50, 56, 2⟩
def siSlots (n : Nat) : Fld := ⟨pgSi n + 0x58, 0, 16⟩
def siSlotBytes (n : Nat) : Fld := ⟨pgSi n + 0x5C, 0, 32⟩
def siFrec (n : Nat) : Fld := ⟨pgSi n + 0x60, 0, 52⟩
def siTmpl (n : Nat) : Fld := ⟨pgSi n + 0x68, 0, 52⟩
def siRel (n : Nat) : Fld := ⟨pgSi n + 0x70, 0, 52⟩
def siFrame (n : Nat) : Fld := ⟨pgSi n + 0x78, 0, 64⟩
def siDropped (n : Nat) : Fld := ⟨pgSi n + 0x80, 0, 64⟩
def siState (n : Nat) : Fld := ⟨pgSi n + 0x88, 0, 2⟩
/-- DV. -/
def dvRunning (n : Nat) : Fld := ⟨pgDv n + 0x40, 0, 1⟩
def dvRestarting (n : Nat) : Fld := ⟨pgDv n + 0x40, 1, 1⟩
def dvSlot (n : Nat) : Fld := ⟨pgDv n + 0x40, 2, 1⟩
def dvCause (n : Nat) : Fld := ⟨pgDv n + 0x40, 8, 8⟩
def dvSvn (n : Nat) : Fld := ⟨pgDv n + 0x44, 0, 32⟩
def dvTotal (n : Nat) : Fld := ⟨pgDv n + 0x48, 0, 16⟩
def dvWindow (n : Nat) : Fld := ⟨pgDv n + 0x48, 16, 2⟩
def dvSvc (n : Nat) : Fld := ⟨pgDv n + 0x4C, 0, 32⟩
def dvCrashEpoch (n : Nat) : Fld := ⟨pgDv n + 0x50, 0, 64⟩
/-- CL. -/
def clCoresOn (c : Nat) : Fld := ⟨pgCl c + 0x40, 0, 4⟩
def clRetired (c : Nat) : Fld := ⟨pgCl c + 0x40, 4, 4⟩
def clCsbFree (c : Nat) : Fld := ⟨pgCl c + 0x40, 8, 7⟩
def clCsbInlet (c : Nat) : Fld := ⟨pgCl c + 0x40, 16, 7⟩
def clDmaBytes (c : Nat) : Fld := ⟨pgCl c + 0x48, 0, 64⟩
def clDircHits (c : Nat) : Fld := ⟨pgCl c + 0x50, 0, 64⟩
def clDircMisses (c : Nat) : Fld := ⟨pgCl c + 0x58, 0, 64⟩
def clWalks (c : Nat) : Fld := ⟨pgCl c + 0x60, 0, 64⟩
/-- MXE. -/
def fillGap (n : Nat) : Fld := ⟨pgMxe n + 0x40, 0, 16⟩
def rampBeats (n : Nat) : Fld := ⟨pgMxe n + 0x44, 0, 16⟩
def mxePhase (n : Nat) : Fld := ⟨pgMxe n + 0x48, 0, 2⟩
def mxeLevel (n : Nat) : Fld := ⟨pgMxe n + 0x48, 2, 5⟩
def mxeLoadGen (n : Nat) : Fld := ⟨pgMxe n + 0x48, 8, 1⟩
def mxeStreamGen (n : Nat) : Fld := ⟨pgMxe n + 0x48, 9, 1⟩
def mxeB0 (n : Nat) : Fld := ⟨pgMxe n + 0x48, 10, 1⟩
def mxeB1 (n : Nat) : Fld := ⟨pgMxe n + 0x48, 11, 1⟩
def mxeActive (n : Nat) : Fld := ⟨pgMxe n + 0x48, 12, 1⟩
def mxeFiller (n : Nat) : Fld := ⟨pgMxe n + 0x48, 13, 1⟩
def mxeCtx (n : Nat) : Fld := ⟨pgMxe n + 0x4C, 0, 12⟩
def mxeRate (n : Nat) : Fld := ⟨pgMxe n + 0x4C, 12, 2⟩
def mxeAccMode (n : Nat) : Fld := ⟨pgMxe n + 0x4C, 14, 1⟩
def mxePass (n : Nat) : Fld := ⟨pgMxe n + 0x4C, 16, 7⟩
def mxeWork (n : Nat) : Fld := ⟨pgMxe n + 0x50, 0, 64⟩
def mxeFill (n : Nat) : Fld := ⟨pgMxe n + 0x58, 0, 64⟩
def mxeStall (n : Nat) : Fld := ⟨pgMxe n + 0x60, 0, 64⟩
def mxeQuiet (n : Nat) : Fld := ⟨pgMxe n + 0x68, 0, 64⟩
/-- VXE. -/
def vxePhase (n : Nat) : Fld := ⟨pgVxe n + 0x40, 0, 2⟩
def vxeMode16 (n : Nat) : Fld := ⟨pgVxe n + 0x40, 2, 1⟩
def vxeActive (n : Nat) : Fld := ⟨pgVxe n + 0x40, 3, 1⟩
def vxeCtx (n : Nat) : Fld := ⟨pgVxe n + 0x44, 0, 12⟩
def vxeOp (n : Nat) : Fld := ⟨pgVxe n + 0x44, 12, 4⟩
def vxeWork (n : Nat) : Fld := ⟨pgVxe n + 0x48, 0, 64⟩
def vxeStall (n : Nat) : Fld := ⟨pgVxe n + 0x50, 0, 64⟩
/-- ATE. -/
def skipEn (n : Nat) : Fld := ⟨pgAte n + 0x40, 0, 1⟩
def kvAhead (n : Nat) : Fld := ⟨pgAte n + 0x40, 1, 4⟩
def atePhase (n : Nat) : Fld := ⟨pgAte n + 0x44, 0, 2⟩
def atePins (n : Nat) : Fld := ⟨pgAte n + 0x44, 2, 6⟩
def ateGroup (n : Nat) : Fld := ⟨pgAte n + 0x44, 8, 4⟩
def ateActive (n : Nat) : Fld := ⟨pgAte n + 0x44, 12, 1⟩
def ateCtx (n : Nat) : Fld := ⟨pgAte n + 0x48, 0, 12⟩
def ateOp (n : Nat) : Fld := ⟨pgAte n + 0x48, 12, 3⟩
def ateBlock (n : Nat) : Fld := ⟨pgAte n + 0x48, 16, 14⟩
def ateDot (n : Nat) : Fld := ⟨pgAte n + 0x50, 0, 64⟩
def ateExp (n : Nat) : Fld := ⟨pgAte n + 0x58, 0, 64⟩
def ateBlocks (n : Nat) : Fld := ⟨pgAte n + 0x60, 0, 64⟩
def ateSkipped (n : Nat) : Fld := ⟨pgAte n + 0x68, 0, 64⟩
def ateStall (n : Nat) : Fld := ⟨pgAte n + 0x70, 0, 64⟩
/-- WDU. -/
def runOnEn (n : Nat) : Fld := ⟨pgWdu n + 0x40, 0, 1⟩
def wduPhase (n : Nat) : Fld := ⟨pgWdu n + 0x44, 0, 2⟩
def wduSource (n : Nat) : Fld := ⟨pgWdu n + 0x44, 2, 2⟩
def wduFormat (n : Nat) : Fld := ⟨pgWdu n + 0x44, 4, 5⟩
def wduOut (n : Nat) : Fld := ⟨pgWdu n + 0x44, 16, 11⟩
def cbsReg (n h : Nat) : Fld := ⟨pgWdu n + 0x48 + 4 * h, 0, 32⟩
def cbsValid (n h : Nat) : Fld := ⟨pgWdu n + 0x48 + 4 * h, 0, 1⟩
def cbsRole (n h : Nat) : Fld := ⟨pgWdu n + 0x48 + 4 * h, 1, 2⟩
def cbsLoading (n h : Nat) : Fld := ⟨pgWdu n + 0x48 + 4 * h, 3, 1⟩
def cbsCtx (n h : Nat) : Fld := ⟨pgWdu n + 0x48 + 4 * h, 4, 12⟩
def cbsId (n h : Nat) : Fld := ⟨pgWdu n + 0x48 + 4 * h, 16, 16⟩
def wduWeights (n : Nat) : Fld := ⟨pgWdu n + 0x50, 0, 64⟩
def wduCbLoads (n : Nat) : Fld := ⟨pgWdu n + 0x58, 0, 64⟩
def wduDrop (n : Nat) : Fld := ⟨pgWdu n + 0x60, 0, 64⟩
def wduWait (n : Nat) : Fld := ⟨pgWdu n + 0x68, 0, 64⟩
/-- TSQ. -/
def tsqCtx (n : Nat) : Fld := ⟨pgTsq n + 0x40, 0, 12⟩
def tsqActive (n : Nat) : Fld := ⟨pgTsq n + 0x40, 12, 1⟩
def tsqKind (n : Nat) : Fld := ⟨pgTsq n + 0x40, 13, 3⟩
def tsqQuiesced (n : Nat) : Fld := ⟨pgTsq n + 0x40, 16, 1⟩
def tsqWait (n : Nat) : Fld := ⟨pgTsq n + 0x40, 17, 1⟩
def tsqQueue (n : Nat) : Fld := ⟨pgTsq n + 0x44, 0, 15⟩
def tsqIndex (n : Nat) : Fld := ⟨pgTsq n + 0x48, 0, 32⟩
def tsqTiles (n : Nat) : Fld := ⟨pgTsq n + 0x50, 0, 64⟩
def tsqRejects (n : Nat) : Fld := ⟨pgTsq n + 0x58, 0, 64⟩
def tsqPreempts (n : Nat) : Fld := ⟨pgTsq n + 0x60, 0, 64⟩
/-- SHD. -/
def shdLimit (n e : Nat) : Fld := ⟨pgShd n + 0x40 + 4 * e, 0, 24⟩
def shdExpired (n : Nat) : Fld := ⟨pgShd n + 0x54, 0, 5⟩
def shdEngRst (n : Nat) : Fld := ⟨pgShd n + 0x54, 5, 1⟩
def shdClRst (n : Nat) : Fld := ⟨pgShd n + 0x54, 6, 1⟩
def shdResets (n : Nat) : Fld := ⟨pgShd n + 0x58, 0, 64⟩
def shdLast (n : Nat) : Fld := ⟨pgShd n + 0x60, 0, 64⟩
/-- CTX. -/
def ctxState (c : Nat) : Fld := ⟨pgCtx c + 0x40, 0, 2⟩
def tally (c : Nat) : Fld := ⟨pgCtx c + 0x48, 0, 64⟩
def ctxPart (c : Nat) : Fld := ⟨pgCtx c + 0x50, 0, 6⟩
def inPart (c : Nat) : Fld := ⟨pgCtx c + 0x50, 6, 1⟩
def prio (c : Nat) : Fld := ⟨pgCtx c + 0x50, 8, 3⟩
def csbGran (c : Nat) : Fld := ⟨pgCtx c + 0x50, 16, 7⟩
def slowK (c : Nat) : Fld := ⟨pgCtx c + 0x50, 24, 5⟩
def slowVal (c : Nat) : Fld := ⟨pgCtx c + 0x58, 0, 16⟩
def slowWin (c : Nat) : Fld := ⟨pgCtx c + 0x58, 16, 8⟩
def csbBound (c : Nat) : Fld := ⟨pgCtx c + 0x60, 0, 4⟩
def keySlot (c : Nat) : Fld := ⟨pgCtx c + 0x68, 0, 6⟩
def keyBound (c : Nat) : Fld := ⟨pgCtx c + 0x68, 6, 1⟩
def confid (c : Nat) : Fld := ⟨pgCtx c + 0x68, 7, 1⟩
def keyGen (c : Nat) : Fld := ⟨pgCtx c + 0x68, 16, 16⟩
def segBase (c n : Nat) : Fld := ⟨pgCtx c + 0x400 + 0x20 * n, 0, 48⟩
def segLimit (c n : Nat) : Fld := ⟨pgCtx c + 0x408 + 0x20 * n, 0, 27⟩
def segRights (c n : Nat) : Fld := ⟨pgCtx c + 0x40C + 0x20 * n, 0, 3⟩
def s1Root (c : Nat) : Fld := ⟨pgCtx c + 0x600, 0, 52⟩
def s2Root (c : Nat) : Fld := ⟨pgCtx c + 0x608, 0, 52⟩
def xltMode (c : Nat) : Fld := ⟨pgCtx c + 0x610, 0, 2⟩
def vmid (c : Nat) : Fld := ⟨pgCtx c + 0x610, 16, 16⟩
def faults (c : Nat) : Fld := ⟨pgCtx c + 0x614, 0, 16⟩
/-- Queue blocks, by queue number. -/
def qBase (q : Nat) : Fld := ⟨qBlk q, 0, 52⟩
def cqBase (q : Nat) : Fld := ⟨qBlk q + 0x08, 0, 52⟩
def qCfg (q : Nat) : Fld := ⟨qBlk q + 0x10, 0, 32⟩
def qLog2 (q : Nat) : Fld := ⟨qBlk q + 0x10, 0, 4⟩
def cqLog2 (q : Nat) : Fld := ⟨qBlk q + 0x10, 8, 4⟩
def qVector (q : Nat) : Fld := ⟨qBlk q + 0x10, 16, 6⟩
def qEn (q : Nat) : Fld := ⟨qBlk q + 0x10, 31, 1⟩
def qHalted (q : Nat) : Fld := ⟨qBlk q + 0x14, 1, 1⟩
def qCqFull (q : Nat) : Fld := ⟨qBlk q + 0x14, 2, 1⟩
def qDbReject (q : Nat) : Fld := ⟨qBlk q + 0x14, 3, 1⟩
def qRefetches (q : Nat) : Fld := ⟨qBlk q + 0x14, 4, 4⟩
def qReason (q : Nat) : Fld := ⟨qBlk q + 0x14, 8, 8⟩
def qTail (q : Nat) : Fld := ⟨qBlk q + 0x18, 0, 32⟩
def qHead (q : Nat) : Fld := ⟨qBlk q + 0x1C, 0, 32⟩
def cqTail (q : Nat) : Fld := ⟨qBlk q + 0x20, 0, 32⟩
def cqHead (q : Nat) : Fld := ⟨qBlk q + 0x24, 0, 32⟩
def qShd (q : Nat) : Fld := ⟨qBlk q + 0x2C, 0, 24⟩
end F

/-! Time (R3, R607). -/

/-- The EPOCH counter. -/
def State.now (s : State) : Nat := s.rf F.epochCount

/-- A real time in ns as a count of EPOCHs, rounded up (R541). -/
def State.toEpochs (s : State) (ns : Nat) : Nat := ceilDiv ns (max 1 (s.rf F.epochNs))

/-- The timers that run from an EPOCH count. -/
inductive Tm where
  | hostBeat | gateIdle (n : Nat) | calPeriod | tdp | bootFetch | capCheck | capDroop | emuRead | keyLink | ctxAbort (c : Nat)
  | ctxDrain (c : Nat) | shepRst | rra | key (n : Nat) | link (n : Nat) | drvWindow | kvFull | slowdown
  deriving DecidableEq, Repr

/-- The number of a timer. -/
def Tm.code : Tm → Nat
  | .hostBeat => 0 | .calPeriod => 1 | .tdp => 2 | .bootFetch => 3 | .capCheck => 4 | .capDroop => 5 | .emuRead => 6
  | .keyLink => 7 | .shepRst => 8 | .rra => 9 | .drvWindow => 10 | .kvFull => 11 | .slowdown => 12
  | .gateIdle n => 0x100 + n | .key n => 0x200 + n | .link n => 0x300 + n
  | .ctxAbort c => 0x1000 + c | .ctxDrain c => 0x2000 + c

/-- Start a timer at the present EPOCH count. -/
def State.startT (s : State) (t : Tm) : State := { s with timers := tblPut 0 s.timers t.code (s.now + 1) }
/-- Stop a timer. -/
def State.stopT (s : State) (t : Tm) : State := { s with timers := tblPut 0 s.timers t.code 0 }
/-- EPOCH pulses counted since a timer started; none when it does not run. -/
def State.elapsed (s : State) (t : Tm) : Option Nat :=
  match tblGet 0 s.timers t.code with
  | 0 => none
  | k + 1 => some (s.now - k)
/-- Whether a running timer has counted at least `n`. -/
def State.reached (s : State) (t : Tm) (n : Nat) : Bool :=
  match s.elapsed t with
  | none => false
  | some e => decide (n ≤ e)

/-! Free values. -/

/-- Take the next free value. -/
def State.takeFree (s : State) : Nat × State := (Config.freeNat s.free, { s with free := s.free + 1 })
/-- Take the next DRBG output. -/
def State.takeDrbg (s : State) : Nat × State := (Config.drbg s.free, { s with free := s.free + 1 })

/-! Units. -/

def State.core (s : State) (n : Nat) : Core := tblGet Core.init s.cores n
def State.setCore (s : State) (n : Nat) (c : Core) : State := { s with cores := tblPut Core.init s.cores n c }
def State.modCore (s : State) (n : Nat) (f : Core → Core) : State := s.setCore n (f (s.core n))
def State.cluster (s : State) (n : Nat) : Cluster := tblGet Cluster.init s.clusters n
/-- The allowed and requested levels of a cluster. -/
def State.lvl (s : State) (c : Nat) : Lvl := tblGet Lvl.init s.pwr.levels c
def State.setLvl (s : State) (c : Nat) (l : Lvl) : State :=
  { s with pwr := { s.pwr with levels := tblPut Lvl.init s.pwr.levels c l } }
def State.setCluster (s : State) (n : Nat) (c : Cluster) : State := { s with clusters := tblPut Cluster.init s.clusters n c }
def State.queue (s : State) (q : Nat) : Queue := tblGet Queue.init s.queues q
def State.setQueue (s : State) (q : Nat) (v : Queue) : State := { s with queues := tblPut Queue.init s.queues q v }
def State.modQueue (s : State) (q : Nat) (f : Queue → Queue) : State := s.setQueue q (f (s.queue q))
def State.inlet (s : State) (n : Nat) : Inlet := tblGet Inlet.init s.inlets n
/-- The enabled inlet that drives a queue (R273). -/
def State.driver (s : State) (q : Nat) : Option Nat :=
  (List.range 32).find? (fun n => s.rb (F.siEn n) && 8 * s.rf (F.siCtx n) + s.rf (F.siQueue n) == q)
def State.setInlet (s : State) (n : Nat) (v : Inlet) : State := { s with inlets := tblPut Inlet.init s.inlets n v }
def State.link (s : State) (n : Nat) : Link := tblGet Link.init s.links n
def State.setLink (s : State) (n : Nat) (v : Link) : State := { s with links := tblPut Link.init s.links n v }
def State.drover (s : State) (n : Nat) : Drover := tblGet Drover.init s.drovers n
def State.setDrover (s : State) (n : Nat) (v : Drover) : State := { s with drovers := tblPut Drover.init s.drovers n v }

/-- The Drover image held in slot A or B of the image store (R522). -/
def State.droverImage (s : State) (b : Bool) : Option (Nat × Nat) := if b then s.shep.slotB else s.shep.slotA

/-- The digest of the image that Drover `n` runs. -/
def State.droverDigest (s : State) (n : Nat) : Nat :=
  match s.droverImage (s.rb (F.dvSlot n)) with
  | some i => i.2
  | none => 0

/-- Region `i` of a component of an image (R515): the size is at least 4 KiB. -/
def regionOf (digest component i : Nat) : Region :=
  let v := Config.droverRegion digest component i
  { base := v.1, log2 := 12 + v.2.1, r := v.2.2 % 2 == 1, w := v.2.2 / 2 % 2 == 1, x := v.2.2 / 4 % 2 == 1 }

/-- What a region lets a Drover do: 1 read, 2 write, 4 execute. X is ignored on a region that has W (R516). -/
def Region.allows (g : Region) (right : Nat) : Bool :=
  if right = 1 then g.r else if right = 2 then g.w else if right = 4 then g.x && !g.w else false

/-- A region covers an address. -/
def Region.covers (g : Region) (a : Nat) : Bool := decide (g.base ≤ a) && decide (a < g.base + 2 ^ g.log2)

/-- Whether Drover `n` may make an access: the kernel's regions, 0 to 3, in machine mode, the component's, 4 to 15, in user mode
(R515); an access that no region allows is a protection violation (R518). -/
def State.droverAllows (s : State) (n : Nat) (machine : Bool) (a right : Nat) : Bool :=
  let g := (s.drover n).regions
  (if machine then g.take 4 else g.drop 4).any (fun r => r.covers a && r.allows right)

/-- The regions of Drover `n` are loaded from its image: the kernel's, and none of a component (Table 15.2 step 4). -/
def State.loadRegions (s : State) (n : Nat) : State :=
  let d := s.droverDigest n
  s.setDrover n { s.drover n with regions := (List.range 4).map (regionOf d 0), component := none }

/-- The kernel of Drover `n` enters a user-mode component through its call gate and reloads regions 4 to 15 (R515). -/
def State.enterComponent (s : State) (n component : Nat) : State :=
  let d := s.droverDigest n
  s.setDrover n { s.drover n with
    regions := (s.drover n).regions.take 4 ++ (List.range 12).map (fun i => regionOf d component (i + 4)), component := some component }

/-- A Drover's shared duty runs as component 1 of its image (Table 15.1). -/
def State.duty (s : State) (n : Nat) : State := s.enterComponent n 1
def State.slowOf (s : State) (c : Nat) : Slow := tblGet Slow.init s.slow c
def State.setSlow (s : State) (c : Nat) (v : Slow) : State := { s with slow := tblPut Slow.init s.slow c v }

/-- Fold an operation over the numbers below `n`. -/
def forN (n : Nat) (f : Nat → State → State) (s : State) : State := (List.range n).foldl (fun s i => f i s) s
/-- Fold an operation over a list. -/
def forL {α : Type} (l : List α) (f : α → State → State) (s : State) : State := l.foldl (fun s a => f a s) s

/-- Whether a domain of Table 17.1 is on. -/
def State.domOn (s : State) (d : Nat) : Bool := s.rb (F.domain d)
/-- The domain of a core. -/
def coreDom (n : Nat) : Nat := 13 + n
def clusterDom (c : Nat) : Nat := 9 + c

/-- The instance answers its pages and takes work: boot has ended, and P02 is on. -/
def State.isReady (s : State) : Bool := s.boot.phase == .ready && s.domOn 2

/-- Traffic of a clock group passes its crossing: the clock runs, no resynchronisation runs, and the TAP does not hold
EXTEST (R610, R613, R627). -/
def State.xing (s : State) (c : Clk) : Bool :=
  !s.pins.stopped.contains c && !s.pins.resync.contains c && !s.pins.extest

/-- A host access reaches the instance's pages: it is ready and the host port's crossing passes traffic (R621, R610). -/
def State.hostOk (s : State) : Bool := s.isReady && s.xing .hrp

/-- Hold-up is armed while EN is 1, the check ended OK and VHOLD is at least 1.7 V (R579). -/
def State.rearm (s : State) : State :=
  s.wb F.armed (s.rb F.holdEn && decide (s.rf F.capStatus = 1) && decide (850 ≤ s.rf F.vhold))

/-! Messages and events. -/

/-- Form the message of a vector (R346, R642). -/
def State.sendVec (s : State) (v : Nat) : State :=
  { s with pins := { s.pins with irqQ := s.pins.irqQ ++ [⟨some v, s.rf (F.vecAddr v), s.rf (F.vecData v), none⟩] } }

/-- Form the message of a vector for a command, to follow the command's own writes (R600). -/
def State.sendVecAfter (s : State) (v qn slot : Nat) : State :=
  { s with pins := { s.pins with
      irqQ := s.pins.irqQ ++ [⟨some v, s.rf (F.vecAddr v), s.rf (F.vecData v), some (qn, slot)⟩] } }

/-- The events of a page that are raised and enabled (Table 19.2, EV_PEND). -/
def State.evPend (s : State) (b : Nat) : Nat := s.rf (F.evRaw b) &&& s.rf (F.evEn b)

/-- Raise event bit `i` of the page at `b`; a change of EV_PEND from zero to non-zero sends the page's message (R633). -/
def State.raise (s : State) (b i : Nat) : State :=
  let s1 := s.wf (F.evRaw b) (s.rf (F.evRaw b) ||| 2 ^ i)
  if s.evPend b = 0 ∧ s1.evPend b ≠ 0 ∧ s.rb (F.evMsgEn b) then s1.sendVec (s.rf (F.evVector b)) else s1

/-- Write a page's error registers in one update and set PG_STAT.ERROR (R635). -/
def State.setErr (s : State) (b code info addr : Nat) : State :=
  (((s.wf (F.errCode b) code).wf (F.errInfo b) info).wf (F.errAddr b) addr).wf (F.pgError b) 1

/-- An event, as the log's next entry. -/
def State.logAs (s : State) (code status ctx qn value : Nat) : LogEntry := ⟨s.hsa.logNext, s.now, code, status, ctx, qn, value⟩
/-- Write an entry of the event log in the HSA under the next number (R536, Table 15.6). -/
def State.logPut (s : State) (e : LogEntry) : State :=
  let e : LogEntry := { e with number := s.hsa.logNext }
  let s := { s with hsa := { s.hsa with log := (s.hsa.log ++ [e]).drop ((s.hsa.log.length + 1) - 4096), logNext := s.hsa.logNext + 1 } }
  (s.wf F.logNext s.hsa.logNext).raise pgShm 6
/-- Log an event. -/
def State.logEv (s : State) (code status ctx qn value : Nat) : State := s.logPut (s.logAs code status ctx qn value)
/-- Log an event that happens while the Shepherd may be paused: the entry then waits for step 4 of Table 15.4 (R537). -/
def State.logLater (s : State) (code status ctx qn value : Nat) : State :=
  if s.rb F.mbPaused then { s with boot := { s.boot with waitLog := s.boot.waitLog ++ [s.logAs code status ctx qn value] } }
  else s.logEv code status ctx qn value
/-- The entries that wait are written. -/
def State.logWaiting (s : State) : State :=
  forL s.boot.waitLog (fun e s => s.logPut e) { s with boot := { s.boot with waitLog := [] } }

/-! Shared memory by HPA. -/

/-- Byte of shared memory at an HPA: 52 bits of address; a byte that nothing has written reads 0 (assumption 4). -/
def State.byteAt (s : State) (a : Nat) : Byte := tblGet (0 : Byte) s.mem (a % 2 ^ 52)
/-- Write one byte of shared memory. -/
def State.putByte (s : State) (a : Nat) (v : Byte) : State := { s with mem := tblPut (0 : Byte) s.mem (a % 2 ^ 52) v }

/-- `n` bytes of a memory from `a` up. -/
def memBytes (m : List Host.Cell) : Nat → Nat → List Byte
  | _, 0 => []
  | a, n + 1 => tblGet (0 : Byte) m (a % 2 ^ 52) :: memBytes m (a + 1) n
/-- A memory with bytes written from `a` up. -/
def memPut (m : List Host.Cell) : Nat → List Byte → List Host.Cell
  | _, [] => m
  | a, b :: bs => memPut (tblPut (0 : Byte) m (a % 2 ^ 52) b) (a + 1) bs

/-- The raw bytes that the shared memory holds. -/
def State.rawBytes (s : State) (a n : Nat) : List Byte := memBytes s.mem a n
/-- Whether the 64 B line of an HPA is held poisoned. -/
def State.linePoison (s : State) (a : Nat) : Bool := s.poison.contains (a % 2 ^ 52 / 64)
/-- Whether any line from `a` over `n` bytes is held poisoned. -/
def State.anyPoison (s : State) (a n : Nat) : Bool :=
  s.poison.any (fun l => decide (a % 2 ^ 52 / 64 ≤ l) && decide (l ≤ (a % 2 ^ 52 + n - 1) / 64) && decide (0 < n))
def State.setPoison (s : State) (a : Nat) (p : Bool) : State :=
  { s with poison := if p then setIns s.poison (a % 2 ^ 52 / 64) else setDel s.poison (a % 2 ^ 52 / 64) }

/-- Whether a key slot encrypts (Table 14.18, KIND XTS). -/
def State.encrypts (s : State) (slot : Nat) : Bool := s.rf (F.slKind slot) == 1
/-- The key material of a slot, 64 bytes. -/
def State.keyOf (s : State) (slot : Nat) : List Nat := natB 64 (tblGet 0 s.keys slot)

def toNats (bs : List Byte) : List Nat := bs.map (·.toNat)
def ofNats (xs : List Nat) : List Byte := xs.map (BitVec.ofNat 8)

/-- The plain bytes that the raw bytes of the line at `la` stand for under a slot (R442). -/
def State.plainOf (s : State) (slot la : Nat) (raw : List Byte) : List Byte :=
  if s.encrypts slot then ofNats (xtsDec (s.keyOf slot) (la % 2 ^ 52 / 64) (toNats raw)) else raw
/-- The plain bytes of the 64 B line at `la`, under a slot. -/
def State.plainLine (s : State) (slot la : Nat) : List Byte := s.plainOf slot la (s.rawBytes la 64)

/-- Store a whole line of plain bytes under a slot. -/
def State.putLine (s : State) (slot la : Nat) (bs : List Byte) : State :=
  let out := if s.encrypts slot then ofNats (xtsEnc (s.keyOf slot) (la % 2 ^ 52 / 64) (toNats bs)) else bs
  { s with mem := memPut s.mem la out }

/-- Read `n` bytes by HPA under a slot, line by line; `none` when a line is poisoned (R444). -/
def State.readLines (s : State) (slot : Nat) : Nat → Nat → List Byte
  | _, 0 => []
  | a, k + 1 => s.plainLine slot a ++ s.readLines slot (a + 64) k

def State.readHpa (s : State) (slot a n : Nat) : Option (List Byte) :=
  if n = 0 then some []
  else if s.anyPoison a n then none
  else if s.encrypts slot then
    let la := a / 64 * 64
    some (((s.readLines slot la (ceilDiv (a % 64 + n) 64)).drop (a % 64)).take n)
  else some (s.rawBytes a n)

/-- Replace bytes of a list from a position. -/
def splice (l : List Byte) (p : Nat) (bs : List Byte) : List Byte := l.take p ++ bs ++ l.drop (p + bs.length)

/-- Write bytes that lie within one line, by HPA under a slot, with a poison mark: a partial write under an encrypting
slot merges (R443); a partial write never clears poison (R647); a poisoned write is made only while POISON_STORE is 1
(R439, R440). The second part tells whether the port refused the write. -/
def State.writeLine (s : State) (slot a : Nat) (bs : List Byte) (p : Bool) : State × Bool :=
  let la := a / 64 * 64
  let whole := bs.length = 64
  let old := s.linePoison la
  let p' := p || (old && !decide whole && s.encrypts slot)
  if p' && !s.rb F.poisonStore then
    (s, true)
  else
    let s1 :=
      if s.encrypts slot then
        if old && !decide whole then s else s.putLine slot la (splice (s.plainLine slot la) (a % 64) bs)
      else { s with mem := memPut s.mem a bs }
    (s1.setPoison la (p' || (old && !decide whole)), false)

/-- Cut bytes at line boundaries: (HPA, bytes) pieces. -/
def linePieces : Nat → Nat → List Byte → List (Nat × List Byte)
  | 0, _, _ => []
  | _ + 1, _, [] => []
  | f + 1, a, bs => (a, bs.take (64 - a % 64)) :: linePieces f (a + (64 - a % 64)) (bs.drop (64 - a % 64))

/-! Memory ports. -/

/-- The port of an HPA (R416); MP0 alone while its page is not enabled (R643). -/
def State.portOf (s : State) (hpa : Nat) : Nat :=
  if s.rb (F.pgEn (pgMp 0)) then (hpa >>> s.rf F.granLog2) % 2 ^ s.rf F.portsLog2 else 0

/-- A port's record of an access that ended in error (Table 12.8). -/
def State.mpErr (s : State) (port code ctx slot reason : Nat) (inst : Bool) (hpa : Nat) : State :=
  s.setErr (pgMp port) code (ctx % 4096 + slot * 2 ^ 12 + reason * 2 ^ 18 + b2n inst * 2 ^ 21) hpa

/-- A port has delivered a line poisoned (R435, Table 12.8). -/
def State.fabErr (s : State) (port ctx slot : Nat) (inst : Bool) (hpa : Nat) : State :=
  ((s.inc (F.mpFabErr port) 1).raise (pgMp port) 0).mpErr port 0x30 ctx slot 1 inst hpa
/-- A read of `n` bytes within a line that completes within a row: its bytes, and a line that came poisoned (R435). -/
def State.tookLine (s : State) (port ctx slot : Nat) (inst : Bool) (hpa n : Nat) : State :=
  let s := s.inc (F.mpReadBytes port) n
  if s.linePoison hpa then s.fabErr port ctx slot inst hpa else s
/-- The same for the pieces of a span under a context's slot. -/
def State.tookPieces (s : State) (ctx slot : Nat) (ps : List (Nat × List Byte)) : State :=
  forL ps (fun p s => s.tookLine (s.portOf p.1) ctx slot false p.1 p.2.length) s
/-- The same for bytes within a line that the instance reads for itself (R441). -/
def State.tookInst (s : State) (slot hpa n : Nat) : State := s.tookLine (s.portOf hpa) 0 slot true hpa n
/-- The same for a span that the Shepherd reads: through MP0, under key slot 1 (R533). -/
def State.tookShep (s : State) (hpa n : Nat) : State :=
  forL (linePieces (n / 64 + 2) hpa (List.replicate n 0)) (fun p s => s.tookLine 0 0 1 true p.1 p.2.length) s

/-- The key slot that a context's accesses carry (R19, R441): none when it is bound to no slot or its slot is not VALID. -/
def State.ctxSlot (s : State) (c : Nat) : Option Nat :=
  if s.rb (F.keyBound c) ∧ s.rf (F.slState (s.rf (F.keySlot c))) = 1 then some (s.rf (F.keySlot c)) else none

/-- One more or one fewer transaction in flight under a slot (R501; the field saturates at 16,383). -/
def State.flightUp (s : State) (slot : Nat) : State := s.incSat (F.slInflight slot) 1
def State.flightDown (s : State) (slot : Nat) : State := s.wf (F.slInflight slot) (s.rf (F.slInflight slot) - 1)

/-! Commands in flight. -/

def State.cmd (s : State) (qn slot : Nat) : Option Cmd := s.cmds.find? (fun c => c.qn == qn && c.slot == slot)
/-- Replace the record of a command. -/
def State.setCmd (s : State) (c : Cmd) : State :=
  { s with cmds := s.cmds.map (fun d => if d.qn == c.qn && d.slot == c.slot then c else d) }
def State.modCmd (s : State) (qn slot : Nat) (f : Cmd → Cmd) : State :=
  { s with cmds := s.cmds.map (fun d => if d.qn == qn && d.slot == slot then f d else d) }
/-- The commands of one queue, oldest first. -/
def State.cmdsOf (s : State) (qn : Nat) : List Cmd := s.cmds.filter (fun c => c.qn == qn)

/-- Free bytes, by a seed and a position. -/
def freeBytes (seed pos n : Nat) : List Byte := (List.range n).map (fun i => BitVec.ofNat 8 (Config.freeByte seed (pos + i)))

/-- A little-endian field of a command's bytes. -/
def Cmd.fld (c : Cmd) (o n : Nat) : Nat := leNat ((c.bytes.drop o).take n)
/-- A bit of a command's byte. -/
def Cmd.flag (c : Cmd) (o i : Nat) : Bool := bit (c.fld o 1) i
def Cmd.opcode (c : Cmd) : Nat := c.fld 0 1
def Cmd.ctx (c : Cmd) : Nat := c.qn / 8

/-- A little-endian field of a byte block. -/
def fldOf (bs : List Byte) (o n : Nat) : Nat := leNat ((bs.drop o).take n)

/-- Set the status of a command that no other status has set, with the tile that set it. -/
def Cmd.fail (c : Cmd) (status detail : Nat) : Cmd :=
  if c.failed && c.detail ≤ detail then c else { c with status := status, detail := detail, failed := true }

/-- Finish phase 4 of a command with a status that belongs to the command. -/
def Cmd.done (c : Cmd) (status : Nat) : Cmd :=
  { c with acted := true, status := status, failed := decide (0x10 ≤ status), phase := 5 }

end Sys2Proof.Machine
end

