-- ==== Sys2Proof/Machine/PortOps.lean ====
section
/-! DEFINITION. The memory ports: how a port accepts an access, holds it back, keeps the order of a line, and what a refused access
does to its client (12_memory_ports_ordering_integrity.md R418 to R423, R428 to R430, R439, R440, R443, R658). -/

namespace Sys2Proof.Machine

/-! Halts (R311). -/

/-- The commands that a halt returns unexecuted: of the queue, and never at phase 3. -/
def returned (q : Nat) (c : Cmd) : Bool := c.qn == q && !c.reached

/-- Remember the commands of a list whose tallies have been accepted: they are checked once (R316). -/
def State.keepChecked (s : State) (l : List Cmd) : State :=
  { s with checked := (l.filter (fun c => c.tallied)).map (fun c => (c.qn, c.slot, c.bytes)) ++ s.checked }

/-- Halt a queue with a reason: fetched commands that had not reached phase 3 are returned (R311). -/
def State.halt (s : State) (q reason : Nat) : State :=
  let s := (s.wb (F.qHalted q) true).wf (F.qReason q) reason
  let back := s.cmds.filter (returned q)
  let s := s.keepChecked back
  let s := { s with cmds := s.cmds.filter (fun c => !returned q c) }
  s.modQueue q (fun v => { v with reserved := v.reserved - back.length, refetch := none })

/-- The queue halts after a failed signal update (R648). -/
def State.sigFail (s : State) (qn slot status : Nat) : State :=
  let formed := s.pins.irqQ.any (fun m => m.after == some (qn, slot))
  let s := s.halt qn status
  if formed then s else s.sendVecAfter (s.rf (F.qVector qn)) qn slot

/-! Tags and lines. -/

/-- The first free transaction tag from `lo`, among `n`, on a port. -/
def freeTag (used : Nat → Bool) (lo : Nat) : Nat → Option Nat
  | 0 => none
  | n + 1 => if used lo then freeTag used (lo + 1) n else some lo

/-- A tag is in use while its transaction is outstanding, or while a response from before a reset is still owed (R624). -/
def State.tagUsed (s : State) (port id : Nat) : Bool :=
  s.txns.any (fun t => t.port == port && t.id == id) || s.boot.discard.contains (port, id)

/-- The number of the 64 B line of an HPA. -/
def lineOf (a : Nat) : Nat := a % 2 ^ 52 / 64

/-- An access must wait for its line: an outstanding access holds it (R430, R443), or one of the two is a far atomic, whose result the
fabric makes (R420, R429). -/
def State.lineBusy (s : State) (r : Req) : Bool :=
  s.txns.any (fun t => lineOf t.hpa == lineOf r.hpa && (t.hold || t.op == 2 || r.op == 2))

/-- The port of an access: the Shepherd's own accesses use MP0 whatever their HPA (R533). -/
def State.reqPort (s : State) (r : Req) : Nat := if r.mp0 then 0 else s.portOf r.hpa
/-- The bytes of a write over its port. -/
def State.countSent (s : State) (r : Req) (n : Nat) : State := s.inc (F.mpWriteBytes (s.reqPort r)) n

/-- An access waits behind an earlier one of its port that waits in its class and direction, or for its line. -/
def State.isBehind (s : State) (r w : Req) : Bool :=
  s.reqPort w == s.reqPort r && ((w.prio == r.prio && (w.op == 0) == (r.op == 0)) || lineOf w.hpa == lineOf r.hpa)

/-- The tag with which a port accepts an access now: reads use 0 to 1,023, writes and atomics 1,024 to 1,535 (Table 18.1); none while
the access waits (R418, R430, R443). -/
def State.tagFor (s : State) (r : Req) : Option Nat :=
  if s.waiting.any (fun w => s.isBehind r w) || s.lineBusy r then none
  else if r.op = 0 then freeTag (s.tagUsed (s.reqPort r)) 0 1024
  else freeTag (s.tagUsed (s.reqPort r)) 1024 512

/-! Acceptance. -/

/-- Record an outstanding transaction, counted under its key slot (R501). -/
def State.push (s : State) (t : Txn) : State :=
  let s := { s with txns := s.txns ++ [t] }
  let s := if t.op = 0 then s.incSat (F.mpReads t.port) 1 else s.incSat (F.mpWrites t.port) 1
  s.flightUp t.slot

/-- The outstanding reads of a line learn what has been sent to it after them (R420). -/
def State.sentTo (s : State) (x : Sent) : State :=
  { s with txns := s.txns.map (fun t =>
      if t.op = 0 ∧ lineOf t.hpa = lineOf x.hpa then { t with after := t.after ++ [x] } else t) }

/-- What has been sent to a line and is not yet answered, oldest first. -/
def State.sentFor (s : State) (a : Nat) : List Sent :=
  (s.txns.filter (fun t => t.op == 1 && lineOf t.hpa == lineOf a)).flatMap (fun t => t.before)

/-- The transaction of an access under a tag. -/
def State.txnOf (s : State) (r : Req) (id : Nat) : Txn :=
  { port := s.reqPort r, id := id, op := min r.op 1, hpa := r.hpa, ctx := r.ctx, inst := r.inst, slot := r.slot, client := r.client,
    addend := r.addend, hold := false, before := [], after := [] }

/-- A write of the end of core `n`'s tile was refused: the tile stops with 0x30 (R440, R658). -/
def State.markBad (s : State) : Option Nat → State
  | none => s
  | some n => s.modCore n (fun k => { k with tile := k.tile.map (fun t => { t with fin := t.fin.map (fun f => { f with bad := true }) }) })

/-- Bytes sent for a line, as memory then holds them: the whole line where the bytes cover it or were merged into it. -/
def State.sent (s : State) (slot hpa : Nat) (bs : List Byte) (p : Bool) : Sent :=
  if s.encrypts slot || decide (bs.length = 64) then ⟨hpa / 64 * 64, s.rawBytes (hpa / 64 * 64) 64, s.linePoison hpa⟩ else ⟨hpa, bs, p⟩

/-- The port refuses a poisoned write (R440). -/
def State.refuseWrite (s : State) (r : Req) : State :=
  ((s.raise (pgMp (s.reqPort r)) 1).mpErr (s.reqPort r) 0x30 r.ctx r.slot 2 r.inst r.hpa).markBad r.core

/-- A write of `n` bytes within a line under a slot is merged into the line (R443). -/
def State.merges (s : State) (slot n : Nat) : Bool := s.encrypts slot && decide (n ≠ 64)
/-- A merged write reads its line first (R443). -/
def State.mergeRead (s : State) (r : Req) (n : Nat) : State :=
  if s.merges r.slot n then s.tookLine (s.reqPort r) r.ctx r.slot r.inst (r.hpa / 64 * 64) 64 else s

/-- Send bytes of a line to the fabric; a partial write under an encrypting slot holds the line (R443), and so does an atomic, which has
read the line (R430); either sends the line whole. -/
def State.sendWrite (s : State) (r : Req) (id : Nat) (bs : List Byte) (p hold : Bool) : State :=
  let s := if hold then s else s.mergeRead r bs.length
  let (s, refused) := s.writeLine r.slot r.hpa bs p
  if refused then s.refuseWrite r
  else
    let merged : Bool := s.merges r.slot bs.length
    let x := s.sent r.slot r.hpa bs p
    ((s.countSent r (if hold || merged then 64 else bs.length)).sentTo x).push { s.txnOf r id with hold := hold || merged, before := [x] }

/-- The port refuses an atomic on a poisoned line: the client of a signal halts, a histogram tile stops (R658). -/
def State.refuseAtomic (s : State) (port ctx slot hpa : Nat) (inst : Bool) : State :=
  ((s.inc (F.mpFabErr port) 1).raise (pgMp port) 4).mpErr port 0x30 ctx slot 4 inst hpa

/-- An atomic that the port performs as a read, a modify and a write of the line (R430, R658). -/
def State.nearAtomic (s : State) (r : Req) (id w : Nat) (f : Nat → Nat) : State :=
  let s := s.inc (F.mpReadBytes (s.reqPort r)) 64
  match s.readHpa r.slot r.hpa w with
  | none =>
    let s := (s.refuseAtomic (s.reqPort r) r.ctx r.slot r.hpa r.inst).markBad r.core
    match r.client with
    | .signal qn slot => s.sigFail qn slot 0x30
    | _ => s
  | some bs => (s.inc (F.mpAtomics (s.reqPort r)) 1).sendWrite r id (natLe w (f (leNat bs))) false true

/-- A saturating 32-bit addition (R70). -/
def satAdd32 (v add : Nat) : Nat := min (2 ^ 32 - 1) (v + add)

/-- The drains that wait for an access wait for its transaction now. -/
def State.joinDrains (s : State) (r : Req) (id : Nat) : State :=
  if r.drains.isEmpty then s
  else { s with xlt := { s.xlt with drains := s.xlt.drains.map (fun d =>
      if r.drains.contains (d.qn, d.slot) then { d with txns := d.txns ++ [(s.reqPort r, id)] } else d) } }

/-- A port accepts an access under a tag. -/
def State.accept (s : State) (r : Req) (id : Nat) : State :=
  match r.op with
  | 0 => (s.joinDrains r id).push { s.txnOf r id with before := s.sentFor r.hpa }
  | 2 => ((s.joinDrains r id).inc (F.mpAtomics (s.reqPort r)) 1).push { s.txnOf r id with op := 2 }
  | 3 => (s.joinDrains r id).nearAtomic r id 8 (fun v => v + r.addend)
  | 4 => (s.joinDrains r id).nearAtomic r id 4 (fun v => satAdd32 v r.addend)
  | 5 => (s.joinDrains r id).push { s.txnOf r id with before := [⟨r.hpa, r.bytes, r.bad⟩] }
  | _ => (s.joinDrains r id).sendWrite r id r.bytes r.bad false

/-- An access reaches its port: it is accepted, or waits. -/
def State.request (s : State) (r : Req) : State :=
  match s.tagFor r with
  | none => { s with waiting := s.waiting ++ [r] }
  | some id => s.accept r id

/-- The waiting accesses reach their ports again, in order. -/
def State.serveGo : List Req → State → State
  | [], s => s
  | r :: l, s => State.serveGo l (s.request r)
def State.serveWaiting (s : State) : State := State.serveGo s.waiting { s with waiting := [] }

/-! The kinds of access. -/

/-- A read of a line for a client, under a context's slot. -/
def readReq (hpa ctx slot : Nat) (cl : Client) : Req :=
  { op := 0, hpa := hpa, ctx := ctx, inst := false, slot := slot, client := cl, bytes := [], bad := false, addend := 0, prio := false,
    core := none, drains := [], mp0 := false }
/-- A write of bytes within a line for a client; completion records are of the class PRIORITY (R419). -/
def writeReq (hpa ctx slot : Nat) (cl : Client) (bs : List Byte) (p : Bool) : Req :=
  { op := 1, hpa := hpa, ctx := ctx, inst := false, slot := slot, client := cl, bytes := bs, bad := p, addend := 0,
    prio := match cl with
      | .record _ _ => true
      | _ => false
    core := none, drains := [], mp0 := false }
/-- An atomic of Table 12.2. -/
def atomicReq (op hpa ctx slot : Nat) (cl : Client) (addend : Nat) : Req :=
  { op := op, hpa := hpa, ctx := ctx, inst := false, slot := slot, client := cl, bytes := [], bad := false, addend := addend, prio := false,
    core := none, drains := [], mp0 := false }

/-- A write of bytes within a line that every later access sees at once; its transaction takes its tag in the port's order. -/
def State.putNow (s : State) (r : Req) : State :=
  let s := s.mergeRead r r.bytes.length
  let (s, refused) := s.writeLine r.slot r.hpa r.bytes r.bad
  let x := s.sent r.slot r.hpa r.bytes r.bad
  if refused then s.refuseWrite r
  else ((s.countSent r (if s.merges r.slot r.bytes.length then 64 else r.bytes.length)).sentTo x).request { r with op := 5, hpa := x.hpa, bytes := x.bytes, bad := x.bad }

/-- A write of bytes within a line for the instance itself (R441); the Shepherd's own go through MP0 (R533). -/
def State.instLine (s : State) (slot : Nat) (prio mp0 : Bool) (p : Nat × List Byte) : State :=
  s.putNow { writeReq p.1 0 slot .nobody p.2 false with inst := true, prio := prio, mp0 := mp0 }

/-- A write for the instance itself. -/
def State.instPut (s : State) (slot a : Nat) (bs : List Byte) (prio mp0 : Bool) : State :=
  (linePieces (bs.length / 64 + 2) a bs).foldl (fun s p => s.instLine slot prio mp0 p) s

/-! Responses. -/

/-- A response that is owed from before a reset is discarded (R624); its tag is free. -/
def State.dropOwed (s : State) (port id : Nat) : State :=
  State.serveWaiting { s with boot := { s.boot with discard := s.boot.discard.filter (fun d => !decide (d = (port, id))) } }

/-- Find an outstanding transaction. -/
def State.txn (s : State) (port id : Nat) : Option Txn := s.txns.find? (fun t => t.port == port && t.id == id)

/-- A transaction's completion would take its key slot's in-flight count below zero: a failed consistency check (R545). -/
def State.flightBreaks (s : State) (t : Txn) : Bool := s.rf (F.slInflight t.slot) == 0

/-- Retire an outstanding transaction. -/
def State.retireTxn (s : State) (t : Txn) : State :=
  let drains := s.xlt.drains.map (fun d => { d with txns := d.txns.filter (fun p => !(p.1 == t.port && p.2 == t.id)) })
  let s := { s with txns := s.txns.filter (fun u => !(u.port == t.port && u.id == t.id)), xlt := { s.xlt with drains := drains } }
  let s := if t.op = 0 then s.wf (F.mpReads t.port) (s.rf (F.mpReads t.port) - 1)
    else s.wf (F.mpWrites t.port) (s.rf (F.mpWrites t.port) - 1)
  s.flightDown t.slot

/-- A line with what was sent to it laid over it: its raw bytes and its poison. Only a whole line replaces a poison mark (R647). -/
def laySent (la : Nat) (l : List Byte × Bool) (x : Sent) : List Byte × Bool :=
  (splice l.1 (x.hpa % 2 ^ 52 - la % 2 ^ 52) x.bytes, x.bad || (l.2 && decide (x.bytes.length ≠ 64)))

end Sys2Proof.Machine
end

