-- ==== Sys2Proof/Machine/Translate.lean ====
section
/-! DEFINITION. Segments, the two-stage walk and the translation cache (11_segments_and_translation.md). -/

namespace Sys2Proof.Machine

/-- What a translation answers. -/
inductive XRes where
  | ok (hpa : Nat)
  /-- The segment check or the segment's rights fail: 0x22 or 0x21 (R386, R387). -/
  | seg (status : Nat)
  /-- A fault of Table 11.9: kind, stage, level, IPA. -/
  | fault (kind stage level ipa : Nat)
  /-- An entry carries poison (R399). -/
  | poison
  deriving DecidableEq, Repr

/-- The status that a failed translation gives a command (Table 11.9, R399). -/
def XRes.status : XRes → Nat
  | .ok _ => 0
  | .seg st => st
  | .fault k _ _ _ => if k = 3 then 0x21 else 0x20
  | .poison => 0x30

/-- The EVA of an offset in a segment, or the status of its failure (R386, R387). -/
def segMap (s : State) (ctx seg off right : Nat) : Except Nat Nat :=
  let lim := s.rf (F.segLimit ctx seg)
  if lim = 0 ∨ lim * 2 ^ 21 ≤ off then .error 0x22
  else if s.rf (F.segRights ctx seg) &&& right ≠ right then .error 0x21
  else .ok ((s.rf (F.segBase ctx seg) + off) % 2 ^ 48)

/-- A walk's result at one stage. -/
inductive WRes where
  /-- Output address, bytes that the leaf covers, its rights, its level. -/
  | leaf (out size rights level : Nat)
  | fault (kind stage level ipa : Nat)
  | poison
  deriving DecidableEq, Repr

/-- What a table read gives: the entry, or why there is none. -/
inductive Rd where
  | entry (e : Nat)
  | fault (kind stage level ipa : Nat)
  | poison
  deriving DecidableEq, Repr

/-- What a walk leaves beside its result: the HPAs of the entries that it has read, whether it has ignored a CONT (R394), what its walk cache
takes. -/
structure WLog where
  reads : List Nat
  cont : Bool
  fills : List WalkEnt
  deriving DecidableEq, Repr

/-- A walk's walk cache serves an input address of a stage at a level. -/
def WalkEnt.serves (w : WalkEnt) (ctx stage inp : Nat) : Bool :=
  w.ctx == ctx && w.stage == stage && decide (w.input ≤ inp) && decide (inp < w.input + w.size)

/-- The cache of a cluster's walker; the control plane walks without one. -/
def State.walkCacheOf (s : State) (cl : Option Nat) : List WalkEnt := cl.elim [] (fun c => (s.cluster c).walkCache)

/-- Read an 8 B entry by HPA, without encryption (R398). -/
def readEntry (s : State) (a : Nat) (g : WLog) : Rd × WLog :=
  (if s.linePoison a then .poison else .entry (leNat (s.rawBytes a 8)), { g with reads := g.reads ++ [a] })

/-- The output of a leaf for an input address (R392), and whether its CONT is ignored (R394). -/
def leafOut (e lvl inp : Nat) : WRes × Bool :=
  let addr := bits e 12 40 * 2 ^ 12
  let rights := bits e 2 3
  if lvl = 1 then (.leaf (addr / 2 ^ 30 * 2 ^ 30 + inp % 2 ^ 30) (2 ^ 30) rights 1, false)
  else
    let out := addr / 2 ^ 21 * 2 ^ 21 + inp % 2 ^ 21
    let cont := bit e 5
    let same := bits addr 21 4 == bits inp 21 4
    (.leaf out (if cont && same then 2 ^ 25 else 2 ^ 21) rights 2, cont && !same)

/-- Walk one stage's levels from `lvl`; `rd` reads an entry at a level, `note` is what the walk cache takes of one that is no leaf (R392,
R393, R397). -/
def walkLv (rd : Nat → Nat → WLog → Rd × WLog) (note : Nat → Nat → List WalkEnt) (stage inp ipa : Nat) :
    Nat → Nat → Nat → WLog → WRes × WLog
  | 0, lvl, _, g => (.fault 0 stage lvl ipa, g)
  | f + 1, lvl, t, g =>
    match rd lvl (t + 8 * (inp / 2 ^ (39 - 9 * lvl) % 512)) g with
    | (.poison, g) => (.poison, g)
    | (.fault k st l i, g) => (.fault k st l i, g)
    | (.entry e, g) =>
      if !bit e 0 then (.fault 0 stage lvl ipa, g)
      else if lvl = 0 ∧ bit e 1 then (.fault 1 stage 0 ipa, g)
      else if lvl = 2 ∨ bit e 1 then
        let r := leafOut e lvl inp
        (r.1, { g with cont := g.cont || r.2 })
      else
        let out := bits e 12 40 * 2 ^ 12
        walkLv rd note stage inp ipa f (lvl + 1) out { g with fills := g.fills ++ note lvl out }

/-- The stage-2 walk of an IPA, or its leaf's result from the walk cache. -/
def s2Walk (s : State) (wc : List WalkEnt) (ctx ipa : Nat) (g : WLog) : WRes × WLog :=
  match wc.find? (fun w => w.serves ctx 1 ipa) with
  | some w => (.leaf (w.out + (ipa - w.input)) w.size w.rights w.level, g)
  | none =>
    match walkLv (fun _ a g => readEntry s a g) (fun _ _ => []) 1 ipa ipa 3 0 (s.rf (F.s2Root ctx)) g with
    | (.leaf out sz r l, g) => (.leaf out sz r l, { g with fills := g.fills ++ [⟨ctx, 1, l, ipa / sz * sz, sz, out - ipa % sz, r⟩] })
    | r => r

/-- Read a stage-1 table entry for an EVA: from the walk cache, else at its address, an IPA when stage 2 is on (R397); a stage-2 fault of
it shows the table's IPA. -/
def readS1 (s : State) (wc : List WalkEnt) (ctx : Nat) (s2 : Bool) (eva lvl a : Nat) (g : WLog) : Rd × WLog :=
  match wc.find? (fun w => w.serves ctx 0 eva && w.level == lvl) with
  | some w => (.entry (w.out + 1), g)
  | none =>
    if !s2 then readEntry s a g
    else if 2 ^ 48 ≤ a then (.fault 2 0 0 0, g)
    else match s2Walk s wc ctx a g with
      | (.leaf out _ _ _, g) => readEntry s out g
      | (.fault k st l _, g) => (.fault k st l (a / 4096 * 4096), g)
      | (.poison, g) => (.poison, g)

/-- A combined translation (R400), or why there is none. -/
inductive Combined where
  | ok (t : Tlb)
  | fault (kind stage level ipa : Nat)
  | poison
  deriving DecidableEq, Repr

/-- The stage-1 part of a walk. -/
def s1Walk (s : State) (wc : List WalkEnt) (ctx eva : Nat) : WRes × WLog :=
  let mode := s.rf (F.xltMode ctx)
  if mode % 2 = 1 then
    walkLv (readS1 s wc ctx (decide (mode = 3)) eva)
      (fun l out => [⟨ctx, 0, l, eva / 2 ^ (39 - 9 * l) * 2 ^ (39 - 9 * l), 2 ^ (39 - 9 * l), out, 0⟩]) 0 eva 0 3 0 (s.rf (F.s1Root ctx))
      ⟨[], false, []⟩
  else (.leaf eva (2 ^ 48) 7 0, ⟨[], false, []⟩)

/-- The walk of R397 for an EVA, without the check of rights. -/
def walk (s : State) (wc : List WalkEnt) (ctx eva : Nat) : Combined × WLog :=
  let mode := s.rf (F.xltMode ctx)
  let part := s.rf (F.ctxPart ctx)
  if mode = 0 then (.fault 0 0 0 0, ⟨[], false, []⟩)
  else
    match s1Walk s wc ctx eva with
    | (.poison, g) => (.poison, g)
    | (.fault k st l i, g) => (.fault k st l i, g)
    | (.leaf ipa sz1 r1 l1, g) =>
      if mode = 3 ∧ 2 ^ 48 ≤ ipa then (.fault 2 0 l1 0, g)
      else if 2 ≤ mode then
        match s2Walk s wc ctx ipa g with
        | (.poison, g) => (.poison, g)
        | (.fault k st l i, g) => (.fault k st l i, g)
        | (.leaf hpa sz2 r2 l2, g) =>
          let sz := min sz1 sz2
          (.ok ⟨ctx, part, eva / sz * sz, sz, hpa - hpa % sz, ipa - ipa % sz, r1, r2, l1, l2⟩, g)
      else (.ok ⟨ctx, part, eva / sz1 * sz1, sz1, ipa - ipa % sz1, 0, r1, 7, l1, 0⟩, g)

/-- Whether the pages of an entry cover an EVA of a context. -/
def Tlb.covers (t : Tlb) (ctx eva : Nat) : Bool := t.ctx == ctx && decide (t.eva ≤ eva) && decide (eva < t.eva + t.size)

/-- Use a combined translation for an access: its HPA, or the RIGHTS fault of the leaf that lacks the right (R387). -/
def Tlb.use (t : Tlb) (eva right : Nat) : XRes :=
  if t.r1 &&& right ≠ right then .fault 3 0 t.l1 0
  else if t.r2 &&& right ≠ right then .fault 3 1 t.l2 (t.ipa + (eva - t.eva))
  else .ok (t.hpa + (eva - t.eva))

def State.tlbFind (s : State) (ctx eva : Nat) : Option Tlb := s.xlt.tlb.find? (fun t => t.covers ctx eva)

/-- Entries that a partition holds in the second level. -/
def tlbHeld (l : List Tlb) (p : Nat) : Nat := (l.filter (fun t => t.part == p)).length

/-- Cache a combined translation; a full second level evicts an entry of a partition above its guarantee, else of the
filling partition (R377). Which of the candidates goes is a free value. -/
def State.tlbFill (s : State) (t : Tlb) : State :=
  let l := s.xlt.tlb
  if l.length < 4096 then { s with xlt := { s.xlt with tlb := t :: l } }
  else
    let above := l.filter (fun e => decide (16 * s.rf (F.pMinXlt e.part) < tlbHeld l e.part))
    let cand := if above.isEmpty then l.filter (fun e => e.part == t.part) else above
    let (v, s) := s.takeFree
    match cand[v % max 1 cand.length]? with
    | none => s
    | some e => { s with xlt := { s.xlt with tlb := t :: l.filter (fun x => decide (x ≠ e)) } }

/-- A core's micro-TLB takes a translation; which entry a full one gives up is a free value. -/
def State.utlbFill (s : State) (core : Option Nat) (t : Tlb) : State :=
  match core with
  | none => s
  | some n =>
    let l := (s.core n).utlb
    if l.length < 64 then s.modCore n (fun k => { k with utlb := t :: k.utlb })
    else
      let (v, s) := s.takeFree
      s.modCore n (fun k => { k with utlb := t :: l.eraseIdx (v % 64) })

/-- A cluster's walk cache takes an entry that it does not hold yet; which entry a full one gives up is a free value. -/
def State.walkCacheAdd (s : State) (c : Nat) (w : WalkEnt) : State :=
  let l := (s.cluster c).walkCache
  if l.contains w then s
  else if l.length < 32 then s.setCluster c { s.cluster c with walkCache := w :: l }
  else
    let (v, s) := s.takeFree
    s.setCluster c { s.cluster c with walkCache := w :: l.eraseIdx (v % 32) }

/-- What a walk leaves: its reads are counted, of the walker and of the ports that carried them (instance reads without encryption, R398), an ignored CONT is shown (R394), its walker's cache takes what it has found, but nothing
where it met poison (R399, R401). -/
def State.walked (s : State) (cl : Option Nat) (r : Combined) (g : WLog) : State :=
  let s := forL g.reads (fun a s => s.tookInst 1 a 8) (s.inc F.walkReads g.reads.length)
  let s := if g.cont then s.raise pgXlt 2 else s
  match r, cl with
  | .poison, _ => s
  | _, none => s
  | _, some c => forL g.fills (fun w s => s.walkCacheAdd c w) s

/-- Walk, and cache what the walk finds (R397, R401). -/
def State.walkFill (s : State) (cl : Option Nat) (ctx eva : Nat) : Combined × State :=
  let r := walk s (s.walkCacheOf cl) ctx eva
  let s := s.walked cl r.1 r.2
  match r.1 with
  | .ok t => (.ok t, s.tlbFill t)
  | r => (r, s)

/-- The answer of a walk to an access that needs a right. -/
def Combined.use (r : Combined) (eva right : Nat) : XRes :=
  match r with
  | .ok t => t.use eva right
  | .fault k st l i => .fault k st l i
  | .poison => .poison

/-- A core's micro-TLB takes what a walk has found. -/
def State.takeWalk (s : State) (core : Option Nat) : Combined → State
  | .ok t => s.utlbFill core t
  | .fault _ _ _ _ => s
  | .poison => s

/-- A cached translation of an EVA for a core: in its micro-TLB, else in the second level, whose hit is counted and fills the micro-TLB
(Table 11.6). -/
def State.cached (s : State) (core : Option Nat) (ctx eva : Nat) : Option Tlb × State :=
  match (core.elim [] (fun n => (s.core n).utlb)).find? (fun t => t.covers ctx eva) with
  | some t => (some t, s)
  | none =>
    match s.tlbFind ctx eva with
    | some t => (some t, (s.inc F.l2Hits 1).utlbFill core t)
    | none => (none, s.inc F.l2Misses 1)

/-- Translate an access to an EVA for a core or, with none, for the control plane: the caches, or a walk (R400). -/
def State.xlateEva (s : State) (core : Option Nat) (ctx eva right : Nat) : XRes × State :=
  match s.cached core ctx eva with
  | (some t, s) => (t.use eva right, s)
  | (none, s) =>
    let cl := core.map (fun n => n / 4)
    let s := cl.elim s (fun c => s.inc (F.clWalks c) 1)
    match s.walkFill cl ctx eva with
    | (r, s) => (r.use eva right, s.takeWalk core r)

/-- Translate an access of a core to an offset of a segment (R384). -/
def State.xlateAt (s : State) (core : Option Nat) (ctx seg off right : Nat) : XRes × State :=
  match segMap s ctx seg off right with
  | .error st => (.seg st, s)
  | .ok eva => s.xlateEva core ctx eva right

/-- The status of a fault of a kind (Table 11.9). -/
def faultStatus (kind : Nat) : Nat := if kind = 3 then 0x21 else 0x20

/-- Show a posted or failed fault in the XLT error registers (Table 11.16). -/
def State.xltErr (s : State) (ctx kind stage eva : Nat) : State :=
  s.setErr pgXlt (faultStatus kind) (ctx % 4096 + kind % 4 * 2 ^ 12 + stage % 2 * 2 ^ 14) eva

/-- Translate an access of the control plane, whose fault fails without a switch-out (Table 11.9). -/
def State.xlate (s : State) (ctx seg off right : Nat) : XRes × State :=
  match s.xlateAt none ctx seg off right with
  | (.fault k st l i, s) => (.fault k st l i, s.xltErr ctx k st ((s.rf (F.segBase ctx seg) + off) % 2 ^ 48))
  | r => r

/-- The HPAs and bytes of a span, cut at lines; the first failure answers (control-plane accesses: R307, R332, R347). -/
def State.xlateSpan (s : State) (ctx addr right : Nat) : List (Nat × List Byte) → Except Nat (List (Nat × List Byte)) × State
  | [] => (.ok [], s)
  | (o, bs) :: rest =>
    match s.xlate ctx (bits addr 48 4) o right with
    | (.ok h, s) =>
      match s.xlateSpan ctx addr right rest with
      | (.ok l, s) => (.ok ((h, bs) :: l), s)
      | (.error e, s) => (.error e, s)
    | (r, s) => (.error r.status, s)

/-- Read the pieces of a span under a slot: 0x30 where a line is poisoned. -/
def State.readPieces (s : State) (slot : Nat) : List (Nat × List Byte) → Except Nat (List Byte)
  | [] => .ok []
  | (h, bs) :: rest =>
    match s.readHpa slot h bs.length with
    | none => .error 0x30
    | some d =>
      match s.readPieces slot rest with
      | .ok r => .ok (d ++ r)
      | .error e => .error e

/-- A port shows an access that its key slot's state refused (R19, Table 12.8). -/
def State.slotRefused (s : State) (ctx hpa : Nat) : State := s.mpErr (s.portOf hpa) 0x52 ctx (s.rf (F.keySlot ctx)) 3 false hpa

/-- The same for the first access of a span. -/
def State.spanRefused (s : State) (ctx : Nat) (ps : List (Nat × List Byte)) : State :=
  match ps with
  | [] => s
  | p :: _ => s.slotRefused ctx p.1

/-- Read `n` bytes at an address of the R159 layout through a context's segments under its binding: the bytes, or the
status 0x20, 0x21, 0x22, 0x30 or 0x52. -/
def State.ctxRead (s : State) (ctx addr n : Nat) : Except Nat (List Byte) × State :=
  match s.xlateSpan ctx addr 1 (linePieces (n / 64 + 2) (addr % 2 ^ 48) (List.replicate n 0)) with
  | (.error e, s) => (.error e, s)
  | (.ok ps, s) =>
    match s.ctxSlot ctx with
    | none => (.error 0x52, s.spanRefused ctx ps)
    | some slot => (s.readPieces slot ps, s.tookPieces ctx slot ps)

/-- Write the pieces of a span under a slot, on behalf of a client. -/
def State.writePieces (s : State) (ctx slot : Nat) (cl : Client) : List (Nat × List Byte) → State
  | [] => s
  | (h, bs) :: rest => (s.request (writeReq h ctx slot cl bs false)).writePieces ctx slot cl rest

/-- Write bytes at an address of the R159 layout through a context's segments under its binding; 0 or the status. -/
def State.ctxWrite (s : State) (ctx addr : Nat) (bs : List Byte) (cl : Client) : Nat × State :=
  match s.xlateSpan ctx addr 2 (linePieces (bs.length / 64 + 2) (addr % 2 ^ 48) bs) with
  | (.error e, s) => (e, s)
  | (.ok ps, s) =>
    match s.ctxSlot ctx with
    | none => (0x52, s.spanRefused ctx ps)
    | some slot => (0, s.writePieces ctx slot cl ps)

/-! Faults (R408 to R410). -/

/-- Post a fault report when the ring has room and is enabled, else let it wait (R410, Table 11.12). -/
def Report.bytes (r : Report) (phase : Bool) : List Byte :=
  natLe 8 (r.eva % 2 ^ 48 + r.seg % 16 * 2 ^ 48) ++ natLe 8 (r.ipa % 2 ^ 52) ++ natLe 2 r.ctx
    ++ natLe 1 (r.kind % 4 + r.stage % 2 * 4 + r.level % 4 * 8 + b2n r.hint * 32 + b2n phase * 128)
    ++ natLe 1 (r.access % 8) ++ natLe 2 r.qn ++ natLe 2 0 ++ natLe 8 r.epoch

/-- Room in the fault ring (R410). -/
def State.fltRoom (s : State) : Bool :=
  s.rb F.fltEn && decide ((s.rf F.fltTail + 2 ^ 32 - s.rf F.fltHead) % 2 ^ 32 < 2 ^ s.rf F.fltLog2)

/-- A report waits until Drover 1 posts it (Table 11.11 step 4). -/
def State.queueReport (s : State) (r : Report) : State := { s with xlt := { s.xlt with reports := s.xlt.reports ++ [r] } }

/-- Report a fault unless the same context, page, stage and kind was reported since the switch-out (R409). -/
def State.report (s : State) (r : Report) : State :=
  let k : Reported := ⟨r.ctx, r.eva / 2 ^ 21, r.stage, r.kind⟩
  if s.xlt.reported.contains k then s
  else ({ s with xlt := { s.xlt with reported := k :: s.xlt.reported } }).queueReport r

/-- Remove the translations and the walk-cache entries that two tests select, wherever they are cached (R406, R407). -/
def State.tlbDrop (s : State) (p : Tlb → Bool) (w : WalkEnt → Bool) : State :=
  let s := forN 16 (fun n s => s.modCore n (fun k => { k with utlb := k.utlb.filter (fun t => !p t) })) s
  let s := forN 4 (fun c s => s.setCluster c { s.cluster c with walkCache := (s.cluster c).walkCache.filter (fun e => !w e) }) s
  { s with xlt := { s.xlt with tlb := s.xlt.tlb.filter (fun t => !p t) } }

end Sys2Proof.Machine
end

