-- ==== Sys2Proof/Machine/QueueOps.lean ====
section
/-! DEFINITION. The queue manager's shared operations: doorbells, slot reads, completion records, halts, signals
(08_commands_and_tiles.md, 09_contexts_queues_doorbells.md). -/

namespace Sys2Proof.Machine

/-- Difference of two 32-bit counts. -/
def sub32 (a b : Nat) : Nat := (a + 2 ^ 32 - b % 2 ^ 32) % 2 ^ 32

/-- The context through whose segments a queue's rings are addressed (R333). -/
def ringCtx (q : Nat) : Nat := if q % 8 = 0 then 0 else q / 8

/-! Opcodes (Table 8.2). -/

/-- The slots of an opcode; none for a reserved one (R280). -/
def opSlots (op : Nat) : Option Nat :=
  if op ≤ 0x07 ∨ op = 0x40 then some 1 else if 0x80 ≤ op ∧ op ≤ 0x8A then some 2 else none
/-- Bit 7 marks a critical command. -/
def opCritical (op : Nat) : Bool := decide (0x80 ≤ op)
/-- A command that only a steward queue accepts. -/
def opSteward (op : Nat) : Bool := decide (0x40 ≤ op)

/-! Doorbells (R334, R344). -/

/-- Whether the queue's context takes a TAIL write (Table 9.8). -/
def State.ctxLive (s : State) (c : Nat) : Bool := s.rf (F.ctxState c) == 1 || s.rf (F.ctxState c) == 2

/-- R334: a written TAIL value is in range. A value that names the current TAIL again is accepted. -/
def tailOk (head tail log2 v : Nat) : Bool :=
  decide (v = tail) || (decide (0 < sub32 v head) && decide (sub32 v head ≤ 2 ^ log2) && decide (sub32 v tail < 2 ^ 31))

/-- R344: a written CQ_HEAD value is in range. -/
def cqHeadOk (cqTail cqHead log2 v : Nat) : Bool :=
  decide (sub32 cqTail v ≤ 2 ^ log2) && decide (sub32 v cqHead < 2 ^ 31)

/-- A write to a queue's TAIL (R334); an inlet's own doorbell is not a host write (R273). -/
def State.doorbell (s : State) (q v : Nat) (fromInlet : Bool) : State :=
  if !s.ctxLive (q / 8) then s
  else match s.driver q, fromInlet with
    | some n, false => s.raise (pgSi n) 3
    | _, _ =>
      if tailOk (s.rf (F.qHead q)) (s.rf (F.qTail q)) (s.rf (F.qLog2 q)) v then s.wf (F.qTail q) v
      else s.wb (F.qDbReject q) true

/-- Room for one more record (R341). -/
def State.cqRoom (s : State) (q : Nat) : Bool :=
  decide ((s.queue q).reserved + sub32 (s.rf (F.cqTail q)) (s.rf (F.cqHead q)) < 2 ^ s.rf (F.cqLog2 q))

/-- A write to CQ_HEAD (R344); CQ_FULL ends when an entry can be reserved (R341). -/
def State.cqHeadWrite (s : State) (q v : Nat) : State :=
  if s.rf (F.ctxState (q / 8)) = 0 then s
  else if cqHeadOk (s.rf (F.cqTail q)) (s.rf (F.cqHead q)) (s.rf (F.cqLog2 q)) v then
    let s := s.wf (F.cqHead q) v
    if s.cqRoom q then s.wb (F.qCqFull q) false else s
  else s.wb (F.qDbReject q) true

/-! Slots (R328, R336). -/

/-- The address of slot `p`: Q_BASE plus 128 times its ring position. -/
def State.slotAddr (s : State) (q p : Nat) : Nat := s.rf (F.qBase q) + 128 * (p % 2 ^ s.rf (F.qLog2 q))

/-- Read slot `p`'s 128 bytes. -/
def State.readSlot (s : State) (q p : Nat) : Except Nat (List Byte) × State := s.ctxRead (ringCtx q) (s.slotAddr q p) 128

/-- SEQ of a first slot or SEQ2 of a second one: both stand at bytes 2 and 3 of the slot. -/
def slotSeq (bs : List Byte) : Nat := fldOf bs 2 2

/-! Halts (R311, R346). -/

/-- Halt without a record; the queue's message is sent (R346, R347). -/
def State.haltNoRecord (s : State) (q reason : Nat) : State := (s.halt q reason).sendVec (s.rf (F.qVector q))

/-- Halt without a record where a slot read fails (R347): every fetched command is earlier than that slot and stays pending. -/
def State.haltFetch (s : State) (q reason : Nat) : State :=
  (((s.wb (F.qHalted q) true).wf (F.qReason q) reason).modQueue q (fun v => { v with refetch := none })).sendVec (s.rf (F.qVector q))

/-- The message of R313: bytes 0 to 239 and the queue number. -/
def tagMessage (q : Nat) (bs : List Byte) : List Nat := toNats (bs.take 240) ++ natL 2 q

/-- Whether the tag verifies under the command key of the queue's context (R313). -/
def State.tagOk (s : State) (q : Nat) (bs : List Byte) : Bool :=
  match tblFind s.cmdKeys (q / 8) with
  | none => false
  | some k => (cmac (natB 32 k) (tagMessage q bs)).take 8 == toNats ((bs.drop 248).take 8)

/-! Completion records (R310, R342, Table 8.11). -/

/-- The 32 bytes of a completion record. -/
def recordBytes (seq status op tiles epoch slow win : Nat) (halted phase : Bool) (detail : Nat) : List Byte :=
  natLe 2 seq ++ natLe 1 status ++ natLe 1 op ++ natLe 4 tiles ++ natLe 8 epoch ++ natLe 2 slow ++ natLe 1 win
    ++ natLe 1 (b2n halted + 128 * b2n phase) ++ natLe 4 detail ++ natLe 8 0

/-- Whether a record with this status halts the queue (R311). -/
def Cmd.haltsQueue (c : Cmd) : Bool :=
  c.status == 0x14 || c.status == 0x15 || c.status == 0x40 || (decide (0x10 ≤ c.status) && c.flag 1 3) || c.halts

/-- PHASE of record number `n` (R342). -/
def recPhase (n log2 : Nat) : Bool := n / 2 ^ log2 % 2 == 0

/-- Write the completion record of a command: 0, or the status of the failed write (R348). -/
def State.putRecord (s : State) (c : Cmd) : Nat × State :=
  let q := c.qn
  let n := s.rf (F.cqTail q)
  let log2 := s.rf (F.cqLog2 q)
  let ctx := q / 8
  s.ctxWrite (ringCtx q) (s.rf (F.cqBase q) + 32 * (n % 2 ^ log2))
    (recordBytes (c.slot % 2 ^ 16) c.status (if c.opFF then 0xFF else c.opcode) c.tilesDone s.now (s.rf (F.slowVal ctx))
      (s.rf (F.slowWin ctx)) c.haltsQueue (recPhase n log2) c.detail)
    (.record q c.slot)

/-- Take a command out of the machine; its directory locks (R220), its drain and its hold on admission end. -/
def State.dropCmd (s : State) (c : Cmd) : State :=
  { s with cmds := s.cmds.filter (fun d => !(d.qn == c.qn && d.slot == c.slot)),
           kvd := { s.kvd with locks := s.kvd.locks.filter (fun l => !(l.1 == c.qn && l.2.1 == c.slot)) },
           xlt := { s.xlt with drains := s.xlt.drains.filter (fun d => !(d.qn == c.qn && d.slot == c.slot)),
                               holds := s.xlt.holds.filter (fun h => !(h.2.1 == c.qn && h.2.2 == c.slot)) } }

/-- The KVD page shows the status of a directory command that completes with an error, and the bad reference that caused it (Table 6.20,
R635). -/
def State.kvdError (s : State) (c : Cmd) : State :=
  if 3 ≤ c.opcode ∧ c.opcode ≤ 6 ∧ ¬ c.opFF ∧ 0x10 ≤ c.status then
    s.setErr pgKvd c.status (if c.status = 0x33 ∧ s.rf (F.errInfo pgKvd) % 16 = 5 then s.rf (F.errInfo pgKvd) else 0) 0
  else s

/-- The counts after a record: CQ_TAIL and HEAD advance, the reservation is used (R330, R342). A QUEUE_STALE of R337 leaves
HEAD at the command's first slot (R338), and HEAD stays below a command whose record could not be written (R348). -/
def State.afterRecord (s : State) (c : Cmd) : State :=
  let s := (s.kvdError c).inc (F.cqTail c.qn) 1
  let s := if (c.status = 0x40 ∧ c.opFF) ∨ (s.queue c.qn).headStop then s else s.wf (F.qHead c.qn) (c.slot + c.len)
  (s.dropCmd c).modQueue c.qn (fun v => { v with reserved := v.reserved - 1, progress := true })

/-- Save-record bytes of a queue (Table 10.5). -/
def saveBytes (q epoch : Nat) (es : List (Nat × Nat × Nat × Nat × Nat)) : List Byte :=
  let body := (es.take 2).flatMap (fun e =>
    natLe 2 e.1 ++ natLe 1 (e.2.1 % 8 + 8) ++ natLe 1 0 ++ natLe 4 e.2.2.1 ++ natLe 4 e.2.2.2.1 ++ natLe 4 e.2.2.2.2)
  natLe 2 q ++ natLe 1 (min 2 es.length) ++ natLe 5 0 ++ natLe 8 epoch ++ body ++ List.replicate (48 - body.length) 0

/-! Signals (R428 to R430, R648, R658). -/

/-- Whether the signal location is 8 B aligned memory: its address with the low bits ignored (R652). -/
def sigAddr (a : Nat) : Nat := a / 8 * 8 % 2 ^ 52

/-- Discard what Broxa holds prefetched for a context (R306, R133, R139). -/
def State.acquire (s : State) (ctx : Nat) : State :=
  forN 16 (fun n s =>
    let s := forN 2 (fun h s => if s.rb (F.cbsValid n h) ∧ s.rf (F.cbsCtx n h) = ctx then s.wb (F.cbsValid n h) false else s) s
    let k := s.core n
    if k.runFor.any (fun r => r.1 / 8 == ctx) then
      (s.inc (F.wduDrop n) (k.runOn / 64)).setCore n { k with runOn := 0, ahead := [], runFor := none } else s) s

/-- A tile of the command runs on some core. -/
def State.hasTile (s : State) (qn slot : Nat) : Bool :=
  (List.range 16).any (fun n => match (s.core n).tile with
    | some t => t.qn == qn && t.slot == slot
    | none => false)

/-- The command of a queue that is in phase 4 with an opcode, its action not yet taken. -/
def State.phase4 (s : State) (q op : Nat) : Option Cmd :=
  s.cmds.find? (fun c => c.qn == q && c.phase == 4 && !c.acted && !c.parked && c.opcode == op)

/-- TARGET of a critical command (R281), of CTX_RESUME and of FLOCK_BIND. -/
def Cmd.target (c : Cmd) : Nat := c.fld 48 2

/-- Another command of a context is pending: fetched, and without its record. -/
def State.otherPending (s : State) (ctx : Nat) (c : Cmd) : Bool :=
  s.cmds.any (fun d => d.ctx == ctx && !(d.qn == c.qn && d.slot == c.slot))

/-- Mark progress of a queue's sheepdog (Table 16.1). -/
def State.qProgress (s : State) (q : Nat) : State := s.modQueue q (fun v => { v with progress := true })

/-- The end of phase 2: phase 3 discards, and phase 4 begins (R304, R306). -/
def State.enter4 (s : State) (c : Cmd) : State :=
  let s := if c.flag 1 0 then s.acquire c.ctx else s
  (s.setCmd { c with phase := 4, reached := true }).qProgress c.qn

/-- Finish a command before its phase 4, with a status of its own (R307, R305). -/
def State.failCmd (s : State) (c : Cmd) (status : Nat) : State :=
  (s.setCmd { c with phase := 5, status := status, failed := true, acted := true }).qProgress c.qn

/-- The context through whose segments a command's header addresses go. -/
def Cmd.addrCtx (c : Cmd) : Nat := c.ctx

/-- The signal's line is held by an atomic or a merge (R430, R443): its read waits. -/
def State.sigHeld (s : State) (c : Cmd) : Bool :=
  let a := sigAddr (c.fld 24 8)
  match (s.xlate c.addrCtx (bits a 48 4) (a % 2 ^ 48) 1).1 with
  | .ok h => s.txns.any (fun t => t.hold && lineOf t.hpa == lineOf h)
  | .seg _ | .fault _ _ _ _ | .poison => false

/-- Read the signal at WAIT_ADDR and leave phase 2 when it is met (R305). -/
def State.waitRead (s : State) (c : Cmd) : State :=
  if s.sigHeld c then s.setCmd { c with phase := 2 }
  else match s.ctxRead c.addrCtx (sigAddr (c.fld 24 8)) 8 with
  | (.error e, s) => s.failCmd c e
  | (.ok bs, s) =>
    if c.fld 32 8 ≤ leNat bs then s.enter4 c else s.setCmd { c with phase := 2 }

/-- Every command that waits in phase 2 reads its signal again (R305). -/
def State.rereadAll (s : State) : State := forL (s.cmds.filter (fun c => c.phase == 2)) (fun c s => s.waitRead c) s

/-- Perform the signal's add of phase 7: far, as an outstanding atomic of the fabric, or near, by the port itself (R429, R430). -/
def State.signalAdd (s : State) (g : Sig) : State :=
  let a := sigAddr g.addr
  let ctx := g.qn / 8
  match s.xlate ctx (bits a 48 4) (a % 2 ^ 48) 4 with
  | (.ok h, s) =>
    match s.ctxSlot ctx with
    | none => (s.slotRefused ctx h).sigFail g.qn g.slot 0x52
    | some slot =>
      s.request (atomicReq (if s.rb F.farAtomic ∧ ¬ s.encrypts slot then 2 else 3) h ctx slot (.signal g.qn g.slot) g.add)
  | (r, s) => s.sigFail g.qn g.slot r.status

/-- An access for a client is outstanding or waits. -/
def State.clientBusy (s : State) (p : Client → Bool) : Bool := s.txns.any (fun t => p t.client) || s.waiting.any (fun r => p r.client)

/-- The record of a signal's command is not yet visible (R25, R423). -/
def State.sigWaits (s : State) (g : Sig) : Bool := s.clientBusy (fun c => c == .record g.qn g.slot)

/-- The signal updates whose records are visible are made (R25). -/
def State.sigsReady (s : State) : State :=
  let l := s.sigs.filter (fun g => !s.sigWaits g)
  forL l (fun g s => s.signalAdd g) { s with sigs := s.sigs.filter (fun g => s.sigWaits g) }

/-- Phases 6 to 8 of a command (R304, R25): record, signal, message. -/
def State.complete (s : State) (c : Cmd) : State :=
  match s.putRecord c with
  | (0, s) =>
    let s := s.afterRecord c
    let s := if c.haltsQueue then s.halt c.qn c.status else s
    let s := if c.flag 1 2 ∨ c.haltsQueue then s.sendVecAfter (s.rf (F.qVector c.qn)) c.qn c.slot else s
    if c.flag 1 6 ∧ c.status < 0x10 then State.sigsReady { s with sigs := s.sigs ++ [⟨c.qn, c.slot, c.fld 8 8, c.fld 16 8⟩] } else s
  | (e, s) => ((s.dropCmd c).haltNoRecord c.qn e).modQueue c.qn (fun v => { v with headStop := true })

end Sys2Proof.Machine
end

