-- ==== Sys2Proof/Machine/ResetOps.lean ====
section
/-! DEFINITION. Taking a reset: what each reset level clears and keeps, quiesce, and what starts each level
(16_sheepdogs_resets_recovery.md, 19_register_reference.md R638 and R639). -/

namespace Sys2Proof.Machine

/-! Register resets by domain (Table 19.1, R638, R639). -/

/-- Registers that P00 holds: SHM, PWR, HUP and SHD pages, and EPOCH_NS, EPOCH_COUNT and RESET_CAUSE (Table 19.1). -/
def inP00 (o : Nat) : Bool :=
  o == 0x40 || o == 0x48 || o == 0x84 || (decide (0x1000 ≤ o) && decide (o < 0x4000))
    || (decide (0x100000 ≤ o) && decide (o < 0x200000) && o % 0x10000 / 0x1000 == 5)

/-- What a register holds after its domain has been off: RW and RWL fields come back from the shadow, PG_LOCK stays, and
counters, state fields and EV_RAW restart (R636, R638). -/
def afterOff (o : Nat) (v : W64) : W64 :=
  match regAt o with
  | none => resetVal o
  | some r =>
    if o - r.loc.base = 0x38 then v
    else BitVec.ofNat 64 (r.row.fields.foldl
      (fun a f => if f.acc = .rw ∨ f.acc = .rwl ∨ f.acc = .ctx0 then setBits a f.lo f.w (bits v.toNat f.lo f.w) else a)
      (resetVal o).toNat)

/-- Reset the registers of a range whose domain has been off (R638). -/
def State.offRegs (s : State) (lo hi : Nat) : State :=
  forL (s.regs.filter (fun e => decide (lo ≤ e.1) && decide (e.1 < hi))) (fun e s => s.setReg e.1 (afterOff e.1 e.2)) s

/-- Every register field outside P00 takes its reset value (R552, R639). -/
def State.resetP02Up (s : State) : State := { s with regs := s.regs.filter (fun e => inP00 e.1) }

/-! Units. -/

/-- The core holds no tile any more; its page shows it. -/
def State.clearTile (s : State) (n : Nat) : State :=
  let s := (((s.wb (F.tsqActive n) false).wb (F.mxeActive n) false).wb (F.vxeActive n) false).wb (F.ateActive n) false
  (s.wf (F.atePins n) 0).modCore n (fun k => { k with tile := none, powering := false })

/-- Discard responses still owed to a core's reads (Table 16.4 step 2): their transactions serve nobody; accesses of its tile that no
port has accepted are not made. -/
def State.orphan (s : State) (n : Nat) : State :=
  let mine (c : Client) : Bool := match c with
    | .tile k _ => k == n
    | .runOn k _ => k == n
    | .runDrop k => k == n
    | .command _ _ | .record _ _ | .signal _ _ | .inlet _ _ | .nobody => false
  { s with txns := s.txns.map (fun t => if mine t.client then { t with client := .nobody } else t),
           waiting := s.waiting.filter (fun r => !mine r.client && r.core != some n) }

/-- A run-on read of core `n` serves nothing any more. -/
def Client.stale (n : Nat) : Client → Client
  | .runOn m a => if m = n then .runDrop n else .runOn m a
  | c => c

/-- Run-on data are discarded, and counted: those held now, those in flight when they come (R139). -/
def State.dropAhead (s : State) (n : Nat) : State :=
  let k := s.core n
  if k.runFor.isNone then s
  else
    let s := s.inc (F.wduDrop n) (k.runOn / 64)
    let s : State := { s with txns := s.txns.map (fun t => { t with client := t.client.stale n }),
                              waiting := s.waiting.filter (fun r => r.client.stale n != .runDrop n) }
    s.modCore n (fun k => { k with runOn := 0, ahead := [], runFor := none })

/-- Both CBS halves of a core are not VALID (R136). -/
def State.cbsClear (s : State) (n : Nat) : State := (s.wf (F.cbsReg n 0) 0).wf (F.cbsReg n 1) 0

/-- A core's domain switches off: it loses its state (R564, R136, R638). -/
def State.coreOff (s : State) (n : Nat) : State :=
  let s := (s.orphan n).offRegs (pgMxe n) (pgTsq n + 0x1000)
  let k := s.core n
  let s := s.setCore n { Core.init with own := k.own, quiesceReq := k.quiesceReq, rstLog := k.rstLog, lastLent := k.lastLent,
                                        serving := k.serving, rstAfter := k.rstAfter }
  let s := s.wb (F.domain (coreDom n)) false
  s.wf (F.clCoresOn (n / 4)) (setBits (s.rf (F.clCoresOn (n / 4))) (n % 4) 1 0)

/-- A core's domain switches on. -/
def State.coreOn (s : State) (n : Nat) : State :=
  let s := (s.wb (F.domain (coreDom n)) true).wb (F.gated n) false
  s.wf (F.clCoresOn (n / 4)) (setBits (s.rf (F.clCoresOn (n / 4))) (n % 4) 1 1)

/-! Quiesce (R18, R21). -/

/-- The MXE stops without ramp-down (R109). -/
def State.mxeStop (s : State) (n : Nat) : State :=
  (((s.wf (F.mxePhase n) 0).wf (F.mxeLevel n) 0).wb (F.mxeFiller n) false).modCore n (fun k => { k with act := 0, fillLeft := 0, ramp := 0 })

/-- A core whose tile has ended and for which a quiesce is pending is quiesced (R21 action 1); the MXE of a core that quiesces for
a save stops (R109). -/
def State.quiesceNow (s : State) (n : Nat) : State :=
  if (s.core n).quiesceReq ≠ 0 ∧ (s.core n).tile.isNone then
    let s := (s.dropAhead n).wb (F.tsqQuiesced n) true
    if bit (s.core n).quiesceReq 1 then s.mxeStop n else s
  else s

/-- Ask a core to quiesce at its tile boundary; `why` is the asker's bit. -/
def State.quiesceCore (s : State) (why n : Nat) : State :=
  (s.modCore n (fun k => { k with quiesceReq := setBits k.quiesceReq why 1 1 })).quiesceNow n

/-- Release a core from one asker's quiesce. -/
def State.unquiesceCore (s : State) (why n : Nat) : State :=
  let s := s.modCore n (fun k => { k with quiesceReq := setBits k.quiesceReq why 1 0 })
  if (s.core n).quiesceReq = 0 then s.wb (F.tsqQuiesced n) false else s

/-- Every core of the instance. -/
def State.quiesceAll (s : State) (why : Nat) : State := forN 16 (fun n s => s.quiesceCore why n) s
def State.unquiesceAll (s : State) (why : Nat) : State := forN 16 (fun n s => s.unquiesceCore why n) s

/-- Whether every core of a list has quiesced. -/
def State.allQuiesced (s : State) (l : List Nat) : Bool := l.all (fun n => s.rb (F.tsqQuiesced n) || !s.domOn (coreDom n))

/-- PG_STAT.QUIESCED of the pages with a quiesce request: 1 when every affected core has quiesced (R632). -/
def State.quiescedBits (s : State) : State :=
  let s := if s.rb (F.pgQuiesceReq 0) ∧ s.allQuiesced (List.range 16) then s.wb (F.pgQuiesced 0) true else s
  let s := forN 4 (fun c s => if s.rb (F.pgQuiesceReq (pgCl c)) ∧ s.allQuiesced [4 * c, 4 * c + 1, 4 * c + 2, 4 * c + 3]
    then s.wb (F.pgQuiesced (pgCl c)) true else s) s
  forN 16 (fun n s => if s.rb (F.pgQuiesceReq (pgTsq n)) ∧ s.allQuiesced [n] then s.wb (F.pgQuiesced (pgTsq n)) true else s) s

/-! Collectives and inlets that a save or a reset ends (Tables 7.10 and 13.8). -/

/-- End one collective with a status: its reads are given back (R478). -/
def State.endColl (s : State) (k : Coll) (status : Nat) : State :=
  let s := (s.modCmd k.qn k.slot (fun c => c.done status)).wf (F.pReads k.part) (s.rf (F.pReads k.part) - 256)
  { s with flock := { s.flock with colls := s.flock.colls.filter (fun x => !(x.qn == k.qn && x.slot == k.slot)) } }

/-- End every collective with a status. -/
def State.endColls (s : State) (status : Nat) : State := forL s.flock.colls (fun k s => s.endColl k status) s

/-! Links and the flock at the start (R464, R603). -/

/-- A port begins: it trains when its PHY is ready and EN is set, else it is DOWN (R457, R603). The counts under LINK slots
stay (R452). -/
def State.trainPort (s : State) (n : Nat) : State :=
  let up := bit s.pins.phyReady n && s.rb (F.lkEn n)
  let k := s.link n
  let s := (s.wf (F.lkState n) (b2n up)).wf ⟨pgLk n + 0x48, 0, 32⟩ 0
  (s.wf (F.lkHeld n) 0).setLink n { Link.init with start := s.now, slotCount := k.slotCount, sent := k.sent }

/-- Step 7 of Table 13.5: the flock is READY, or READY_DEGRADED. -/
def State.flockReady (s : State) (degraded : Bool) : State := (s.wf F.flkState (if degraded then 4 else 3)).raise (pgLk 0) 2

/-- A Bellwether none of whose ports trains is a flock of one (R603). -/
def State.flockAlone (s : State) : State :=
  if s.rb F.flkBw ∧ (List.range 4).all (fun n => s.rf (F.lkState n) == 0) then
    let s := ((s.wf F.flkCount 1).wf F.flkMembers 1).wf (F.route 0) 4
    (State.flockReady { s with flock := { s.flock with joined := true } } (decide (1 < s.rf F.expect)))
  else s

/-- Steps 3 and after of Table 13.5 begin: every port trains. -/
def State.flockStart (s : State) : State :=
  let s := forN 4 (fun n s => s.trainPort n) s
  let s := s.wf F.flkState 1
  s.flockAlone

/-- An inlet discards its open frame, which counts as dropped (Table 7.10, R602). -/
def State.inletDiscard (s : State) (n : Nat) : State :=
  let k := s.inlet n
  if k.inFrame then
    (((s.inc (F.siDropped n) 1).raise (pgSi n) 1).setInlet n { k with inFrame := false, part := [] }).wf (F.siState n) 1
  else s

/-- A quiesce for hold-up, for a reset or for a firmware update discards every open frame (Table 7.10). -/
def State.discardFrames (s : State) : State := forN 32 (fun n s => s.inletDiscard n) s

/-! Instance reset (R552, Table 16.6). -/

/-- The records that wait for their ports are written before the ports switch off. -/
def State.landRecords (s : State) : State :=
  let mine (r : Req) : Bool := r.op == 1 && (match r.client with
    | .record _ _ => true
    | _ => false)
  forL (s.waiting.filter mine) (fun r s => (s.writeLine r.slot r.hpa r.bytes r.bad).1) s

/-- The 0x51 records of step 2: every fetched, uncompleted command, in queue order, with no signal and no message. -/
def State.resetRecords (s : State) : State :=
  State.landRecords (forL s.cmds (fun c s => ((s.putRecord { c with status := 0x51, detail := 0xFFFFFFFF }).2).afterRecord c) s)

/-- The GLB page's event message, the only message of the reset (R552). A member that is not the Bellwether does not drive IRQ_MSG (R468): its
message leaves as an IRQ flit with its ports, whose record of flits the reset ends. -/
def State.resetMessage (s : State) : State :=
  if s.rb (F.evMsgEn 0) ∧ s.rf F.hostState = 0 ∧ ¬ (s.flock.joined ∧ ¬ s.rb F.flkBw) then
    let v := s.rf (F.evVector 0)
    { s with pins := { s.pins with irqSent := ⟨some v, s.rf (F.vecAddr v), s.rf (F.vecData v), none⟩ :: s.pins.irqSent,
                                   irqQ := [] } }
  else { s with pins := { s.pins with irqQ := [] } }

/-- P01 to P29 lose their state (step 3): registers, memories, queues and units; P00, the HSA, the pins, shared memory and
the key store's fixed slots stay. -/
def State.powerCycleAll (s : State) : State :=
  { s.resetP02Up with
    wlatch := [], rlatch := [], csb := [], csbPoison := [], csbMap := [], queues := [], cmds := [], cores := [],
    clusters := [], xlt := Xlt.init, kvd := Kvd.init, grz := Grz.init, slow := [], closing := [], inlets := [], links := [],
    flock := Flock.init, drovers := [], emu := [], txns := [], waiting := [], sigs := [], checked := [],
    pwr := { s.pwr with calQ := [] },
    boot := { s.boot with discard := s.boot.discard ++ s.txns.map (fun t => (t.port, t.id)) } }

/-- Key slots 2 to 63 are EMPTY after an instance reset (Table 16.7, Table 14.16). -/
def State.dropKeys (s : State) : State :=
  let s := forN 62 (fun i s => s.wf ⟨0x1200 + 8 * (i + 2), 0, 64⟩ (s.rf (F.slGen (i + 2)) * 2 ^ 16)) s
  { s with keys := s.keys.filter (fun e => decide (e.1 < 2)) }

/-- Three instance resets within 2^24 EPOCHs ask the tray for a power cycle (R555). -/
def thirdReset (now : Nat) (l : List Nat) : Bool := decide (3 ≤ (l.filter (fun e => decide (now - e < 2 ^ 24))).length)

/-- Assert TRAY_PWRCYC_REQ and keep P01 to P29 off until POR_N (R555). -/
def State.trayRequest (s : State) : State :=
  (({ s with pins := { s.pins with trayReq := true }, boot := { s.boot with phase := .tray } }).powerCycleAll).wf F.domains 1

/-- Steps 1 and 2 of Table 16.6: the records of the commands in flight and the reset's message; a save waits for no reset that
the failing supply interrupts. A reset ends a pause of the Shepherd, for which log entries wait (DESIGN CHOICE, assumption 130). -/
def State.resetFirst (s : State) (cause : Nat) (records : Bool) : State :=
  let s := s.logWaiting
  let s := if cause = 2 then s.logEv 8 0 0 0 0 else s
  let s := if records then s.resetRecords else s
  let s := s.resetMessage
  if s.rf F.holdState = 0 ∧ s.pins.pwrWarn then
    { s with hsa := { s.hsa with areaA := s.hsa.areaA.map (fun a => { a with superseded := true }),
                                 areaB := s.hsa.areaB.map (fun a => { a with superseded := true }) } }
  else s

/-- Every core has been reset: no sheepdog of it has expired since, no reset of it runs (Table 16.11), no request for one waits. -/
def State.coresReset (s : State) : State := forN 16 (fun n s => (s.setReg (F.shdEngRst n).off 0).wb (F.pgResetReq (pgShd n)) false) s

/-- Step 3 of Table 16.6: P01 to P29 are off, the key slots that are not fixed are EMPTY, RESET_CAUSE shows the cause. -/
def State.resetTake (s : State) (cause : Nat) : State :=
  let log := s.now :: s.boot.resets
  let t := (s.powerCycleAll).dropKeys.coresReset
  let t := { t with boot := { t.boot with phase := .resetting, resets := log, rstStart := s.now, rst := true } }
  let t := ((t.wf F.domains 1).wf F.resetCause cause).inc F.resetCount 1
  if thirdReset s.now log then t.trayRequest else t

/-- After an instance reset the directory and the free ring are undefined (R233): free bytes stand in their place. The block tables, whose
places only the sequence records of contexts name, are left as they are (DESIGN CHOICE, assumption 123). -/
def State.dirUndefined (s : State) : State :=
  if !s.rb (F.pgEn pgKvd) then s
  else
    let (v, s) := s.takeFree
    let dir := freeBytes v 0 (16 * s.rf F.dirCount)
    let ring := freeBytes v dir.length (4 * 2 ^ s.rf F.ringLog2)
    { s with mem := memPut (memPut s.mem (s.rf F.dirBase) dir) (s.rf F.ringBase) ring }

/-- Begin an instance reset with a cause (R552). `records` tells whether the queue manager's state is good, so that the
records of step 2 are written. -/
def State.instanceReset (s : State) (cause : Nat) (records : Bool) : State := (s.resetFirst cause records).dirUndefined.resetTake cause

/-- A failed consistency check of shared state resets the instance with cause 3 (R545). -/
def State.consistencyFail (s : State) (inQueueManager : Bool) : State := s.instanceReset 3 (!inQueueManager)

/-- Poison in shared metadata resets the instance with cause 2 (R438). -/
def State.sharedPoison (s : State) (inQueueManager : Bool) : State := s.instanceReset 2 (!inQueueManager)

end Sys2Proof.Machine
end

