-- ==== Sys2Proof/Machine/KvOps.lean ====
section
/-! DEFINITION. The KV block directory: entries, caches, reference counts, pins, the free FIFO and the free ring
(06_kv_block_directory.md). -/

namespace Sys2Proof.Machine

/-! Entries (Table 6.1). -/

/-- The entry that 128 bits spell. -/
def dirDec (x : Nat) : DirEnt :=
  { addr := bits x 0 47 * 32, owner := bits x 47 12, ref := bits x 64 16, st := bits x 80 3, fmt := bits x 83 1, kind := bits x 84 1,
    dcode := bits x 85 3, valid := bits x 88 7, gen := bits x 96 8 }

/-- The 16 bytes of an entry; reserved bits are zero. -/
def DirEnt.bytes (e : DirEnt) : List Byte :=
  natLe 8 (e.addr / 32 % 2 ^ 47 + e.owner % 2 ^ 12 * 2 ^ 47)
    ++ natLe 8 (e.ref % 2 ^ 16 + e.st % 8 * 2 ^ 16 + e.fmt % 2 * 2 ^ 19 + e.kind % 2 * 2 ^ 20 + e.dcode % 8 * 2 ^ 21
      + e.valid % 128 * 2 ^ 24 + e.gen % 256 * 2 ^ 32)

/-- The eight head dimensions, by DCODE (Table 6.1). -/
def headDims : List Nat := [32, 64, 80, 96, 128, 160, 192, 256]

def State.dirAddr (s : State) (id : Nat) : Nat := s.rf F.dirBase + 16 * id

/-- The entry of a block as memory holds it, read under slot 0 (R441), or none when its line is poisoned. -/
def State.dirRaw (s : State) (id : Nat) : Option DirEnt := (s.readHpa 0 (s.dirAddr id) 16).map (fun b => dirDec (leNat b))

/-- A write for the instance under slot 0 (R441). -/
def State.instWrite (s : State) (a : Nat) (bs : List Byte) : State := s.instPut 0 a bs false false

/-- A step of the directory unit: the next state, or the state after the instance reset that it caused (R208, R545). -/
abbrev KvR := Except State State

/-- A cluster's copy of an entry (R207). -/
def State.dirCopy (s : State) (cl : Option Nat) (id : Nat) : Option DirEnt :=
  match cl with
  | none => none
  | some c => ((s.cluster c).dirCache.find? (fun p => p.id == id)).map (fun p => p.ent)

/-- Read an entry, for a cluster from its copy, else from memory (R207): poison there is poison in shared metadata (R208). -/
def State.dirGet (s : State) (cl : Option Nat) (id : Nat) : Except State (DirEnt × State) :=
  match s.dirCopy cl id with
  | some e => .ok (e, s)
  | none =>
    let s := s.tookInst 0 (s.dirAddr id) 16
    match s.dirRaw id with
    | some e => .ok (e, s)
    | none => .error (s.sharedPoison false)

/-- Write an entry: memory, the requesting cluster's copy; the other caches' copies go (R207). -/
def State.dirPut (s : State) (cl : Option Nat) (id : Nat) (e : DirEnt) : State :=
  let s := s.instWrite (s.dirAddr id) e.bytes
  forN 4 (fun c s =>
    let k := s.cluster c
    s.setCluster c { k with dirCache := if cl = some c then k.dirCache.map (fun p => if p.id = id then { p with ent := dirDec (leNat e.bytes) } else p)
                                        else k.dirCache.filter (fun p => !(p.id == id)) }) s

/-! The directory caches (R207, R377). -/

/-- Entries that a partition holds in a cluster's cache. -/
def dirHeld (l : List DirCopy) (p : Nat) : Nat := (l.filter (fun e => e.part == p)).length

/-- An entry read from memory enters a cluster's cache; a fill that must evict follows R377. -/
def State.dirFill (s : State) (cl : Nat) (d : DirCopy) : State :=
  let l := (s.cluster cl).dirCache
  if l.length < 8192 then s.setCluster cl { s.cluster cl with dirCache := d :: l }
  else
    let above := l.filter (fun e => decide (32 * s.rf (F.pMinDir e.part) < dirHeld l e.part))
    let cand := if above.isEmpty then l.filter (fun e => e.part == d.part) else above
    let (v, s) := s.takeFree
    match cand[v % max 1 cand.length]? with
    | none => s
    | some e => s.setCluster cl { s.cluster cl with dirCache := d :: l.filter (fun x => decide (x ≠ e)) }

/-- Look a block up through a cluster's cache: a hit is served from the copy, a miss reads memory and fills it (R207, R208). -/
def State.dirLookup (s : State) (cl part id : Nat) : Except State (DirEnt × State) :=
  match s.dirCopy (some cl) id with
  | some e => .ok (e, s.inc (F.clDircHits cl) 1)
  | none =>
    let s := s.inc (F.clDircMisses cl) 1
    match s.dirGet none id with
    | .error s => .error s
    | .ok (e, s) => .ok (e, s.dirFill cl ⟨id, part, e⟩)

/-! The free path (R212, R213). -/

def State.ringAddr (s : State) (i : Nat) : Nat := s.rf F.ringBase + 4 * (i % 2 ^ s.rf F.ringLog2)

/-- Push an ID to the free ring. -/
def State.ringPush (s : State) (id : Nat) : State :=
  let s := s.instWrite (s.ringAddr s.kvd.ringTail) (natLe 4 id)
  { s with kvd := { s.kvd with ringTail := (s.kvd.ringTail + 1) % 2 ^ 32 } }

/-- IDs in the free ring. -/
def State.ringCount (s : State) : Nat := sub32 s.kvd.ringTail s.kvd.ringHead

/-- Free a block: into the FIFO as QUEUED while it has room, else into the ring as FREE (R212). An entry that is neither
IN_USE nor PINFOLD fails a consistency check (R545). -/
def State.kvFree (s : State) (cl : Option Nat) (id : Nat) (e : DirEnt) : KvR :=
  if e.st ≠ 3 ∧ e.st ≠ 4 then .error (s.consistencyFail false)
  else if s.kvd.fifo.length < 4096 then
    let s := s.dirPut cl id { e with st := 2, ref := 0 }
    .ok { s with kvd := { s.kvd with fifo := s.kvd.fifo ++ [id] } }
  else .ok ((s.dirPut cl id { e with st := 1, ref := 0 }).ringPush id)

/-- Pins held on a block. -/
def State.pinsOf (s : State) (id : Nat) : Nat := tblGet 0 s.kvd.pins id

/-- Subtract 1 from a block's REFCOUNT: at 0 it becomes PINFOLD or is freed (R200, R217). -/
def State.refDown (s : State) (cl : Option Nat) (id : Nat) : KvR :=
  match s.dirGet cl id with
  | .error s => .error s
  | .ok (e, s) =>
    if e.ref = 65535 then .ok s
    else if 1 < e.ref then .ok (s.dirPut cl id { e with ref := e.ref - 1 })
    else if s.pinsOf id ≠ 0 then .ok (s.dirPut cl id { e with ref := 0, st := 4 })
    else s.kvFree cl id e

/-- Add 1 to a block's REFCOUNT (R200, R226). -/
def State.refUp (s : State) (cl : Option Nat) (id : Nat) : KvR :=
  match s.dirGet cl id with
  | .error s => .error s
  | .ok (e, s) =>
    if e.ref = 65535 then .ok s
    else
      let s := s.dirPut cl id { e with ref := e.ref + 1 }
      .ok (if e.ref + 1 = 65535 then s.raise pgKvd 3 else s)

/-- Take a pin (R216). -/
def State.pin (s : State) (id : Nat) : State := { s with kvd := { s.kvd with pins := tblPut 0 s.kvd.pins id (s.pinsOf id + 1) } }

/-- Drop a pin; the last one on a PINFOLD block frees it (R217). A pin that the table does not hold fails a check (R545). -/
def State.unpin (s : State) (cl : Option Nat) (id : Nat) : KvR :=
  let n := s.pinsOf id
  if n = 0 then .error (s.consistencyFail false)
  else
    let s := { s with kvd := { s.kvd with pins := tblPut 0 s.kvd.pins id (n - 1) } }
    if n = 1 then
      match s.dirGet cl id with
      | .error s => .error s
      | .ok (e, s) => if e.st = 4 then s.kvFree cl id e else .ok s
    else .ok s

/-- Drop a list of pins. -/
def State.unpinAll (s : State) (cl : Option Nat) : List Nat → KvR
  | [] => .ok s
  | id :: l => match s.unpin cl id with
    | .ok s => s.unpinAll cl l
    | .error s => .error s

/-- Either state of a directory step. -/
def KvR.get : KvR → State
  | .ok s => s
  | .error s => s

/-! Usable blocks (R204). -/

/-- Whether a block-table entry names a usable block of a context's plane. -/
def State.usable (s : State) (ctx w kind fmt dcode : Nat) (e : DirEnt) : Bool :=
  let id := w % 2 ^ 24
  decide (id ≠ 0) && decide (id < s.rf F.dirCount) && e.st == 3 && e.gen == w / 2 ^ 24 % 256 && e.owner == ctx && e.kind == kind
    && e.fmt == fmt && e.dcode == dcode

/-- Count a bad reference (R204, Table 6.20). -/
def State.badRef (s : State) (id : Nat) : State :=
  ((s.inc F.kvBadRef 1).raise pgKvd 4).wf (F.errInfo pgKvd) (5 + id % 2 ^ 24 * 16)

/-! Provisioning (R209, R210). -/

/-- The IDs in the free ring, oldest first. -/
def State.ringIds (s : State) : List Nat :=
  (List.range s.ringCount).map (fun i => leNat (((s.readHpa 0 (s.ringAddr (s.kvd.ringHead + i)) 4).getD []).take 4))

/-- IDs of a range that the driver has set OFFLINE leave the FIFO and the ring (R211). -/
def State.dropFree (s : State) (first n : Nat) : State :=
  let inR (b : Nat) : Bool := decide (first ≤ b) && decide (b < first + n)
  let ids := s.ringIds
  let fifo := s.kvd.fifo.filter (fun b => !inR b)
  let s := { s with kvd := { s.kvd with fifo := fifo } }
  if ids.any inR then
    let s := { s with kvd := { s.kvd with ringTail := s.kvd.ringHead } }
    (ids.filter (fun b => !inR b)).foldl (fun s b => s.ringPush b) s
  else s

/-- The first entry of a range that refuses provisioning: its reason and block. ADDR holds bits [51:5], so no entry is
misaligned. -/
def State.provBad (s : State) : Nat → Nat → Option (Nat × Nat)
  | _, 0 => none
  | id, n + 1 =>
    match s.dirRaw id with
    | none => none
    | some e =>
      if e.st ≠ 0 then some (1, id) else s.provBad (id + 1) n

/-- Blocks that stand provisioned: a block returns to OFFLINE only when the driver writes its entry (R210, R211). -/
def State.provCount (s : State) : Nat :=
  ((List.range (s.rf F.dirCount)).filter (fun id => id != 0 && (match s.dirRaw id with
    | some e => e.st != 0
    | none => true))).length

/-- Make the entries of a range FREE and push them to the ring. -/
def State.provDo (s : State) (first n : Nat) : State :=
  forN n (fun i s =>
    match s.dirRaw (first + i) with
    | none => s
    | some e => (s.dirPut none (first + i) { e with st := 1 }).ringPush (first + i)) s

/-- Refuse provisioning with a reason. -/
def State.provFail (s : State) (reason id : Nat) : State :=
  (s.wf (F.errInfo pgKvd) (reason + id % 2 ^ 24 * 16)).raise pgKvd 1

/-- A write of KVD_PROV_GO (R209). The spec names no order of the tests: the range, then the entries, then the ring's capacity; the
first that fails gives REASON and BLOCK (assumption 117). -/
def State.provGo (s : State) : State :=
  let first := s.rf F.provFirst
  let n := s.rf F.provCount
  if n = 0 then s.raise pgKvd 0
  else if first = 0 ∨ s.rf F.dirCount < first + n then s.provFail 3 first
  else if (List.range n).any (fun i => (s.dirRaw (first + i)).isNone) then s.sharedPoison false
  else match s.provBad first n with
    | some (r, id) => s.provFail r id
    | none =>
      let r := s.dropFree first n
      if 2 ^ r.rf F.ringLog2 < r.provCount + n then s.provFail 4 first
      else (r.provDo first n).raise pgKvd 0

/-! Reclaim (R231). -/

/-- Release an IN_USE block that a context owns: REFCOUNT becomes 0 whatever it was, one stuck at 65,535 among them, since R231 names
every IN_USE entry and R200 speaks of references and releases (assumption 117). -/
def State.reclaimOne (s : State) (ctx id : Nat) : KvR :=
  match s.dirGet none id with
  | .error s => .error s
  | .ok (e, s) =>
    if e.st = 3 ∧ e.owner = ctx then
      if s.pinsOf id ≠ 0 then .ok (s.dirPut none id { e with ref := 0, st := 4 }) else s.kvFree none id e
    else .ok s

/-- Start the scan of the next context that waits. -/
def State.reclaimNext (s : State) : State :=
  if s.rb F.reclaimBusy then s
  else match s.kvd.reclaims with
    | [] => s
    | c :: _ => (s.wf F.reclaimCtx c).wb F.reclaimBusy true

/-- A teardown asks for a scan of its context's blocks. -/
def State.reclaim (s : State) (ctx : Nat) : State :=
  State.reclaimNext { s with kvd := { s.kvd with reclaims := s.kvd.reclaims ++ [ctx] } }

end Sys2Proof.Machine
end

