-- ==== Sys2Proof/Machine/TileOps.lean ====
section
/-! DEFINITION. How a tile reads its operands and names its outputs: the computation of a tile is a function of the lines that
have been delivered to it, which asks for the next line that it lacks (08_commands_and_tiles.md R285, R286, R294, R654,
12_memory_ports_ordering_integrity.md R436, R437). -/

namespace Sys2Proof.Machine

/-- An element's code with its poison mark. -/
abbrev El := Nat × Bool
/-- A number with its poison mark. -/
abbrev MNum := Num × Bool

/-- Why a tile's computation cannot go on: it lacks a line; it stops on an error with a status, shown on the page at `page`
with a reason (page 0: on none); it must learn whether a block-table word names a usable block of a kind, format and head
dimension, and take a pin on it or not; it takes or drops its pin on a block that it has learnt. -/
inductive TStop where
  | need (a : Access)
  | err (status page reason : Nat)
  | block (key word kind fmt dcode : Nat) (pin : Bool)
  | hold (key : Nat)
  | drop (key : Nat)
  deriving DecidableEq, Repr

/-- A step of a tile's computation. -/
abbrev TM (α : Type) := Except TStop α

/-- What a tile's computation sees: the machine, the core, the tile. -/
structure Tx where
  s : State
  n : Nat
  t : Tile

/-- The tile's error with no page. -/
def stopWith {α : Type} (st : Nat) : TM α := .error (.err st 0 0)

/-- A field of the tile's entry. -/
def Tx.f (x : Tx) (o n : Nat) : Nat := fldOf x.t.entry o n
/-- A bit of a byte of the tile's entry. -/
def Tx.b (x : Tx) (o i : Nat) : Bool := bit (x.f o 1) i

/-! Addresses of the R159 layout. -/

def aOff (a : Nat) : Nat := bits a 0 48
def aSeg (a : Nat) : Nat := bits a 48 4
def aSrc (a : Nat) : Nat := bits a 52 4

/-! Reads. -/

/-- One delivered line. -/
def Tx.line (x : Tx) (direct : Bool) (seg off : Nat) : TM (List MB) :=
  match x.t.staged.find? (fun g => g.direct == direct && g.seg == seg && g.off == off) with
  | some g => .ok ((natLe 64 g.data.toNat).map (fun b => (b, g.poison)))
  | none => .error (.need ⟨direct, seg, off, 1⟩)

/-- Consecutive lines. -/
def Tx.lines (x : Tx) (direct : Bool) (seg : Nat) : Nat → Nat → TM (List MB)
  | _, 0 => .ok []
  | off, k + 1 => do
    let a ← x.line direct seg off
    let b ← x.lines direct seg (off + 64) k
    pure (a ++ b)

/-- Bytes of a segment, or of the host physical address space. -/
def Tx.mem (x : Tx) (direct : Bool) (seg off n : Nat) : TM (List MB) :=
  if n = 0 then .ok []
  else do
    let l ← x.lines direct seg (off / 64 * 64) (ceilDiv (off % 64 + n) 64)
    pure ((l.drop (off % 64)).take n)

/-- Where an offset of a context's window in a cluster lies: cluster times 16 MiB plus the physical offset. -/
def State.winPhys (s : State) (cl ctx off : Nat) : Option Nat :=
  match s.csbMap.find? (fun e => e.1 / 64 == cl && e.2 == ctx * 64 + off / 2 ^ 18 + 1) with
  | some e => if off / 2 ^ 18 < 64 then some (cl * 2 ^ 24 + e.1 % 64 * 2 ^ 18 + off % 2 ^ 18) else none
  | none => none

/-- Pieces of a CSB read, each within a line (R654). -/
def Tx.csbPieces (x : Tx) : List (Nat × List Byte) → TM (List MB)
  | [] => .ok []
  | (o, bs) :: rest =>
    match x.s.winPhys (x.n / 4) x.t.ctx o with
    | none => stopWith 0x11
    | some a => do
      let r ← x.csbPieces rest
      pure ((memBytes x.s.csb a bs.length).map (fun b => (b, x.s.csbPoison.contains (a / 64))) ++ r)

/-- Bytes of the core's CSP, whose contents at the tile's start are dead. -/
def Tx.csp (x : Tx) (off n : Nat) : TM (List MB) :=
  if x.t.cspKib * 1024 < off + n then stopWith 0x11
  else .ok ((List.range n).map (fun i => (BitVec.ofNat 8 (Config.cspByte x.t.seed (off + i)), false)))

/-- Bytes from a source. -/
def Tx.readSrc (x : Tx) (src seg off n : Nat) : TM (List MB) :=
  if n = 0 then .ok []
  else if src = 0 then x.mem false seg off n
  else if src = 1 then x.csbPieces (linePieces (n / 64 + 2) off (List.replicate n 0))
  else x.csp off n

/-- Bytes at an address of the R159 layout plus a displacement. -/
def Tx.read (x : Tx) (a d n : Nat) : TM (List MB) := x.readSrc (aSrc a) (aSeg a) (aOff a + d) n

/-- Bytes that are used as control: poison in them stops the tile at once (Table 12.3). -/
def Tx.ctl (x : Tx) (a d n : Nat) : TM (List Byte) := do
  let l ← x.read a d n
  if l.any (fun b => b.2) then stopWith 0x30 else pure (l.map (fun b => b.1))

/-! KV blocks (R181, R204, R216, R222). -/

/-- What the tile has learnt of the block with a key. -/
def Tx.got (x : Tx) (key : Nat) : Option BlockGot := x.t.blocks.find? (fun g => g.key == key)

/-- Learn of a block that a word names, with a pin or without. -/
def Tx.block (x : Tx) (key word kind fmt dcode : Nat) (pin : Bool) : TM BlockGot :=
  match x.got key with
  | some g => .ok g
  | none => .error (.block key word kind fmt dcode pin)

/-- Take the pin on a learnt block. -/
def Tx.hold (_x : Tx) (g : BlockGot) : TM Unit := if g.hold = 0 then .error (.hold g.key) else .ok ()
/-- Drop the pin after the block's last read. -/
def Tx.drop (_x : Tx) (g : BlockGot) : TM Unit := if g.hold = 1 then .error (.drop g.key) else .ok ()

/-- The data plane and the scale record of a block slot: `n` bytes of values, then 32 bytes (R195, R197). -/
def Tx.slot (x : Tx) (g : BlockGot) (n : Nat) : TM (List MB × List MB) := do
  let d ← x.mem true 0 g.ent.addr n
  let s ← x.mem true 0 (g.ent.addr + n) 32
  pure (d, s)

/-! Elements. -/

/-- The elements of `w` bits that bytes hold from bit `lo` up. -/
def elemsAt (w lo n : Nat) (bs : List MB) : List El :=
  let v := leNat (bs.map (fun b => b.1)) >>> lo
  let cs := unpackGo w n v
  if bs.any (fun b => b.2) then
    (List.range n).zipWith (fun i c =>
      (c, ((bs.drop ((lo + w * i) / 8)).take ((lo + w * i + w - 1) / 8 - (lo + w * i) / 8 + 1)).any (fun b => b.2))) cs
  else cs.map (fun c => (c, false))

/-- Elements `i` to `i + n - 1` of a packed array that begins at an address. -/
def Tx.elems (x : Tx) (a d w i n : Nat) : TM (List El) :=
  if n = 0 then .ok []
  else do
    let lo := w * i / 8
    let l ← x.read a (d + lo) ((w * (i + n) + 7) / 8 - lo)
    pure (elemsAt w (w * i % 8) n l)

/-- Pack elements into bytes; a byte carries the marks of its elements (R655). -/
def packEl (w : Nat) (l : List El) : List MB :=
  let bs := pack w (l.map (fun e => e.1))
  if l.any (fun e => e.2) then
    (List.range bs.length).zipWith (fun j b =>
      (b, ((l.drop (8 * j / w)).take ((8 * j + 7) / w - 8 * j / w + 1)).any (fun e => e.2))) bs
  else bs.map (fun b => (b, false))

/-! Format codes (Table 4.2, with 0x14 FP32 and 0x15 INT32). -/

/-- Bits of an element. -/
def fmtW (c : Nat) : Nat :=
  if c = 2 ∨ c = 3 ∨ c = 4 ∨ c = 15 then 4
  else if c = 5 ∨ c = 6 ∨ c = 13 ∨ c = 14 then 6
  else if c = 9 ∨ c = 10 then 16
  else if c = 20 ∨ c = 21 then 32
  else 8

/-- Plain integers, and signed ones. -/
def fmtInt (c : Nat) : Bool := decide (c ≤ 3) || c == 21
def fmtSigned (c : Nat) : Bool := c == 0 || c == 2 || c == 21
/-- Microscaling formats, codebook formats. -/
def fmtMx (c : Nat) : Bool := decide (11 ≤ c) && decide (c ≤ 16)
def fmtCb (c : Nat) : Bool := c == 17 || c == 18
/-- The floating-point format of a code, of its elements for a microscaling code. -/
def fmtF (c : Nat) : Option Fmt :=
  if c = 4 ∨ c = 15 then some fp4
  else if c = 5 ∨ c = 13 then some fp6e2m3
  else if c = 6 ∨ c = 14 then some fp6e3m2
  else if c = 7 ∨ c = 11 then some fp8e4m3
  else if c = 8 ∨ c = 12 then some fp8e5m2
  else if c = 9 then some bf16
  else if c = 10 then some fp16
  else if c = 20 then some fp32
  else none

/-- The number of an element's code, before a block scale. -/
def fmtNum (c v : Nat) : Num :=
  match fmtF c with
  | some f => f.dec v
  | none =>
    if c = 16 then Num.scaled (sInt 8 v) (-6)
    else if fmtSigned c then Num.ofInt (sInt (fmtW c) v) else Num.ofInt (v % 2 ^ fmtW c : Nat)

def elNum (c : Nat) (e : El) : MNum := (fmtNum c e.1, e.2)

/-- Convert to a destination (R62's last step): integers saturate after the zero point is added, floats by SAT_MODE. -/
def encTo (c : Nat) (sat : Sat) (zp : Int) (r : Num) : Nat :=
  match fmtF c with
  | some f => f.enc sat r
  | none =>
    let lo := intMin (fmtW c) (fmtSigned c)
    let hi := intMax (fmtW c) (fmtSigned c)
    codeInt (fmtW c) (match r.toInt with
      | none => clampInt lo hi zp
      | some i => clampInt lo hi (i + zp))

/-! Outputs. -/

/-- A run at an address of the R159 layout plus a displacement, in the running cluster. -/
def Tx.out (x : Tx) (a d : Nat) (bs : List MB) : Out := ⟨aSrc a, aSeg a, x.n / 4, aOff a + d, bs⟩

def TRes.ofOuts (l : List Out) (poison : Bool) : TRes := ⟨l, [], [], false, poison, [], []⟩

/-- Map with a step that may stop. -/
def tmap {α β : Type} (f : α → TM β) : List α → TM (List β)
  | [] => .ok []
  | a :: l => do
    let b ← f a
    let r ← tmap f l
    pure (b :: r)

/-- Fold with a step that may stop. -/
def tfold {α β : Type} (f : β → α → TM β) : β → List α → TM β
  | b, [] => .ok b
  | b, a :: l => do
    let b ← f b a
    tfold f b l

/-! Order of additions that the spec leaves open. -/

/-- Insert by a key. -/
def insKey {α : Type} (k : Nat) (v : α) : List (Nat × α) → List (Nat × α)
  | [] => [(k, v)]
  | (k', v') :: t => if k ≤ k' then (k, v) :: (k', v') :: t else (k', v') :: insKey k v t

/-- The order in which an engine takes the terms of a list: a permutation that the implementation chooses (R41, R71). -/
def reorder {α : Type} (seed : Nat) (l : List α) : List α :=
  (((List.range l.length).zip l).foldl (fun acc e => insKey (Config.sumOrder seed e.1) e.2 acc) []).map (fun e => e.2)

/-- A sum in FP32, one rounding to nearest even per addition, in an order that is left open. -/
def sum32 (seed : Nat) (l : List Num) : Num := (reorder seed l).foldl (fun a b => rnd32 (a.add b)) Num.zero

/-- A computed sum of K products lies within the bound of R73, given the exact sum and the sum of the products' magnitudes. -/
def sumNear (k : Nat) (v exact mag : Num) : Bool := (v.sub exact).abs.le (mag.mul (.fin false (ceilDiv k 128 + 2) (-23)))

/-- A sum of K products as an engine computes it, held to R73: where the order that is left open would break the bound, the result is a
free value within it. The bound does not cover an infinity or NaN. -/
def boundSum (seed k : Nat) (v exact mag : Num) : Num :=
  if !v.isFin || !exact.isFin || sumNear k v exact mag then v
  else
    let c := ofF32 (Config.approx 8 seed % 2 ^ 32)
    if c.isFin && sumNear k c exact mag then c else rnd32 exact

/-- A sum of products in FP32, in an order that is left open, held to R73. -/
def sumK (seed : Nat) (l : List Num) : Num := boundSum seed l.length (sum32 seed l) (Num.sum l) (Num.sum (l.map Num.abs))

/-- Poison of any of a list of marked values. -/
def anyP (l : List MNum) : Bool := l.any (fun e => e.2)

end Sys2Proof.Machine
end

