-- ==== Sys2Proof/Machine/AteOps.lean ====
section
/-! DEFINITION. The arithmetic of an attention tile: forward, merge and backward (05_attention_engine.md). Where the chapter names
no rounding of an intermediate product, the product is rounded once to FP32; sums over groups, keys and channels take an order
that is left open (R71, R151). -/

namespace Sys2Proof.Machine

/-! Fields of the descriptor (Table 5.1), at byte 32 of the entry. -/

namespace Ate
def q (x : Tx) : Nat := bits (x.f 32 8) 0 56
def qFmt (x : Tx) : Nat := bits (x.f 32 8) 56 4
def o (x : Tx) : Nat := bits (x.f 40 8) 0 56
def oFmt (x : Tx) : Nat := bits (x.f 40 8) 56 4
def carry (x : Tx) : Nat := bits (x.f 48 8) 0 56
def stats (x : Tx) : Nat := bits (x.f 56 8) 0 56
def map (x : Tx) : Nat := bits (x.f 64 8) 0 56
def mapEn (x : Tx) : Bool := x.b 71 0
def mapPtr (x : Tx) : Nat := bits (x.f 72 8) 0 56
def bitmap (x : Tx) : Nat := bits (x.f 80 8) 0 56
def seq (x : Tx) : Nat := bits (x.f 88 8) 0 56
def dO (x : Tx) : Nat := bits (x.f 96 8) 0 56
def doFmt (x : Tx) : Nat := bits (x.f 96 8) 56 4
def gradA (x : Tx) : Nat := bits (x.f 104 8) 0 56
def gradB (x : Tx) : Nat := bits (x.f 112 8) 0 56
def scale (x : Tx) : Num := ofF32 (x.f 120 4)
def kvLen (x : Tx) : Nat := x.f 124 4 % 2 ^ 21
def qHeads (x : Tx) : Nat := x.f 128 2
def kvHeads (x : Tx) : Nat := x.f 130 2
def h0 (x : Tx) : Nat := x.f 132 2
def gh (x : Tx) : Nat := x.f 134 2
def q0 (x : Tx) : Nat := x.f 136 4
def tq (x : Tx) : Nat := x.f 140 2
def blk0 (x : Tx) : Nat := x.f 142 2
def nb (x : Tx) : Nat := x.f 144 2
def layer (x : Tx) : Nat := x.f 146 1
def op (x : Tx) : Nat := x.f 147 1 % 8
def carryIn (x : Tx) : Bool := x.b 147 3
def carryOut (x : Tx) : Bool := x.b 147 4
def saveStats (x : Tx) : Bool := x.b 147 5
def d (x : Tx) : Nat := x.f 148 2
def mapStride (x : Tx) : Nat := x.f 150 2
def nPart (x : Tx) : Nat := x.f 152 1
def gradFmt (x : Tx) : Nat := x.f 153 1 % 4

/-- Rows of the tile, and row groups of 64 (R161). -/
def rows (x : Tx) : Nat := gh x * tq x
def groups (x : Tx) : Nat := ceilDiv (rows x) 64
/-- The query and the head of a row. -/
def rowQ (x : Tx) (r : Nat) : Nat := q0 x + r / gh x
def rowH (x : Tx) (r : Nat) : Nat := h0 x + r % gh x
/-- The KV head of the tile (R160). -/
def kvHead (x : Tx) : Nat := h0 x / (qHeads x / kvHeads x)
/-- Element index of channel 0 of a row in Q, O and DO (R160). -/
def elem0 (x : Tx) (r : Nat) : Nat := (rowQ x r * qHeads x + rowH x r) * d x
/-- Channel groups. -/
def cgs (x : Tx) : Nat := ceilDiv (d x) 32
/-- Bytes of a carry record (R166). -/
def recBytes (x : Tx) : Nat := 8 + 4 * d x

/-- The element format of a Q_FORMAT code. -/
def fmt (c : Nat) : Nat := match c with
  | 0 => 9
  | 1 => 10
  | 2 => 20
  | _ => 7

/-- Work beats (R183, Table 5.4). -/
def beats (x : Tx) : Nat :=
  let c := b2n (carryIn x)
  let dd := d x
  let w := 64 * ceilDiv dd 64
  let h := groups x
  match op x with
  | 0 => h * dd * (2 + c) + nb x * h * (max dd 64 + w) + 96
  | 1 => h * dd * (nPart x + 1) + 96
  | 2 => h * 3 * dd + nb x * h * (2 * dd + w) + h * dd * (1 + c) + 96
  | _ => h * 3 * dd + nb x * h * (2 * dd + 2 * w) + nb x * 2 * dd * (1 + c) + 96
end Ate

/-! Numbers in FP32. -/

def r32mul (a b : Num) : Num := rnd32 (a.mul b)
def r32add (a b : Num) : Num := rnd32 (a.add b)
def r32sub (a b : Num) : Num := rnd32 (a.sub b)
/-- The greater of two numbers. -/
def Num.maxN (a b : Num) : Num := if a.lt b then b else a
/-- The smaller of two numbers. -/
def Num.minN (a b : Num) : Num := if b.lt a then b else a
/-- The greatest magnitude of a list; 0 for an empty one. -/
def maxAbs (l : List Num) : Num := l.foldl (fun a b => a.maxN b.abs) Num.zero
def Num.negInf : Num := .inf true

/-- Round to the nearest integer within limits (R154, R177, R178). -/
def rneClamp (lo hi : Int) (x : Num) : Int := clampInt lo hi (x.toInt.getD 0)

/-! Rows (R154, R155, R158). -/

/-- A query row: û, σ_q, the group sums of û, whether it holds NaN or an infinity, its mark. -/
structure QRow where
  u : List Int
  sq : Num
  gs : List Int
  nan : Bool
  bad : Bool

/-- Sums over groups of 32 channels. -/
def groupSums (n : Nat) (l : List Int) : List Int := (List.range n).map (fun g => ((l.drop (32 * g)).take 32).sum)

/-- Quantise a query row. -/
def quantRow (cgs : Nat) (l : List MNum) : QRow :=
  let v := l.map (fun e => e.1)
  let bad := anyP l
  if v.any (fun e => !e.isFin) then ⟨v.map (fun _ => 0), Num.zero, List.replicate cgs 0, true, bad⟩
  else
    let sq := rnd32 ((maxAbs v).div (.fin false 127 0))
    let u := v.map (fun e => if sq.isZero then 0 else rneClamp (-127) 127 (e.div sq))
    ⟨u, sq, groupSums cgs u, false, bad⟩

/-- Read the elements of a row of a tensor with the layout of R160. -/
def Tx.qTensor (x : Tx) (addr fc r : Nat) : TM (List MNum) := do
  let c := Ate.fmt fc
  let l ← x.elems addr 0 (fmtW c) (Ate.elem0 x r) (Ate.d x)
  pure (l.map (elNum c))

def Tx.qRow (x : Tx) (r : Nat) : TM QRow := do
  let l ← x.qTensor (Ate.q x) (Ate.qFmt x) r
  pure (quantRow (Ate.cgs x) l)

/-- FP32 values at an address. -/
def Tx.f32s (x : Tx) (a d n : Nat) : TM (List MNum) := do
  let l ← x.elems a d 32 0 n
  pure (l.map (elNum 20))

/-- The running values of a row: m, l, o, and whether it gives NaN, its mark. -/
structure Run where
  m : Num
  l : Num
  o : List Num
  nan : Bool
  bad : Bool

/-- A carry record (R166). A record that holds NaN keeps its row NaN. -/
def Tx.carryRec (x : Tx) (at' : Nat) : TM Run := do
  let v ← x.f32s (Ate.carry x) at' (2 + Ate.d x)
  let n := v.map (fun e => e.1)
  pure ⟨n.getD 0 .nan, n.getD 1 .nan, n.drop 2, n.any Num.isNan, anyP v⟩

/-! The sequence record and the block tables (R202, R203, R205). -/

/-- A sequence record's fields. -/
structure Seq where
  btK : Nat
  btV : Nat
  length : Nat
  high : Nat
  layers : Nat
  heads : Nat
  maxBlocks : Nat
  dim : Nat
  kFmt : Nat
  vFmt : Nat
  deriving DecidableEq, Repr

def seqOf (b : List Byte) : Seq :=
  { btK := bits (fldOf b 0 8) 0 52, btV := bits (fldOf b 8 8) 0 52, length := fldOf b 16 4 % 2 ^ 21, high := fldOf b 20 2,
    layers := fldOf b 22 2, heads := fldOf b 24 2, maxBlocks := fldOf b 26 2, dim := fldOf b 28 2, kFmt := fldOf b 30 1 % 2,
    vFmt := fldOf b 30 1 / 2 % 2 }

/-- Base and format of a plane: 0 K, 1 V. -/
def Seq.bt (s : Seq) (plane : Nat) : Nat := if plane = 0 then s.btK else s.btV
def Seq.fmt (s : Seq) (plane : Nat) : Nat := if plane = 0 then s.kFmt else s.vFmt
/-- Byte offset of a block-table entry from its plane's base (R203). -/
def Seq.entry (s : Seq) (layer head b : Nat) : Nat := ((layer * s.heads + head) * s.maxBlocks + b) * 4
/-- DCODE of the record's head dimension. -/
def dcodeOf (d : Nat) : Nat := headDims.findIdx (fun e => e == d)

/-- Read a sequence record: poison in it stops the tile (R208). -/
def Tx.seqRec (x : Tx) (a : Nat) : TM Seq := do
  let b ← x.ctl a 0 64
  pure (seqOf b)

/-- Read a block-table word. -/
def Tx.btWord (x : Tx) (s : Seq) (plane layer head b : Nat) : TM Nat := do
  let w ← x.ctl (s.bt plane) (s.entry layer head b) 4
  pure (leNat w)

/-- A KV block as read: stored values and marks by slot, scales and offsets by group, the scale record's mark, VALID. -/
structure KvBlk where
  u : List (List Int)
  marks : List Bool
  sig : List Num
  om : List Num
  valid : Nat

/-- Bytes of the values of a token: INT8 or INT4 (R195). -/
def tokBytes (fmt d : Nat) : Nat := if fmt = 0 then d else d / 2

/-- The scales and offsets of a scale record (R195). -/
def scalesOf (fmt cgs : Nat) (rec : List Byte) : List Num × List Num :=
  if fmt = 0 then ((List.range cgs).map (fun g => fp16.dec (fldOf rec (2 * g) 2)), List.replicate cgs Num.zero)
  else ((List.range cgs).map (fun g => fp16.dec (fldOf rec (4 * g) 2)), (List.range cgs).map (fun g => fp16.dec (fldOf rec (4 * g + 2) 2)))

/-- Stored values of slot `t` of a data plane; INT4 values are unsigned (R178). -/
def slotVals (fmt d : Nat) (bs : List MB) (t : Nat) : List Int × Bool :=
  let n := tokBytes fmt d
  let l := (bs.drop (t * n)).take n
  let raw := l.map (fun b => b.1)
  (if fmt = 0 then raw.map (fun b => sInt 8 b.toNat) else (unpack 4 d raw).map Int.ofNat, l.any (fun b => b.2))

/-- Decode a block slot. -/
def kvBlk (fmt d cgs valid : Nat) (p : List MB × List MB) : KvBlk :=
  let sc := scalesOf fmt cgs (p.2.map (fun b => b.1))
  let smark := p.2.any (fun b => b.2)
  let vs := (List.range 64).map (slotVals fmt d p.1)
  ⟨vs.map (fun v => v.1), vs.map (fun v => v.2 || smark), sc.1, sc.2, valid⟩

/-- Whether a block's value, scale or offset is NaN in some group. -/
def KvBlk.nan (b : KvBlk) : Bool := b.sig.any Num.isNan || b.om.any Num.isNan

/-- The value of channel `c` of slot `t`: ω + σ·u, exactly. -/
def KvBlk.val (b : KvBlk) (t c : Nat) : Num :=
  (b.om.getD (c / 32) Num.zero).add ((b.sig.getD (c / 32) Num.zero).mul (Num.ofInt ((b.u.getD t []).getD c 0)))

/-- Pin, read and drop the block of a plane that key block `j` names. -/
def Tx.kvRead (x : Tx) (s : Seq) (j plane : Nat) : TM (BlockGot × KvBlk) := do
  let w ← x.btWord s plane (Ate.layer x) (Ate.kvHead x) j
  let g ← x.block (2 * j + plane) w plane (s.fmt plane) (dcodeOf (Ate.d x)) true
  let p ← x.slot g (64 * tokBytes (s.fmt plane) (Ate.d x))
  pure (g, kvBlk (s.fmt plane) (Ate.d x) (Ate.cgs x) g.ent.valid p)

/-! Masks (R169 to R173). -/

/-- The mask of one query tile against one key block: code, bitmap, mark. -/
structure Mask where
  code : Nat
  bits : List Byte
  bad : Bool

def Tx.mask (x : Tx) (i j : Nat) : TM Mask := do
  let b ← x.read (Ate.map x) (i * Ate.mapStride x + j / 4) 1
  let m := b.headD (0, false)
  let code := m.1.toNat / 4 ^ (j % 4) % 4
  if code = 3 then
    let e ← x.read (Ate.mapPtr x) ((i * Ate.mapStride x * 4 + j) * 4) 4
    let bm ← x.read (Ate.bitmap x) (512 * leNat (e.map (fun b => b.1))) 512
    pure ⟨code, bm.map (fun b => b.1), m.2 || e.any (fun b => b.2) || bm.any (fun b => b.2)⟩
  else pure ⟨code, [], m.2⟩

/-- The query tiles that the tile's rows fall in. -/
def Ate.qTiles (x : Tx) : List Nat :=
  if Ate.rows x = 0 then [] else (List.range ((Ate.q0 x + Ate.tq x - 1) / 64 - Ate.q0 x / 64 + 1)).map (fun i => Ate.q0 x / 64 + i)

/-- The masks of key block `j`, by query tile; none without a map. -/
def Tx.masks (x : Tx) (j : Nat) : TM (List (Nat × Mask)) :=
  if Ate.mapEn x then tmap (fun i => do
    let m ← x.mask i j
    pure (i, m)) (Ate.qTiles x)
  else .ok []

/-- Whether the mask lets query `q` see slot `b` of the block (Table 5.3). -/
def maskSees (ms : List (Nat × Mask)) (q b : Nat) : Bool :=
  match ms.find? (fun e => e.1 == q / 64) with
  | none => true
  | some (_, m) =>
    match m.code with
    | 0 => true
    | 1 => false
    | 2 => decide (b ≤ q % 64)
    | _ => bit ((m.bits.getD (8 * (q % 64) + b / 8) 0).toNat) (b % 8)

/-- A poisoned mask marks the rows that use it (R173). -/
def maskBad (ms : List (Nat × Mask)) (q : Nat) : Bool :=
  match ms.find? (fun e => e.1 == q / 64) with
  | none => false
  | some (_, m) => m.bad

/-- The block is skipped: every row finds ALL_MASKED (R172). -/
def Tx.skips (x : Tx) (ms : List (Nat × Mask)) : Bool :=
  x.t.skipEn && !ms.isEmpty && ms.all (fun e => e.2.code == 1)

/-- The slots of key block `j` that a query sees: below KV_LEN and below VALID (R171, R205). -/
def Tx.visible (x : Tx) (ms : List (Nat × Mask)) (j valid q : Nat) : List Nat :=
  (List.range (min 64 valid)).filter (fun b => decide (64 * j + b < Ate.kvLen x) && maskSees ms q b)

/-! Scores (R156). -/

/-- The dot product of two integer lists. -/
def dotInt (a b : List Int) : Int := (a.zipWith (fun p q => p * q) b).sum

/-- The sum of magnitudes of an integer dot product. -/
def dotMag (a b : List Int) : Int := (a.zipWith (fun p q => ((p * q).natAbs : Int)) b).sum

/-- S[r][t], held to R73 with K equal to the head dimension (R157). -/
def score (seed cgs : Nat) (scale : Num) (r : QRow) (k : KvBlk) (t : Nat) : Num :=
  let u (g : Nat) := (r.u.drop (32 * g)).take 32
  let w (g : Nat) := ((k.u.getD t []).drop (32 * g)).take 32
  let sig (g : Nat) := k.sig.getD g Num.zero
  let om (g : Nat) := k.om.getD g Num.zero
  let gs := List.range cgs
  let terms := gs.flatMap (fun g => [r32mul (sig g) (Num.ofInt (dotInt (u g) (w g))), r32mul (om g) (Num.ofInt (r.gs.getD g 0))])
  let exact := gs.flatMap (fun g => [(sig g).mul (Num.ofInt (dotInt (u g) (w g))), (om g).mul (Num.ofInt (r.gs.getD g 0))])
  let mags := gs.flatMap (fun g =>
    [(sig g).abs.mul (Num.ofInt (dotMag (u g) (w g))), (om g).abs.mul (Num.ofInt (dotMag (u g) (List.replicate 32 1)))])
  let f := scale.mul r.sq
  boundSum seed r.u.length (r32mul (r32mul scale r.sq) (sum32 seed terms)) (f.mul (Num.sum exact)) (f.abs.mul (Num.sum mags))

/-! Forward (R164 to R168). -/

/-- One block for one row. A NaN score does not raise the maximum, so that a row whose every score is NaN stays as it was (the spec names
no maximum of NaN: DESIGN CHOICE, assumption 119). A key of a block that gives NaN has a weight that is not zero (R191). -/
def fwdStep (seed cgs d : Nat) (scale : Num) (r : QRow) (k v : KvBlk) (vis : List Nat) (a : Run) : Run :=
  if r.nan ∨ (¬ vis.isEmpty ∧ (k.nan ∨ v.nan)) then
    { a with nan := true, bad := a.bad || vis.any (fun t => k.marks.getD t false || v.marks.getD t false) }
  else
    let s := vis.map (fun t => (t, score (seed + t) cgs scale r k t))
    let mn := s.foldl (fun m e => m.maxN e.2) a.m
    if mn = Num.negInf then a
    else
      let al := if a.m = Num.negInf then Num.zero else expF (r32sub a.m mn)
      let p := s.map (fun e =>
        (e.1, fp8e4m3.dec (fp8e4m3.enc .saturate (if e.2 = Num.negInf then Num.zero else expF (r32sub e.2 mn)))))
      { m := mn
        l := r32add (r32mul al a.l) (sumK (seed + 64) (p.map (fun e => e.2)))
        o := (List.range d).map (fun c =>
          r32add (r32mul al (a.o.getD c Num.zero)) (sumK (seed + 65 + c) (p.map (fun e => e.2.mul (v.val e.1 c)))))
        nan := a.nan
        bad := a.bad || p.any (fun e => !e.2.isZero && (k.marks.getD e.1 false || v.marks.getD e.1 false)) }

/-- A row before any key. -/
def Run.start (d : Nat) (bad : Bool) : Run := ⟨Num.negInf, Num.zero, List.replicate d Num.zero, false, bad⟩

/-- Combine two partial results (R168). -/
def Run.merge (a b : Run) : Run :=
  let m := a.m.maxN b.m
  let nan := a.nan || b.nan
  let bad := a.bad || b.bad
  if m = Num.negInf then ⟨Num.negInf, Num.zero, a.o.map (fun _ => Num.zero), nan, bad⟩
  else
    let f (y : Num) : Num := if y = Num.negInf then Num.zero else expF (r32sub y m)
    let p := f a.m
    let q := f b.m
    ⟨m, r32add (r32mul p a.l) (r32mul q b.l), a.o.zipWith (fun y z => r32add (r32mul p y) (r32mul q z)) b.o, nan, bad⟩

/-- FP32 codes as marked bytes. -/
def f32Bytes (bad : Bool) (l : List Num) : List MB := packEl 32 (l.map (fun v => (toF32 v, bad)))

/-- The final outputs of a row (R165, R167, R158). -/
def Tx.finalOuts (x : Tx) (r : Nat) (a : Run) : List Out :=
  let c := Ate.fmt (Ate.oFmt x)
  let f := (fmtF c).getD fp32
  let sat := if c = 7 then Sat.saturate else Sat.ieee
  let o := a.o.map (fun v => (if a.nan then f.enc sat .nan else if a.l.isZero then 0 else f.enc sat (v.div a.l), a.bad))
  let lse := if a.nan then .nan else if a.l.isZero then Num.negInf else rnd32 (a.m.add (lnFine a.l))
  x.out (Ate.o x) (Ate.elem0 x r * fmtW c / 8) (packEl (fmtW c) o)
    :: (if Ate.saveStats x then
        [x.out (Ate.stats x) ((Ate.rowQ x r * Ate.qHeads x + Ate.rowH x r) * 8) (f32Bytes a.bad [if a.nan then .nan else a.m, lse])]
      else [])

/-- The carry record of a row (R166). -/
def Tx.carryOuts (x : Tx) (r : Nat) (a : Run) : List Out :=
  let l := a.m :: a.l :: a.o
  [x.out (Ate.carry x) (r * Ate.recBytes x) (f32Bytes a.bad (if a.nan then l.map (fun _ => .nan) else l))]

/-- The tile's result: its outputs, events and counts. POISON shows any poisoned symbol that entered the ATE. A MERGE tile counts no dot-array
and no exponential beats (the spec gives none: DESIGN CHOICE, assumption 119). -/
def Tx.ateRes (x : Tx) (outs : List Out) (bad empty : Bool) (read skipped beats : Nat) : TRes :=
  { outs := outs, kv := [], hist := [], empty := empty, poison := bad, events := if bad || x.t.staged.any (fun g => g.poison) then [(pgAte x.n, 0)] else [],
    counts := [(F.ateBlocks x.n, 2 * read), (F.ateSkipped x.n, 2 * skipped), (F.ateDot x.n, read * beats),
      (F.ateExp x.n, 64 * read * Ate.groups x)] }

/-- The sequence record of a tile that names blocks, with the checks of R205. -/
def Tx.ateSeq (x : Tx) : TM Seq :=
  if Ate.nb x = 0 then .ok ⟨0, 0, 0, 0, 0, 0, 0, 0, 0, 0⟩
  else do
    let s ← x.seqRec (Ate.seq x)
    if s.heads ≠ Ate.kvHeads x ∨ s.dim ≠ Ate.d x ∨ s.layers ≤ Ate.layer x then stopWith 0x11 else pure s

/-- K and V of a key block, both pinned before the first read, both dropped after the last. -/
def Tx.kvPair (x : Tx) (s : Seq) (j : Nat) : TM (KvBlk × KvBlk) := do
  let k ← x.kvRead s j 0
  let v ← x.kvRead s j 1
  x.drop k.1
  x.drop v.1
  pure (k.2, v.2)

/-- The blocks of the tile that are read: their index, masks, K and V. -/
def Tx.kvAll (x : Tx) (s : Seq) : TM (List (Nat × List (Nat × Mask) × Option (KvBlk × KvBlk))) :=
  tmap (fun i => do
    let j := Ate.blk0 x + i
    let ms ← x.masks j
    if x.skips ms then pure (j, ms, none)
    else do
      let kv ← x.kvPair s j
      pure (j, ms, some kv)) (List.range (Ate.nb x))

/-- A forward tile. -/
def Tx.fwdTile (x : Tx) : TM TRes := do
  let d := Ate.d x
  let n := Ate.rows x
  let qs ← tmap (fun r => x.qRow r) (List.range n)
  let start ← if Ate.carryIn x then tmap (fun r => x.carryRec (r * Ate.recBytes x)) (List.range n)
    else pure (List.replicate n (Run.start d false))
  let s ← x.ateSeq
  let bs ← x.kvAll s
  let one (r : Nat) (q : QRow) (a : Run) : Run :=
    bs.foldl (fun a b =>
      let a := { a with bad := a.bad || maskBad b.2.1 (Ate.rowQ x r) }
      match b.2.2 with
      | none => a
      | some (k, v) =>
        fwdStep (x.t.seed + 4096 * (r + 1024 * b.1)) (Ate.cgs x) d (Ate.scale x) q k v
          (x.visible b.2.1 b.1 (min k.valid v.valid) (Ate.rowQ x r)) a)
      { a with nan := a.nan || q.nan, bad := a.bad || q.bad }
  let res := (List.range n).map (fun r => (r, one r (qs.getD r ⟨[], Num.zero, [], true, false⟩) (start.getD r (Run.start d false))))
  let outs := res.flatMap (fun e => if Ate.carryOut x then x.carryOuts e.1 e.2 else x.finalOuts e.1 e.2)
  let read := (bs.filter (fun b => b.2.2.isSome)).length
  pure (x.ateRes outs (res.any (fun e => e.2.bad)) (decide (Ate.kvLen x = 0) && !Ate.carryIn x) read (bs.length - read)
    (Ate.groups x * (d + 64 * ceilDiv d 64)))

/-- A merge tile (R168). -/
def Tx.mergeTile (x : Tx) : TM TRes := do
  let n := Ate.rows x
  let res ← tmap (fun r => do
    let ps ← tmap (fun p => x.carryRec ((p * n + r) * Ate.recBytes x)) (List.range (Ate.nPart x))
    match ps with
    | [] => pure (r, Run.start (Ate.d x) false)
    | a :: l => pure (r, l.foldl Run.merge a)) (List.range n)
  pure (x.ateRes (res.flatMap (fun e => x.finalOuts e.1 e.2)) (res.any (fun e => e.2.bad)) false 0 0 0)

/-! Backward (R184 to R188, Table 5.6). -/

/-- The exponent of the smallest power of two that keeps a magnitude within a format's largest finite value. -/
def pow2Scale (f : Fmt) (m : Num) : Int :=
  match m with
  | .fin _ a e =>
    if a = 0 then 0
    else match f.dec f.maxFin with
      | .fin _ b g =>
        -- a·2^e ≤ b·2^(g+k), tried from the exponent that the leading bits give
        let k := e + Nat.log2 a - (g + Nat.log2 b)
        if (Num.fin false a e).le (.fin false b (g + k)) then k else k + 1
      | _ => 0
  | _ => 0

/-- The finite values of a list. -/
def finOf (l : List Num) : List Num := l.filter Num.isFin

/-- Quantise by a power of two: the codes' values without the scale. The scale is taken over the finite values, and an infinity saturates
to the largest finite value (the spec names no scale of an infinity: DESIGN CHOICE, assumption 119). -/
def quantPow2 (f : Fmt) (k : Int) (l : List Num) : List Num :=
  l.map (fun v => f.dec (f.enc .saturate (v.mul (.fin false 1 (-k)))))

/-- What a backward tile holds of a row. -/
structure BRow where
  q : QRow
  dO : List Num
  dk : Int
  dsum : Num
  lse : Num
  bad : Bool

def Tx.bRow (x : Tx) (r : Nat) : TM BRow := do
  let q ← x.qRow r
  let o ← x.qTensor (Ate.o x) (Ate.oFmt x) r
  let g ← x.qTensor (Ate.dO x) (Ate.doFmt x) r
  let st ← x.f32s (Ate.stats x) ((Ate.rowQ x r * Ate.qHeads x + Ate.rowH x r) * 8) 2
  let gv := g.map (fun e => e.1)
  let k := pow2Scale fp8e5m2 (maxAbs (finOf gv))
  pure ⟨q, quantPow2 fp8e5m2 k gv, k, sumK (x.t.seed + r) (g.zipWith (fun a b => a.1.mul b.1) o), (st.getD 1 (.nan, false)).1,
    q.bad || anyP o || anyP g || anyP st⟩

/-- Two to a power times a number, in FP32. -/
def scale2 (k : Int) (v : Num) : Num := rnd32 (v.mul (.fin false 1 k))

/-- P[r][t] and dS[r][t] of a visible key (R184, R186). -/
def bPair (seed cgs : Nat) (scale : Num) (r : BRow) (k v : KvBlk) (t : Nat) : Num × Num :=
  if r.lse = Num.negInf then (Num.zero, Num.zero)
  else
    let p := expF (r32sub (score seed cgs scale r.q k t) r.lse)
    let terms := (List.range cgs).flatMap (fun g =>
      let dg := (r.dO.drop (32 * g)).take 32
      let ug := ((v.u.getD t []).drop (32 * g)).take 32
      [r32mul (v.sig.getD g Num.zero) (sumK (seed + 1 + g) (dg.zipWith (fun a b => a.mul (Num.ofInt b)) ug)),
       r32mul (v.om.getD g Num.zero) (sumK (seed + 9 + g) dg)])
    let dp := scale2 r.dk (sumK (seed + 17) terms)
    (p, r32mul p (r32sub dp r.dsum))

/-- A row gives NaN: R158 for the keys that it sees. -/
def bNan (r : BRow) (k v : KvBlk) : Bool := r.q.nan || k.nan || v.nan

/-- dQ of one row from one block (nothing where its LSE is −∞, R186), added to what is there: the INT4 offset term uses the exact row sum of dS. -/
def dqStep (seed cgs d : Nat) (scale : Num) (r : BRow) (k v : KvBlk) (vis : List Nat) (a : List Num) : List Num :=
  if vis.isEmpty ∨ r.lse = Num.negInf then a
  else if bNan r k v then a.map (fun _ => .nan)
  else
    let ds := vis.map (fun t => (bPair (seed + 32 * t) cgs scale r k v t).2)
    let e := pow2Scale fp8e5m2 (maxAbs (finOf ds))
    let dq := quantPow2 fp8e5m2 e ds
    let rowSum := Num.sum ds
    (List.range d).map (fun c =>
      let dot := sumK (seed + c) (dq.zipWith (fun y t => y.mul (Num.ofInt ((k.u.getD t []).getD c 0))) vis)
      let term := r32add (r32mul (k.sig.getD (c / 32) Num.zero) (scale2 e dot)) (r32mul (k.om.getD (c / 32) Num.zero) (rnd32 rowSum))
      r32add (a.getD c Num.zero) (r32mul scale term))

/-- Work on the blocks of a backward tile: the rows' visible keys are those of the mask (R186). -/
def Tx.bVis (x : Tx) (ms : List (Nat × Mask)) (j : Nat) (k v : KvBlk) (r : Nat) : List Nat :=
  x.visible ms j (min k.valid v.valid) (Ate.rowQ x r)

/-- Gradients in GRAD_FORMAT. -/
def Tx.gradBytes (x : Tx) (bad : Bool) (l : List Num) : List MB :=
  if Ate.gradFmt x = 1 then packEl 16 (l.map (fun v => (bf16.enc .ieee v, bad))) else f32Bytes bad l
def Tx.gradW (x : Tx) : Nat := if Ate.gradFmt x = 1 then 2 else 4

/-- A row's use of poisoned keys (R191). -/
def bBad (seed cgs : Nat) (scale : Num) (r : BRow) (k v : KvBlk) (vis : List Nat) : Bool :=
  vis.any (fun t => (k.marks.getD t false || v.marks.getD t false) && !(bPair (seed + 32 * t) cgs scale r k v t).1.isZero)

/-- A BWD_Q tile. -/
def Tx.bwdQTile (x : Tx) : TM TRes := do
  let d := Ate.d x
  let n := Ate.rows x
  let rs ← tmap (fun r => x.bRow r) (List.range n)
  let start ← tmap (fun r => if Ate.carryIn x then x.f32s (Ate.carry x) (r * 4 * d) d else pure (List.replicate d (Num.zero, false)))
    (List.range n)
  let s ← x.ateSeq
  let bs ← x.kvAll s
  let res := (List.range n).zipWith (fun r p =>
    let q := p.1
    let a := bs.foldl (fun a b =>
      let a := (a.1, a.2 || maskBad b.2.1 (Ate.rowQ x r))
      match b.2.2 with
      | none => a
      | some (k, v) =>
        let vis := x.bVis b.2.1 b.1 k v r
        let seed := x.t.seed + 4096 * (r + 1024 * b.1)
        (dqStep seed (Ate.cgs x) d (Ate.scale x) q k v vis a.1, a.2 || bBad seed (Ate.cgs x) (Ate.scale x) q k v vis))
      (p.2.map (fun e => e.1), q.bad || anyP p.2)
    (r, (if q.q.nan then a.1.map (fun _ => .nan) else a.1), a.2)) (rs.zip start)
  let outs := res.map (fun e =>
    if Ate.carryOut x then x.out (Ate.carry x) (e.1 * 4 * d) (f32Bytes e.2.2 e.2.1)
    else x.out (Ate.gradA x) (Ate.elem0 x e.1 * x.gradW) (x.gradBytes e.2.2 e.2.1))
  let read := (bs.filter (fun b => b.2.2.isSome)).length
  pure (x.ateRes outs (res.any (fun e => e.2.2)) false read (bs.length - read) (Ate.groups x * (2 * d + 64 * ceilDiv d 64)))

/-- dK and dV of one block from one row group, added to what is there: by slot, then channel, with the slots' marks. A row whose LSE is
−∞ adds nothing (R186); a poisoned row marks every slot that it gives a weight that is not zero (R191). -/
def dkvStep (seed cgs d : Nat) (scale : Num) (rows : List (BRow × List Nat)) (k v : KvBlk)
    (a : List (List Num × List Num × Bool)) : List (List Num × List Num × Bool) :=
  let pairs := (rows.filter (fun r => r.1.lse ≠ Num.negInf)).map (fun r => (r.1, r.2.map (fun t => (t, bPair (seed + 32 * t) cgs scale r.1 k v t))))
  let ps := pairs.flatMap (fun r => r.2.map (fun e => scale2 r.1.dk e.2.1))
  let ds := pairs.flatMap (fun r => r.2.map (fun e => r32mul e.2.2 r.1.q.sq))
  let ep := pow2Scale fp8e4m3 (maxAbs (finOf ps))
  let ed := pow2Scale fp8e5m2 (maxAbs (finOf ds))
  (List.range 64).zipWith (fun t g =>
    let here := pairs.filterMap (fun r => (r.2.find? (fun e => e.1 == t)).map (fun e => (r.1, e.2)))
    if here.isEmpty then g
    else
    let mark := here.any (fun e => !e.2.1.isZero && (e.1.bad || k.marks.getD t false || v.marks.getD t false))
    if here.any (fun e => bNan e.1 k v) then (g.1.map (fun _ => .nan), g.2.1.map (fun _ => .nan), g.2.2 || mark)
    else
      let pq := quantPow2 fp8e4m3 ep (here.map (fun e => scale2 e.1.dk e.2.1))
      let dq := quantPow2 fp8e5m2 ed (here.map (fun e => r32mul e.2.2 e.1.q.sq))
      ((List.range d).map (fun c =>
          let dot := sumK (seed + 128 * t + c) (dq.zipWith (fun y e => y.mul (Num.ofInt (e.1.q.u.getD c 0))) here)
          r32add (g.1.getD c Num.zero) (r32mul scale (scale2 ed dot))),
       (List.range d).map (fun c =>
          let dot := sumK (seed + 128 * t + c + 1) (pq.zipWith (fun y e => y.mul (e.1.dO.getD c Num.zero)) here)
          r32add (g.2.1.getD c Num.zero) (scale2 ep dot)),
       g.2.2 || mark)) a

/-- A BWD_KV tile. -/
def Tx.bwdKvTile (x : Tx) : TM TRes := do
  let d := Ate.d x
  let n := Ate.rows x
  let rs ← tmap (fun r => x.bRow r) (List.range n)
  let start ← tmap (fun b => tmap (fun t =>
    if Ate.carryIn x then do
      let dk ← x.f32s (Ate.carry x) (b * 512 * d + t * 4 * d) d
      let dv ← x.f32s (Ate.carry x) (b * 512 * d + 256 * d + t * 4 * d) d
      pure (dk.map (fun e => e.1), dv.map (fun e => e.1), anyP dk || anyP dv)
    else pure (List.replicate d Num.zero, List.replicate d Num.zero, false)) (List.range 64)) (List.range (Ate.nb x))
  let s ← x.ateSeq
  let bs ← x.kvAll s
  -- a row that gives a poisoned key a weight that is not zero is poisoned
  let idx := ((List.range n).zip rs).map (fun e => (e.1, { e.2 with bad := e.2.bad || bs.any (fun b =>
    maskBad b.2.1 (Ate.rowQ x e.1) || (match b.2.2 with
      | none => false
      | some (k, v) => bBad (x.t.seed + 65536 * (e.1 / 64 + 16 * b.1)) (Ate.cgs x) (Ate.scale x) e.2 k v (x.bVis b.2.1 b.1 k v e.1))) }))
  let res := bs.zipWith (fun b a =>
    let masked := idx.any (fun r => maskBad b.2.1 (Ate.rowQ x r.1))
    let a := a.map (fun g => (g.1, g.2.1, g.2.2 || masked))
    match b.2.2 with
    | none => a
    | some (k, v) => (List.range (Ate.groups x)).foldl (fun a g =>
        dkvStep (x.t.seed + 65536 * (g + 16 * b.1)) (Ate.cgs x) d (Ate.scale x)
          (((idx.drop (64 * g)).take 64).map (fun r => (r.2, x.bVis b.2.1 b.1 k v r.1))) k v a) a) start
  let outs := ((List.range (Ate.nb x)).zip res).flatMap (fun e => ((List.range 64).zip e.2).flatMap (fun g =>
    let dk := g.2.1
    let dv := g.2.2.1
    let bad := g.2.2.2
    if Ate.carryOut x then
      [x.out (Ate.carry x) (e.1 * 512 * d + g.1 * 4 * d) (f32Bytes bad dk),
       x.out (Ate.carry x) (e.1 * 512 * d + 256 * d + g.1 * 4 * d) (f32Bytes bad dv)]
    else
      let t := 64 * (Ate.blk0 x + e.1) + g.1
      [x.out (Ate.gradA x) (t * d * x.gradW) (x.gradBytes bad dk), x.out (Ate.gradB x) (t * d * x.gradW) (x.gradBytes bad dv)]))
  let bad := res.any (fun l => l.any (fun g => g.2.2))
  let read := (bs.filter (fun b => b.2.2.isSome)).length
  pure (x.ateRes outs bad false read (bs.length - read) (Ate.groups x * (2 * d + 128 * ceilDiv d 64)))

/-- An attention tile. -/
def Tx.ateTile (x : Tx) : TM TRes :=
  match Ate.op x with
  | 0 => x.fwdTile
  | 1 => x.mergeTile
  | 2 => x.bwdQTile
  | _ => x.bwdKvTile

end Sys2Proof.Machine
end

