-- ==== Sys2Proof/Machine/MxeOps.lean ====
section
/-! DEFINITION. The arithmetic of an MXE tile: weight decode, patch gather, pass sums, accumulation, rescaling and layout
(02_arithmetic_and_formats.md R35 to R64, 03_matrix_engine.md R74 to R100, 04_weight_streams_and_codebooks.md R115 to R126,
07_vector_engine_windows_and_inlets.md R256 to R264). -/

namespace Sys2Proof.Machine

/-! Fields of the entry (Tables 4.1, 7.5 and 8.7). -/

namespace Mxe
def stat (x : Tx) : Nat := x.f 32 8
def dst (x : Tx) : Nat := x.f 40 8
def rqt (x : Tx) : Nat := x.f 48 8
def rqtEn (x : Tx) : Bool := x.b 55 0
def n0 (x : Tx) : Nat := x.f 56 4
def nch (x : Tx) : Nat := x.f 60 2
def tok (x : Tx) : Nat := x.f 62 1
def passes (x : Tx) : Nat := x.f 63 1
def statFmt (x : Tx) : Nat := x.f 64 1
def dstFmt (x : Tx) : Nat := x.f 65 1
def chanMajor (x : Tx) : Bool := x.b 66 0
def window (x : Tx) : Bool := x.b 66 1
def satBit (x : Tx) : Bool := x.b 66 2
def zxRaw (x : Tx) : Nat := x.f 67 1
def rowsLast (x : Tx) : Nat := x.f 68 1
def statScale (x : Tx) : Nat := x.f 72 8
def statStride (x : Tx) : Nat := x.f 80 4
def dstStride (x : Tx) : Nat := x.f 84 4
/-- The weight stream descriptor at byte 96. -/
def base (x : Tx) : Nat := x.f 96 8
def wfmt (x : Tx) : Nat := bits (x.f 96 8) 56 5
def wsrc (x : Tx) : Nat := bits (x.f 96 8) 52 4
def scaleRaw (x : Tx) : Nat := x.f 104 8
/-- The scale plane shares SOURCE with the element plane. -/
def scaleAddr (x : Tx) : Nat := bits (scaleRaw x) 0 52 + wsrc x * 2 ^ 52
def nTotal (x : Tx) : Nat := x.f 112 4
def kTotal (x : Tx) : Nat := x.f 116 4
def k0 (x : Tx) : Nat := x.f 120 4
def cbBase (x : Tx) : Nat := bits (x.f 128 8) 0 56
def cbId (x : Tx) : Nat := x.f 136 2
def cbReload (x : Tx) : Bool := x.b 138 0
/-- The window block at byte 144. -/
def wIn (x : Tx) : Nat := x.f 144 8

/-- The tile's K extent (Table 8.7). -/
def kExt (x : Tx) : Nat := if passes x = 0 then 0 else 128 * (passes x - 1) + rowsLast x
/-- Rows of pass p. -/
def rows (x : Tx) (p : Nat) : Nat := if p + 1 = passes x then rowsLast x else 128
/-- Accumulation is in INT32 (R39). -/
def isInt (x : Tx) : Bool := decide (statFmt x ≤ 3) && decide (wfmt x ≤ 3)
/-- The rate class of a format: 0 4-bit, 1 8-bit, 2 16-bit (Table 2.7). -/
def fmtClass (c : Nat) : Nat := if fmtW c = 4 then 0 else if fmtW c = 16 then 2 else 1
def rate (x : Tx) : Nat := max (fmtClass (statFmt x)) (fmtClass (wfmt x))
/-- Channels of a column beat: in the 4-bit class a pair (R78, R119). -/
def beatChans (x : Tx) : Nat := if rate x = 0 then 2 else 1
/-- Columns of a pass: the column beats that begin one. -/
def cols (x : Tx) : Nat := ceilDiv (nch x) (beatChans x)
/-- Column beats per pass (R111). -/
def colBeats (x : Tx) : Nat := match rate x with
  | 0 => ceilDiv (nch x) 2
  | 1 => nch x
  | _ => 4 * nch x
/-- Work beats (R111). -/
def beats (x : Tx) : Nat := ((List.range (passes x)).map (fun p => max (colBeats x) (rows x p))).sum + 216
/-- The activation zero point (R57). -/
def zx (x : Tx) : Int := if fmtSigned (statFmt x) then sInt 8 (zxRaw x) else (zxRaw x : Int)
end Mxe

/-! The window block (Table 7.5): a structure, since a VXE tile reads the same layout at AUX. -/

/-- A window block's fields. -/
structure Win where
  addr : Nat
  inH : Nat
  inW : Nat
  cIn : Nat
  y0 : Nat
  rowsIn : Nat
  outW : Nat
  outH : Nat
  oy0 : Nat
  ox0 : Nat
  kh : Nat
  kw : Nat
  sh : Nat
  sw : Nat
  dh : Nat
  dw : Nat
  padT : Nat
  padL : Nat
  py : Nat
  px : Nat
  trans : Bool
  groups : Nat
  gIdx : Nat
  avgPad : Bool
  deriving DecidableEq, Repr

/-- The block that 48 bytes hold. -/
def winOf (b : List Byte) : Win :=
  let f (o n : Nat) : Nat := fldOf b o n
  { addr := f 0 8, inH := f 8 2, inW := f 10 2, cIn := f 12 2, y0 := f 14 2, rowsIn := f 16 2, outW := f 18 2, outH := f 20 2,
    oy0 := f 22 2, ox0 := f 24 2, kh := f 26 1 % 16, kw := f 26 1 / 16, sh := f 27 1 % 16, sw := f 27 1 / 16, dh := f 28 1 % 16,
    dw := f 28 1 / 16, padT := f 29 1, padL := f 30 1, py := f 31 1 % 8, px := f 31 1 / 8 % 8, trans := bit (f 31 1) 6,
    groups := f 32 2, gIdx := f 34 2, avgPad := bit (f 36 1) 4 }

/-- The window block of an MXE tile. -/
def Tx.win (x : Tx) : Win := winOf ((x.t.entry.drop 144).take 48)

/-- Kernel taps of the tile: all of them, or those of its phase (R257, R263). -/
def Win.khT (w : Win) : Nat := if w.trans then ceilDiv (w.kh - w.py) w.sh else w.kh
def Win.kwT (w : Win) : Nat := if w.trans then ceilDiv (w.kw - w.px) w.sw else w.kw
/-- Channels of a group. -/
def Win.cg (w : Win) : Nat := w.cIn / w.groups
/-- The reduction length (R256). -/
def Win.k (w : Win) : Nat := w.khT * w.kwT * w.cg

/-- The width of the grid that pixels wrap at: the output's, or that of the phase's pixels (R257, R263). DEDUCED. -/
def Win.gridW (w : Win) : Nat := if w.trans then max 1 (ceilDiv (w.outW + w.padL - w.px) w.sw) else w.outW

/-- The grid position of the tile's m-th pixel. -/
def Win.grid (w : Win) (m : Nat) : Nat × Nat := (w.oy0 + (w.ox0 + m) / w.gridW, (w.ox0 + m) % w.gridW)

/-- The output pixel of a grid position, if it lies within the output (R263, R264). -/
def Win.outPix (w : Win) (g : Nat × Nat) : Option (Nat × Nat) :=
  let oy : Int := if w.trans then (g.1 : Int) * w.sh + w.py - w.padT else g.1
  let ox : Int := if w.trans then (g.2 : Int) * w.sw + w.px - w.padL else g.2
  if 0 ≤ oy ∧ oy < w.outH ∧ 0 ≤ ox ∧ ox < w.outW then some (oy.toNat, ox.toNat) else none

/-- The image position of tap (j, i) of a grid position, if it lies inside the image (R257, R263). -/
def Win.tap (w : Win) (g : Nat × Nat) (j i : Nat) : Option (Nat × Nat) :=
  let iy : Int := if w.trans then (g.1 : Int) - j else (g.1 : Int) * w.sh - w.padT + (j : Int) * w.dh
  let ix : Int := if w.trans then (g.2 : Int) - i else (g.2 : Int) * w.sw - w.padL + (i : Int) * w.dw
  if 0 ≤ iy ∧ iy < w.inH ∧ 0 ≤ ix ∧ ix < w.inW then some (iy.toNat, ix.toNat) else none

/-- Read one channel of one image position, in elements of a format: image rows are packed runs of IN_W × C_IN elements. -/
def Tx.pixel (x : Tx) (w : Win) (c : Nat) (p : Nat × Nat) (ch : Nat) : TM El := do
  let l ← x.elems w.addr ((p.1 - w.y0) * runBytes (fmtW c) (w.inW * w.cIn)) (fmtW c) (p.2 * w.cIn + ch) 1
  pure (l.headD (0, false))

/-! Codebook halves (R127, R128). -/

/-- A half's contents. -/
def Core.half (k : Core) (h : Nat) : CbsHalf := if h = 0 then k.h0 else k.h1
def Core.setHalf (k : Core) (h : Nat) (v : CbsHalf) : Core := if h = 0 then { k with h0 := v } else { k with h1 := v }

/-- A half is VALID and every tag field equals the wanted one: role, context, CB_ID, image address. -/
def State.cbsMatch (s : State) (n h role ctx id image : Nat) : Bool :=
  s.rb (F.cbsValid n h) && s.rf (F.cbsRole n h) == role && s.rf (F.cbsCtx n h) == ctx && s.rf (F.cbsId n h) == id
    && ((s.core n).half h).image == image

/-- The halves that a codebook tile needs with their roles and images: for CB2 either half. -/
def Tx.cbsCb2 (x : Tx) : Option Nat :=
  (List.range 2).find? (fun h => x.s.cbsMatch x.n h 0 x.t.ctx (Mxe.cbId x) (Mxe.cbBase x))

/-- Entry `i` of a half: 8 values with the entry's mark. -/
def Tx.cbsEntry (x : Tx) (h i : Nat) : List MNum :=
  let v := (x.s.core x.n).half h
  let p := v.bad.contains (8 * i / 64)
  ((v.data.drop (8 * i)).take 8).map (fun b => (fp8e4m3.dec b.toNat, p))

/-! Weight columns (R119, R123 to R126). -/

/-- One channel's column of one pass: its values, absent ones as none, the codebook group scale, the generation of the set that it
meets and the LAST mark of its pass (R87). -/
structure Col where
  w : List (Option MNum)
  scale : Option Num
  gen : Nat
  last : Bool

/-- Mark every value of a column. -/
def Col.mark (c : Col) (p : Bool) : Col :=
  if p then { c with w := c.w.map (fun v => v.map (fun e => (e.1, true))) } else c

/-- Whether an element's block of 32 carries a mark. -/
def blockMark (l : List El) (i : Nat) : Bool := ((l.drop (i / 32 * 32)).take 32).any (fun e => e.2)

/-- Whether channel n's column is in the final column beat of its pass (R87). -/
def Tx.lastCol (x : Tx) (n : Nat) : Bool := (n - Mxe.n0 x) / Mxe.beatChans x + 1 == Mxe.cols x

/-- The column of channel n in pass p, plain or microscaling. -/
def Tx.plainCol (x : Tx) (n p : Nat) : TM Col := do
  let c := Mxe.wfmt x
  let r := Mxe.rows x p
  let idx := Mxe.k0 x + 128 * p
  let blocks := ceilDiv (Mxe.kTotal x) 32
  let l ← x.elems (Mxe.base x) (n * blocks * (4 * fmtW c)) (fmtW c) idx r
  let sc ← if fmtMx c then x.read (Mxe.scaleAddr x) (n * blocks + idx / 32) (ceilDiv r 32) else pure []
  let one (i : Nat) (e : El) : Option MNum :=
    if Mxe.kTotal x ≤ idx + i then none
    else
      let v := fmtNum c e.1
      some (if fmtMx c then v.mul (e8m0 (sc.getD (i / 32) (0, false)).1.toNat) else v, e.2 || blockMark l i)
  pure (Col.mark ⟨(List.range r).zipWith one l, none, p % 2, x.lastCol n⟩ (sc.any (fun b => b.2)))

/-- The sum of two stages of a CB4 weight (R50). -/
def cb4Weight (a b : MNum) : MNum :=
  (if a.1.isNan || b.1.isNan then .nan else fp8e4m3.dec (fp8e4m3.enc .saturate (a.1.add b.1)), a.2 || b.2)

/-- A codebook weight at or above K_TOTAL is zero and keeps its mark (R53, R126); against a microscaling set, whose element there is
absent, it forms no product (R37). -/
def Tx.cbPast (x : Tx) (v : MNum) : Option MNum := if fmtMx (Mxe.statFmt x) then none else some (Num.zero, v.2)

/-- The column of channel n in pass p, from index records (R123). -/
def Tx.cbCol (x : Tx) (n p : Nat) : TM Col := do
  let four := Mxe.wfmt x == 18
  let r := Mxe.rows x p
  let idx := Mxe.k0 x + 128 * p
  let i := idx / 128 * Mxe.nTotal x + n
  let rec ← x.read (Mxe.base x) (i * if four then 64 else 32) (if four then 64 else 32)
  let sc ← x.read (Mxe.scaleAddr x) (i * 2) 2
  let bs := rec.map (fun b => b.1)
  let h := x.t.half
  let group (j : Nat) : List MNum :=
    if four then (x.cbsEntry 0 (fldOf bs (4 * j) 2)).zipWith cb4Weight (x.cbsEntry 1 (fldOf bs (4 * j + 2) 2))
    else x.cbsEntry h (fldOf bs (2 * j) 2)
  let vals := (List.range 16).flatMap group
  let ws := (List.range r).zipWith (fun e v => if Mxe.kTotal x ≤ idx + e then x.cbPast v else some v) vals
  pure (Col.mark ⟨ws, some (fp16.dec (leNat (sc.map (fun b => b.1)))), p % 2, x.lastCol n⟩ ((rec ++ sc).any (fun b => b.2)))

def Tx.col (x : Tx) (n p : Nat) : TM Col := if fmtCb (Mxe.wfmt x) then x.cbCol n p else x.plainCol n p

/-! Stationary rows (R81, R256 to R258). -/

/-- Row i of the tile's K extent: T marked element codes. -/
def Tx.statRow (x : Tx) (i : Nat) : TM (List El) :=
  let c := Mxe.statFmt x
  if Mxe.window x then
    let w := x.win
    let ch := i % w.cg
    let kx := i / w.cg % w.kwT
    let ky := i / w.cg / w.kwT
    tmap (fun m =>
      match w.tap (w.grid m) ky kx with
      | none => .ok (if Mxe.isInt x then Mxe.zxRaw x % 2 ^ fmtW c else 0, false)
      | some p => x.pixel w c p (w.gIdx * w.cg + ch)) (List.range (Mxe.tok x))
  else x.elems (Mxe.stat x) (i * Mxe.statStride x) (fmtW c) 0 (Mxe.tok x)

/-- Row i as numbers, with the block scale of each token. -/
def Tx.statNums (x : Tx) (i : Nat) : TM (List MNum) := do
  let c := Mxe.statFmt x
  let l ← x.statRow i
  if fmtMx c then
    let sc ← x.read (Mxe.statScale x) (64 * (i / 32)) (Mxe.tok x)
    pure (l.zipWith (fun e b => ((fmtNum c e.1).mul (e8m0 b.1.toNat), e.2 || b.2)) sc)
  else pure (l.map (elNum c))

/-! Accumulation (R41 to R45, R55, R94, R100). -/

/-- An ACC entry at the end of the tile: its number, Σx over the same indices, its mark. -/
structure AccEnt where
  v : Num
  sumx : Int
  bad : Bool

/-- The integer of an integer operand. -/
def intOf (n : Num) : Int := n.toInt.getD 0

/-- The products of one pass for token m. -/
def passProds (rows : List (List MNum)) (c : Col) (m : Nat) : List (MNum × MNum) :=
  (rows.zip c.w).filterMap (fun e => e.2.map (fun w => (e.1.getD m (Num.zero, false), w)))

/-- FP32 accumulation of one pass. -/
def accPass (a : Num) (c : Col) (ps : List (MNum × MNum)) : Num :=
  let sum := rnd32 (Num.sum (ps.map (fun p => p.1.1.mul p.2.1)))
  match c.scale with
  | none => rnd32 (a.add sum)
  | some g => rnd32 (a.add (sum.mul g))

/-- Saturating INT32 accumulation in an order that is left open (R41). -/
def accInt (seed : Nat) (l : List Int) : Int :=
  if (l.map Int.natAbs).sum < 2 ^ 31 then l.sum
  else (reorder seed l).foldl (fun a b => clampInt (intMin 32 true) (intMax 32 true) (a + b)) 0

/-- The set that a column of pass `p` meets: the one in the buffer of its generation, where the running pass's set and the next one's
lie in the two buffers (R86, R87). -/
def setOf (stat : List (List (List MNum))) (p : Nat) (c : Col) : List (List MNum) :=
  if c.gen = p % 2 then stat.getD p [] else stat.getD (p + 1) []

/-- The ACC entry of token m from the columns of a channel, pass by pass. -/
def accOf (int : Bool) (seed : Nat) (stat : List (List (List MNum))) (cols : List Col) (m : Nat) : AccEnt :=
  let ps := (List.range cols.length).zipWith (fun p c => (c, passProds (setOf stat p c) c m)) cols
  let all := ps.flatMap (fun p => p.2)
  let bad := all.any (fun p => p.1.2 || p.2.2)
  if int then
    ⟨Num.ofInt (accInt seed (all.map (fun p => intOf p.1.1 * intOf p.2.1))), (all.map (fun p => intOf p.1.1)).sum, bad⟩
  else ⟨ps.foldl (fun a p => accPass a p.1 p.2) Num.zero, 0, bad⟩

/-! Rescaling (R62, R63). -/

/-- An RQT entry's fields (Table 2.9). -/
structure Rqt where
  scale : Num
  bias : Num
  colsum : Int
  outZp : Int
  wzp : Int
  sat : Sat

/-- The entry that R63 uses without an RQT. -/
def rqtNone (sat : Bool) : Rqt := ⟨.fin false 1 0, Num.zero, 0, 0, 0, if sat then .ieee else .saturate⟩

/-- The bytes of entry n, taken in one transfer (R66): those of its line as delivered, or, where the entry crosses a line, what both
lines hold now. -/
def Tx.rqtBytes (x : Tx) (n : Nat) : TM (List Byte) := do
  let b ← x.ctl (Mxe.rqt x) (16 * n) 16
  let o := aOff (Mxe.rqt x) + 16 * n
  let hpa (l : Nat) : Nat := ((x.t.staged.find? (fun g => !g.direct && g.seg == aSeg (Mxe.rqt x) && g.off == l)).map (fun g => g.hpa)).getD 0
  let whole (l : Nat) : List Byte := natLe 64 (leNat (x.s.plainLine ((x.s.ctxSlot x.t.ctx).getD 0) (hpa l)))
  pure (if o % 64 ≤ 48 then b
    else ((whole (o / 64 * 64) ++ whole (o / 64 * 64 + 64)).drop (o % 64)).take 16)

/-- The entry of channel n. An RQT holds at most 65,536 entries (R60); no rule names a check or an effect for a channel past them, and
the entry at 16 n is read like any other (DESIGN CHOICE, assumption 119). -/
def Tx.rqtOf (x : Tx) (n : Nat) : TM Rqt := do
  let b ← x.rqtBytes n
  let s8 (sg : Bool) (v : Nat) : Int := if sg then sInt 8 v else (v : Int)
  pure ⟨ofF32 (fldOf b 0 4), ofF32 (fldOf b 4 4), sInt 32 (fldOf b 8 4), s8 (fmtSigned (Mxe.dstFmt x)) (fldOf b 12 1),
    s8 (fmtSigned (Mxe.wfmt x)) (fldOf b 13 1), if fldOf b 14 1 % 4 = 1 then .ieee else .saturate⟩

/-- The output code of one ACC entry: `k` is the tile's reduction length (R58). -/
def rescale (int rqt : Bool) (dst : Nat) (zx : Int) (k : Nat) (e : Rqt) (a : AccEnt) : Nat :=
  let corr : Int := intOf a.v - e.wzp * a.sumx - zx * e.colsum + (k : Int) * zx * e.wzp
  if int && dst == 21 then codeInt 32 (clampInt (intMin 32 true) (intMax 32 true) corr)
  else
    let v := if int then rnd32 (Num.ofInt corr) else a.v
    if !int && dst == 20 && !rqt then toF32 v
    else encTo dst e.sat e.outZp (rnd32 ((v.mul e.scale).add e.bias))

/-! The row buffers (Table 3.2). -/

/-- The buffer of a generation. -/
def Arr.buf (a : Arr) (g : Nat) : Nat := if g % 2 = 0 then a.b0 else a.b1
def Arr.setBuf (a : Arr) (g v : Nat) : Arr := if g % 2 = 0 then { a with b0 := v } else { a with b1 := v }

/-- A load beat for row `k`, generation `g`: the row loads where its buffer is FREE; a HELD one keeps the handshake waiting. -/
def Arr.loadRow (a : Arr) (g k : Nat) : Arr := if bit (a.buf g) k then a else a.setBuf g (setBits (a.buf g) k 1 1)

/-- The LAST column beat of generation `g` leaves row `k`: its buffer becomes FREE. -/
def Arr.freeRow (a : Arr) (g k : Nat) : Arr := a.setBuf g (setBits (a.buf g) k 1 0)

/-- The stationary set that loads next, when its buffer is FREE in every row: its load beats complete in row order (R81, R86, R89). -/
def Tx.loadSet (x : Tx) (a : Arr) : Arr :=
  if a.sets < Mxe.passes x ∧ a.buf a.sets = 0 then
    { (List.range (Mxe.rows x a.sets)).foldl (fun b k => b.loadRow a.sets k) a with sets := a.sets + 1 }
  else a

/-- A column enters: the set of its pass has loaded, the next set loads meanwhile, and the LAST column of the pass frees its buffer as it
leaves the rows (R87 to R89). -/
def Tx.enter (x : Tx) (a : Arr) : Arr :=
  let p := a.beats / Mxe.cols x
  let a := x.loadSet (x.loadSet a)
  let b := { a with beats := a.beats + 1 }
  if b.beats % Mxe.cols x = 0 then (List.range (Mxe.rows x p)).foldl (fun b k => b.freeRow p k) b else b

/-- Columns enter until `k` have entered; then the sets load for which there is room. -/
def Tx.enterTo (x : Tx) (k : Nat) (a : Arr) : Arr :=
  let a := (List.range (k - a.beats)).foldl (fun b _ => x.enter b) a
  x.loadSet (x.loadSet a)

/-! The tile. -/

/-- The columns of column beat `i`: pass by pass, and within a pass in ascending channel order from N0 (R119). -/
def Tx.beatCols (x : Tx) (i : Nat) : TM (List Col) :=
  let p := i / Mxe.cols x
  let j := i % Mxe.cols x * Mxe.beatChans x
  tmap (fun j => x.col (Mxe.n0 x + j) p) ((List.range (min (Mxe.beatChans x) (Mxe.nch x - j))).map (fun d => j + d))

/-- The columns of every pass, in the order of the stream. -/
def Tx.stream (x : Tx) : TM (List (List Col)) :=
  tmap (fun p => do
    let l ← tmap (fun i => x.beatCols (p * Mxe.cols x + i)) (List.range (Mxe.cols x))
    pure l.flatten) (List.range (Mxe.passes x))

/-- Column beats whose weights have all been delivered, from the first on. -/
def Tx.colsDone (x : Tx) : Nat :=
  ((List.range (Mxe.passes x * Mxe.cols x)).takeWhile (fun i => (x.beatCols i).toOption.isSome)).length

/-- One channel's outputs, token by token, from its columns. -/
def Tx.channel (x : Tx) (stat : List (List (List MNum))) (j : Nat) (cols : List Col) : TM (List El) := do
  let e ← if Mxe.rqtEn x then x.rqtOf (Mxe.n0 x + j) else pure (rqtNone (Mxe.satBit x))
  if !Mxe.isInt x && e.wzp != 0 then .error (.err 0x11 (pgMxe x.n) 5)
  else
    let int := Mxe.isInt x
    let k := min (Mxe.kExt x) (Mxe.kTotal x - Mxe.k0 x)
    let accs := (List.range (Mxe.tok x)).map (fun m => accOf int (x.t.seed + 64 * j + m) stat cols m)
    pure (accs.map (fun a => (rescale int (Mxe.rqtEn x) (Mxe.dstFmt x) (Mxe.zx x) k e a, a.bad)))

/-- Cut the K rows into passes. -/
def passRows (rows : List (List MNum)) (p : Nat) : List (List (List MNum)) :=
  (List.range p).map (fun i => (rows.drop (128 * i)).take 128)

/-- The runs that the tile writes (R97, R261). -/
def Tx.mxeOuts (x : Tx) (chans : List (List El)) : List Out :=
  let w := fmtW (Mxe.dstFmt x)
  let tokRow (m : Nat) : List El := chans.map (fun c => c.getD m (0, false))
  if Mxe.window x then
    (List.range (Mxe.tok x)).filterMap (fun m =>
      (x.win.outPix (x.win.grid m)).map (fun p =>
        x.out (Mxe.dst x) (((p.1 * x.win.outW + p.2) * Mxe.nTotal x + Mxe.n0 x) * w / 8) (packEl w (tokRow m))))
  else if Mxe.chanMajor x then
    (List.range (Mxe.nch x)).zipWith (fun j c => x.out (Mxe.dst x) (j * Mxe.dstStride x) (packEl w c)) chans
  else (List.range (Mxe.tok x)).map (fun m => x.out (Mxe.dst x) (m * Mxe.dstStride x) (packEl w (tokRow m)))

/-- An MXE tile: the columns stream pass by pass, then write-out reads the RQT channel by channel (R96, R119). -/
def Tx.mxeTile (x : Tx) : TM TRes := do
  let rows ← tmap (fun i => x.statNums i) (List.range (Mxe.kExt x))
  let passes ← x.stream
  let blank : Col := ⟨[], none, 0, false⟩
  let chans ← tmap (fun j => x.channel (passRows rows (Mxe.passes x)) j (passes.map (fun l => l.getD j blank))) (List.range (Mxe.nch x))
  let bad := chans.any (fun c => c.any (fun e => e.2))
  let wbad := passes.any (fun l => l.any (fun c => c.w.any (fun w => (w.map (fun v => v.2)).getD false)))
  pure { outs := x.mxeOuts chans, kv := [], hist := [], empty := false, poison := bad,
         events := (if bad then [(pgMxe x.n, 0)] else []) ++ (if wbad then [(pgWdu x.n, 0)] else []), counts := [] }

end Sys2Proof.Machine
end

