-- ==== Sys2Proof/Machine/VxeOps.lean ====
section
/-! DEFINITION. The arithmetic of a VXE tile (07_vector_engine_windows_and_inlets.md R235 to R255, 02_arithmetic_and_formats.md
R67 to R70). The order of a row's additions is one function of the count, since a tile's outputs are a fixed function of its
inputs (R238). -/

namespace Sys2Proof.Machine

/-! Fields of the descriptor (Table 7.1), at byte 32 of the entry. -/

namespace Vxe
def srcA (x : Tx) : Nat := x.f 32 8
def srcB (x : Tx) : Nat := x.f 40 8
def dst (x : Tx) : Nat := x.f 48 8
def aux (x : Tx) : Nat := x.f 56 8
def rows (x : Tx) : Nat := x.f 64 4
def cols (x : Tx) : Nat := x.f 68 4
def op (x : Tx) : Nat := x.f 72 1
def sf (x : Tx) : Nat := x.f 73 1
def dfRaw (x : Tx) : Nat := x.f 74 1
def satIeee (x : Tx) : Bool := x.b 75 0
def gate (x : Tx) : Bool := x.b 75 1
def layer (x : Tx) : Bool := x.b 75 2
def half (x : Tx) : Bool := x.b 75 3
def posVec (x : Tx) : Bool := x.b 75 4
def sStride (x : Tx) : Nat := x.f 76 4
def dStride (x : Tx) : Nat := x.f 80 4
def p (x : Tx) (i : Nat) : Nat := x.f (84 + 4 * i) 4
def pf (x : Tx) (i : Nat) : Num := ofF32 (p x i)
/-- Argmax writes INT32 whatever DST_FMT holds (R656). -/
def argmax (x : Tx) : Bool := op x == 1 && p x 0 == 2
def df (x : Tx) : Nat := if argmax x then 21 else dfRaw x
def sat (x : Tx) : Sat := if satIeee x then .ieee else .saturate
/-- Bits of a stored sample or component of an UNPACK tile's source (Table 7.7). -/
def sampleW (x : Tx) : Nat := match p x 0 with
  | 0 | 4 | 5 => 8
  | 7 | 8 => 32
  | _ => 16
/-- Bits of an element of the vector sources, and of the destination: an UNPACK tile's source has the inlet format, SAMPLE writes 32-bit
words. -/
def srcW (x : Tx) : Nat := if op x = 13 then sampleW x else fmtW (sf x)
def dstW (x : Tx) : Nat := if op x = 6 then 32 else fmtW (df x)
/-- 16-bit mode (R235). -/
def mode16 (x : Tx) : Bool := op x != 6 && decide (srcW x ≤ 16) && decide (fmtW (df x) ≤ 16)
def width (x : Tx) : Nat := if mode16 x then 256 else 128
/-- Elements per pixel of an UNPACK output. -/
def unpackE (x : Tx) : Nat := if p x 0 = 4 ∨ p x 0 = 5 then 3 else 1
/-- Bytes of a stored sample (Table 7.7); for NV12 a byte of Y. -/
def sampleBytes (x : Tx) : Nat := match p x 0 with
  | 0 => 1
  | 1 => 2
  | 2 => 2
  | 3 => 2
  | 4 => 3
  | 5 => 1
  | 6 => 2
  | _ => 4

/-- Work beats of a row (Table 7.2), with the kernel's taps of the window block. -/
def rowBeats (x : Tx) (taps : Nat) : Nat :=
  let c := cols x
  let n := ceilDiv c (width x)
  match op x with
  | 0 => n
  | 1 => n + 8
  | 2 => 2 * n + 16
  | 3 => n
  | 4 => ceilDiv (p x 0) 128 + n
  | 5 => 3 * n + 16
  | 6 => 3 * ceilDiv c 128 + p x 2 + 64
  | 7 => ceilDiv c 32
  | 8 => n
  | 9 => n
  | 10 => taps * n
  | 11 => taps * n
  | 12 => if p x 0 = 0 then n else 4 * n
  | 13 => ceilDiv (unpackE x * c) (width x)
  | _ => ceilDiv c 128 * p x 0

/-- Work beats of the tile (R240). -/
def beats (x : Tx) (taps : Nat) : Nat :=
  rows x * rowBeats x taps + 32 + (if op x = 3 then 16 else 0) + (if op x = 7 then 64 * ceilDiv (cols x) (p x 2) else 0)
end Vxe

/-! Reads and writes. -/

/-- Elements of a source row as numbers. -/
def Tx.vrow (x : Tx) (a r : Nat) : TM (List MNum) := do
  let l ← x.elems a (r * Vxe.sStride x) (fmtW (Vxe.sf x)) 0 (Vxe.cols x)
  pure (l.map (elNum (Vxe.sf x)))

/-- FP32 parameters at AUX, at an element index. -/
def Tx.auxF (x : Tx) (i n : Nat) : TM (List MNum) := x.f32s (Vxe.aux x) (4 * i) n

/-- Values converted to the destination format (R236). -/
def Tx.vcodes (x : Tx) (l : List MNum) : List El := l.map (fun e => (encTo (Vxe.df x) (Vxe.sat x) 0 e.1, e.2))
/-- A destination row. -/
def Tx.vput (x : Tx) (r : Nat) (l : List MNum) : Out :=
  x.out (Vxe.dst x) (r * Vxe.dStride x) (packEl (fmtW (Vxe.df x)) (x.vcodes l))

/-- The sum of a row in its fixed order (R238). -/
def rowSum (l : List Num) : Num := sum32 0 l

/-- Whether a number is −0 or +0 with a sign. -/
def Num.negZero : Num → Bool
  | .fin s m _ => s && m == 0
  | _ => false

/-- The greater of two numbers: NaN when either is, −0 below +0 (R656). -/
def vmax (a b : Num) : Num :=
  if a.isNan || b.isNan then .nan
  else if a.lt b || (a.eqv b && a.negZero) then b else a
def vmin (a b : Num) : Num :=
  if a.isNan || b.isNan then .nan
  else if b.lt a || (a.eqv b && b.negZero) then b else a

/-- A count as a number. -/
def natN (n : Nat) : Num := .fin false n 0

/-! Bins (R67, R68). -/

/-- (x − lo) × 256 / (hi − lo) in FP32. -/
def binVal (lo hi x : Num) : Num := rnd32 ((r32mul (r32sub x lo) (natN 256)).div (r32sub hi lo))

/-- The bin of a value; none for NaN. Finite bounds whose difference overflows FP32 can make the quotient NaN for a finite value; R67 names no
bin then, and the value is counted in none (DESIGN CHOICE, assumption 119). -/
def binOf (lo hi x : Num) : Option Nat :=
  match x with
  | .nan => none
  | .inf s => some (if s then 0 else 255)
  | .fin _ _ _ =>
    match binVal lo hi x with
    | .nan => none
    | .inf s => some (if s then 0 else 255)
    | v => v.floor.map (fun b => (clampInt 0 255 b).toNat)

/-! Row operations. -/

/-- EW (Table 7.2). -/
def ewOp (p0 : Nat) (p1 p2 a b : Num) : Num :=
  match p0 with
  | 0 => r32add a b
  | 1 => r32mul a b
  | 2 => vmax a b
  | 3 => vmin a b
  | _ => rnd32 ((a.mul p1).add p2)

/-- Whether a value is above the best so far, NaN above all; of equal ones, −0 and +0 among them, the earlier index stays (R656). -/
def argBetter (a b : Num) : Bool := !a.isNan && (b.isNan || a.lt b)

/-- The index that argmax gives. -/
def argMax (l : List Num) : Nat :=
  match l with
  | [] => 0
  | v :: t => (t.foldl (fun (acc : Nat × Num × Nat) w =>
      if argBetter acc.2.1 w then (acc.2.2, w, acc.2.2 + 1) else (acc.1, acc.2.1, acc.2.2 + 1)) (0, v, 1)).1

/-- REDUCE (Table 7.2). -/
def reduceOp (p0 : Nat) (l : List Num) : Num :=
  match p0 with
  | 0 => rowSum l
  | 1 => match l with
    | [] => Num.zero
    | v :: t => t.foldl vmax v
  | 2 => natN (argMax l)
  | _ => rowSum (l.map (fun v => v.mul v))

/-- NORM (R243). -/
def normOp (layer : Bool) (eps : Num) (g b l : List Num) : List Num :=
  let n := natN l.length
  let mu := if layer then rnd32 ((rowSum l).div n) else Num.zero
  let d := if layer then l.map (fun v => r32sub v mu) else l
  let s := rnd32 ((rowSum (d.map (fun v => v.mul v))).div n)
  let rs := rsqrtF (r32add s eps)
  (List.range l.length).zipWith (fun i v =>
    rnd32 (((r32mul v rs).mul (g.getD i Num.zero)).add (if layer then b.getD i Num.zero else Num.zero))) d

/-- The segment of an activation table (R244); an interval on which R67 gives no bin leaves the segment open. -/
def actSeg (lo hi x : Num) : Nat := (binOf lo hi x).getD (Config.approx 5 (toF32 x) % 256)

/-- The start of segment `i`. -/
def actStart (lo hi : Num) (i : Nat) : Num := r32add lo (rnd32 ((r32mul (natN i) (r32sub hi lo)).div (natN 256)))

/-- c0 + t·(c1 + t·c2) by two fused steps. -/
def actPoly (t c0 c1 c2 : Num) : Num := rnd32 ((t.mul (rnd32 ((t.mul c2).add c1))).add c0)

/-- SOFTMAX (R246), on y = P0·x. -/
def softmaxOp (y : List Num) : List Num :=
  if y.any (fun v => v.isNan || v == .inf false) then y.map (fun _ => .nan)
  else if y.all (fun v => v == Num.negInf) then y.map (fun _ => Num.zero)
  else
    let m := y.foldl Num.maxN Num.negInf
    let e := y.map (fun v => expF (r32sub v m))
    let t := rowSum e
    e.map (fun v => rnd32 (v.div t))

/-! SAMPLE (R247 to R249). -/

/-- The generator mix (R248). -/
def mix (seed row draw : Nat) : Nat :=
  let m := 2 ^ 64
  let z := (seed + (row * 2 ^ 32 + draw + 1) * 0x9E3779B97F4A7C15) % m
  let z := (z ^^^ (z >>> 30)) * 0xBF58476D1CE4E5B9 % m
  let z := (z ^^^ (z >>> 27)) * 0x94D049BB133111EB % m
  z ^^^ (z >>> 31)

/-- Insert a candidate into a list in descending order, the lower index first on ties. -/
def insCand (c : Nat × Num) : List (Nat × Num) → List (Nat × Num)
  | [] => [c]
  | d :: t => if d.2.lt c.2 then c :: d :: t else d :: insCand c t

/-- The largest `k` logits. -/
def topK (k : Nat) (l : List Num) : List (Nat × Num) :=
  ((List.range l.length).zip l).foldl (fun acc c => (insCand c acc).take k) []

/-- A sum in FP32 in the order given: SAMPLE adds its candidates' weights in descending order (R247). -/
def seqSum (l : List Num) : Num := l.foldl r32add Num.zero

/-- Running sums in FP32. -/
def cumul : Num → List Num → List Num
  | _, [] => []
  | a, v :: t => let b := r32add a v; b :: cumul b t

/-- How many of the candidates are kept: the smallest prefix that reaches TOP_P, or all. -/
def keepLen (topP : Num) : Nat → List Num → Nat
  | n, [] => n
  | n, c :: t => if topP.le c then n + 1 else keepLen topP (n + 1) t

/-- The position of the first running sum above `u`, or the last position. -/
def pickPos (u : Num) : Nat → List Num → Nat
  | n, [] => n - 1
  | n, c :: t => if u.lt c then n else pickPos u (n + 1) t

/-- One row of SAMPLE: the token index and its probability. -/
def sampleOp (tau topP : Num) (k seed draw row : Nat) (l : List Num) : Nat × Num :=
  if l.any Num.isNan || l.all (fun v => v == Num.negInf) then (0xFFFFFFFF, .nan)
  else
    let cand := topK k l
    match cand with
    | [] => (0xFFFFFFFF, .nan)
    | c0 :: _ =>
      if tau.isZero then (c0.1, natN 1)
      else
        let d := cand.map (fun c => if c.2.eqv c0.2 then Num.zero else r32sub c.2 c0.2)
        let e := d.map (fun v => expF (rnd32 (v.div tau)))
        let t := seqSum e
        let p := e.map (fun v => rnd32 (v.div t))
        let kept := p.take (keepLen topP 0 (cumul Num.zero p))
        let tk := seqSum kept
        let q := kept.map (fun v => rnd32 (v.div tk))
        let u := Num.fin false (mix seed row draw >>> 40) (-24)
        let i := pickPos u 0 (cumul Num.zero q)
        ((cand.getD i c0).1, q.getD i .nan)

/-! CONVERT to a microscaling format (R251). -/

/-- e_max of an element format. -/
def mxEmax (c : Nat) : Int := match c with
  | 11 => 8
  | 12 => 15
  | 13 => 2
  | 14 => 4
  | 15 => 2
  | _ => 0

/-- ⌊log₂⌋ of a positive finite number. -/
def floorLog2 : Num → Int
  | .fin _ m e => e + Nat.log2 m
  | _ => 1024

/-- The scale byte of a block and its elements' codes. -/
def mxBlock (c : Nat) (l : List Num) : Nat × List Nat :=
  let enc (v : Num) : Nat :=
    if c = 16 then codeInt 8 (clampInt (-128) 127 (((v.mul (natN 64)).toInt).getD 0)) else encTo c .saturate 0 v
  if l.any Num.isNan then (255, l.map (fun _ => enc .nan))
  else
    let m := maxAbs l
    let e : Nat := if m.isZero then 0 else (clampInt 0 254 (floorLog2 m - mxEmax c + 127)).toNat
    (e, l.map (fun v => enc (v.mul (.fin false 1 (127 - (e : Int))))))

/-- Cut a list into blocks of 32, the last padded with zeros. -/
def mxBlocks (l : List MNum) : List (List MNum) :=
  (List.range (ceilDiv l.length 32)).map (fun b => ((l.drop (32 * b)).take 32 ++ List.replicate 32 (Num.zero, false)).take 32)

/-! Tiles by operation. -/

/-- Mark every value of a row. -/
def markAll (p : Bool) (l : List Num) : List MNum := l.map (fun v => (v, p))
def vals (l : List MNum) : List Num := l.map (fun e => e.1)

/-- Rows of a tile whose rows are independent. -/
def Tx.byRow (x : Tx) (f : Nat → TM (List MNum)) : TM (List Out) :=
  tmap (fun r => do
    let l ← f r
    pure (x.vput r l)) (List.range (Vxe.rows x))

def Tx.vEw (x : Tx) (r : Nat) : TM (List MNum) := do
  let a ← x.vrow (Vxe.srcA x) r
  let b ← if Vxe.p x 0 = 4 then pure a else x.vrow (Vxe.srcB x) r
  pure (a.zipWith (fun u v => (ewOp (Vxe.p x 0) (Vxe.pf x 1) (Vxe.pf x 2) u.1 v.1, u.2 || v.2)) b)

def Tx.vReduce (x : Tx) (r : Nat) : TM (List MNum) := do
  let a ← x.vrow (Vxe.srcA x) r
  pure [(reduceOp (Vxe.p x 0) (vals a), anyP a)]

def Tx.vNorm (x : Tx) (r : Nat) : TM (List MNum) := do
  let a ← x.vrow (Vxe.srcA x) r
  let g ← x.auxF 0 (Vxe.cols x)
  let b ← if Vxe.layer x then x.auxF (Vxe.cols x) (Vxe.cols x) else pure []
  pure (markAll (anyP a || anyP g || anyP b) (normOp (Vxe.layer x) (Vxe.pf x 0) (vals g) (vals b) (vals a)))

/-- ACT on a row, with the table that was loaded at the tile's start (R244). -/
def Tx.vAct (x : Tx) (tab : List MNum) (r : Nat) : TM (List MNum) := do
  let a ← x.vrow (Vxe.srcA x) r
  let b ← if Vxe.gate x then x.vrow (Vxe.srcB x) r else pure []
  let lo := Vxe.pf x 0
  let hi := Vxe.pf x 1
  let ys : List MNum := a.map (fun e =>
    if e.1.isNan then (Num.nan, e.2)
    else
      let i := actSeg lo hi e.1
      let c := (tab.drop (4 * i)).take 3
      let t := r32sub e.1 (actStart lo hi i)
      (actPoly t (c.getD 0 (.nan, false)).1 (c.getD 1 (.nan, false)).1 (c.getD 2 (.nan, false)).1, e.2 || anyP c))
  pure (if Vxe.gate x then ys.zipWith (fun y v => (r32mul y.1 v.1, y.2 || v.2)) b else ys)

/-- ROPE (R245). -/
def Tx.vRope (x : Tx) (r : Nat) : TM (List MNum) := do
  let a ← x.vrow (Vxe.srcA x) r
  let tok := r / Vxe.p x 1
  let pos ← if Vxe.posVec x then do
      let b ← x.read (Vxe.srcB x) (4 * tok) 4
      pure (sInt 32 (leNat (b.map (fun e => e.1))), b.any (fun e => e.2))
    else pure (sInt 32 (Vxe.p x 2) + (tok : Int), false)
  let h := Vxe.p x 0 / 2
  let fs ← x.f32s (Vxe.aux x) 0 h
  let cs := fs.map (fun f => (sinCosF (codeInt 64 pos.1 * 2 ^ 32 + toF32 f.1) ((Num.ofInt pos.1).mul f.1), f.2 || pos.2))
  let z : MNum := (Num.zero, false)
  let at' (c : Nat) : MNum :=
    if 2 * h ≤ c then a.getD c z
    else
      let i := if Vxe.half x then c % h else c / 2
      let lowC := if Vxe.half x then i else 2 * i
      let highC := if Vxe.half x then i + h else 2 * i + 1
      let u := a.getD lowC z
      let v := a.getD highC z
      let t := cs.getD i ((.nan, .nan), false)
      let bad := u.2 || v.2 || t.2
      if c = lowC then (rnd32 ((u.1.mul t.1.2).add (v.1.mul t.1.1).neg), bad)
      else (rnd32 ((u.1.mul t.1.1).add (v.1.mul t.1.2)), bad)
  pure ((List.range (Vxe.cols x)).map at')

def Tx.vSoftmax (x : Tx) (r : Nat) : TM (List MNum) := do
  let a ← x.vrow (Vxe.srcA x) r
  pure (markAll (anyP a) (softmaxOp ((vals a).map (fun v => r32mul (Vxe.pf x 0) v))))

/-- SAMPLE writes 8 B per row. -/
def Tx.vSample (x : Tx) (r : Nat) : TM Out := do
  let a ← x.vrow (Vxe.srcA x) r
  let t := sampleOp (Vxe.pf x 0) (Vxe.pf x 1) (Vxe.p x 2) (Vxe.p x 3 + 2 ^ 32 * Vxe.p x 4) (Vxe.p x 5) r (vals a)
  let bad := anyP a
  pure (x.out (Vxe.dst x) (r * Vxe.dStride x) (packEl 32 [(t.1, bad), (toF32 t.2, bad)]))

/-- The counts of a histogram tile of `cols` columns: group, bin and number, of every bin of every group (R250). -/
def histCounts (cols group : Nat) (lo hi : Num) (rows : List (List MNum)) : List (Nat × Nat × Nat) :=
  let marks := rows.flatMap (fun l => ((List.range l.length).zip l).filterMap (fun e =>
    (binOf lo hi e.2.1).map (fun b => (e.1 / group, b))))
  (List.range (ceilDiv cols group)).flatMap (fun g => (List.range 256).map (fun b => (g, b, marks.count (g, b))))

/-- Row y of a GATHER: its values, and whether the index is out of range (R252). -/
def Tx.vGather (x : Tx) (r : Nat) : TM (List MNum × Bool) := do
  let b ← x.read (Vxe.srcB x) (4 * r) 4
  let i := sInt 32 (leNat (b.map (fun e => e.1)))
  let bad := b.any (fun e => e.2)
  if i < 0 ∨ (Vxe.p x 0 : Int) ≤ i then pure (List.replicate (Vxe.cols x) (Num.zero, bad), true)
  else do
    let a ← x.vrow (Vxe.srcA x) i.toNat
    pure (a.map (fun e => (e.1, e.2 || bad)), false)

/-- A row of CONVERT (R251). -/
def Tx.vConvert (x : Tx) (r : Nat) : TM (List Out) := do
  let a ← x.vrow (Vxe.srcA x) r
  let c := Vxe.df x
  if fmtMx c then
    let bl := (mxBlocks a).map (fun b => (mxBlock c (vals b), anyP b))
    let els : List El := bl.flatMap (fun b => b.1.2.map (fun v => (v, b.2)))
    let sc : List MB := bl.map (fun b => (BitVec.ofNat 8 b.1.1, b.2))
    pure [x.out (Vxe.dst x) (r * Vxe.dStride x) (packEl (fmtW c) els), x.out (Vxe.aux x) (r * bl.length) sc]
  else pure [x.vput r a]

/-! Window operations (R254). -/

/-- The window block at AUX; poison in it stops the tile at once. -/
def Tx.auxWin (x : Tx) : TM Win := do
  let b ← x.ctl (Vxe.aux x) 0 48
  pure (winOf b)

/-- Taps of a kernel in order: all of them, or those of a transposed block's phase (R254, R263). -/
def Win.taps (w : Win) : List (Nat × Nat) := (List.range w.khT).flatMap (fun j => (List.range w.kwT).map (fun i => (j, i)))
/-- The kernel position of a tap. -/
def Win.kernelPos (w : Win) (t : Nat × Nat) : Nat × Nat := if w.trans then (w.py + t.1 * w.sh, w.px + t.2 * w.sw) else t

/-- The channels of one image position. -/
def Tx.vPixel (x : Tx) (w : Win) (p : Nat × Nat) : TM (List MNum) := do
  let c := Vxe.sf x
  let l ← x.elems w.addr ((p.1 - w.y0) * runBytes (fmtW c) (w.inW * w.cIn)) (fmtW c) (p.2 * w.cIn) (Vxe.cols x)
  pure (l.map (elNum c))

/-- The taps of output row `r` that lie inside the image, with their pixels. -/
def Tx.vTaps (x : Tx) (w : Win) (r : Nat) : TM (List ((Nat × Nat) × List MNum)) :=
  tmap (fun t => do
    let l ← x.vPixel w t.2
    pure (t.1, l)) (w.taps.filterMap (fun t => (w.tap (w.grid r) t.1 t.2).map (fun p => (t, p))))

/-- A value for which the spec states nothing: no tap lies inside the image. -/
def noTap (seed : Nat) : Num := ofF32 (Config.approx 6 seed % 2 ^ 32)

/-- POOL (R254). -/
def Tx.vPool (x : Tx) (w : Win) (r : Nat) : TM (List MNum) := do
  let ts ← x.vTaps w r
  pure ((List.range (Vxe.cols x)).map (fun c =>
    let l := ts.map (fun t => t.2.getD c (Num.zero, false))
    match vals l with
    | [] => (noTap (x.t.seed + r), false)
    | v :: t =>
      if Vxe.p x 0 = 0 then (t.foldl vmax v, anyP l)
      else (rnd32 ((rowSum (v :: t)).div (natN (if w.avgPad then w.kh * w.kw else ts.length))), anyP l)))

/-- DWCONV (R254). -/
def Tx.vDwconv (x : Tx) (w : Win) (r : Nat) : TM (List MNum) := do
  let ts ← x.vTaps w r
  let c := Vxe.sf x
  let ws ← tmap (fun (t : (Nat × Nat) × List MNum) => do
    let k := w.kernelPos t.1
    let l ← x.elems (Vxe.srcB x) 0 (fmtW c) ((k.1 * w.kw + k.2) * Vxe.cols x) (Vxe.cols x)
    pure (l.map (elNum c))) ts
  pure ((List.range (Vxe.cols x)).map (fun ch =>
    let ps := (ts.zip ws).map (fun e => (e.1.2.getD ch (Num.zero, false), e.2.getD ch (Num.zero, false)))
    (rowSum (ps.map (fun p => p.1.1.mul p.2.1)), ps.any (fun p => p.1.2 || p.2.2))))

/-- A source coordinate of RESAMPLE: (o + 0.5)·n_in/n_out − 0.5, clamped to the image, in units of 1/(2·n_out). -/
def resamplePos (o nIn nOut : Nat) : Nat :=
  min ((2 * o + 1) * nIn - nOut) (2 * nOut * (nIn - 1))

/-- The nearest source index; which of two equally near ones is open. -/
def nearestIdx (seed pos nOut : Nat) : Nat :=
  let q := pos / (2 * nOut)
  let r := pos % (2 * nOut)
  if r < nOut then q else if nOut < r then q + 1 else q + Config.approx 7 seed % 2

/-- The source pixels that an output pixel uses: for bilinear the four around it. -/
def resampleSrc (bil : Bool) (w : Win) (g : Nat × Nat) : List (Nat × Nat) :=
  let py := resamplePos g.1 w.inH w.outH
  let px := resamplePos g.2 w.inW w.outW
  let y := py / (2 * w.outH)
  let x := px / (2 * w.outW)
  if bil then
    let y1 := min (y + 1) (w.inH - 1)
    let x1 := min (x + 1) (w.inW - 1)
    [(y, x), (y, x1), (y1, x), (y1, x1)]
  else [(min (w.inH - 1) (nearestIdx 0 py w.outH), min (w.inW - 1) (nearestIdx 1 px w.outW))]

/-- a + f·(b − a) in FP32, with exact products in 16-bit mode (R235). -/
def lerp (exact : Bool) (f a b : Num) : Num :=
  let g := r32sub (natN 1) f
  if exact then r32add (g.mul a) (f.mul b) else r32add (r32mul g a) (r32mul f b)

/-- RESAMPLE (R254). -/
def Tx.vResample (x : Tx) (w : Win) (r : Nat) : TM (List MNum) := do
  let g := (w.outPix (w.grid r)).getD (w.grid r)
  let m := Vxe.mode16 x
  let bil := Vxe.p x 0 == 1
  let ps ← tmap (fun p => x.vPixel w p) (resampleSrc bil w g)
  let fy := rnd32 ((natN (resamplePos g.1 w.inH w.outH % (2 * w.outH))).div (natN (2 * w.outH)))
  let fx := rnd32 ((natN (resamplePos g.2 w.inW w.outW % (2 * w.outW))).div (natN (2 * w.outW)))
  pure ((List.range (Vxe.cols x)).map (fun c =>
    let v := ps.map (fun l => l.getD c (Num.zero, false))
    match vals v with
    | [a, b, d, e] => (lerp m fy (lerp m fx a b) (lerp m fx d e), anyP v)
    | a :: _ => (a, anyP v)
    | [] => (Num.zero, false)))

/-! UNPACK (R255). -/

/-- The input vector of pixel or sample `c` of row `r`. -/
def Tx.vStored (x : Tx) (r c : Nat) : TM (List MNum) := do
  let n := Vxe.sampleBytes x
  let b ← x.read (Vxe.srcA x) (r * Vxe.sStride x + c * n) n
  let bad := b.any (fun e => e.2)
  let raw := b.map (fun e => e.1)
  match Vxe.p x 0 with
  | 4 => pure (b.map (fun e => (natN e.1.toNat, e.2)))
  | 5 => do
    let uv ← x.read (Vxe.srcB x) (r / 2 * Vxe.sStride x + c / 2 * 2) 2
    pure ((b ++ uv).map (fun e => (natN e.1.toNat, e.2)))
  | 6 => pure [(Num.ofInt (sInt 16 (leNat raw)), bad)]
  | 7 => pure [(Num.ofInt (sInt 32 (leNat raw)), bad)]
  | 8 => pure [(Num.ofInt (sInt 32 (leNat raw)), bad)]
  | _ => pure [(natN (leNat raw), bad)]

def Tx.vUnpack (x : Tx) (r : Nat) : TM (List MNum) := do
  let m ← x.auxF 0 12
  let ps ← tmap (fun c => x.vStored r c) (List.range (Vxe.cols x))
  let z : MNum := (Num.zero, false)
  pure (ps.flatMap (fun v => (List.range (Vxe.unpackE x)).map (fun j =>
    let ts := (List.range v.length).map (fun k => ((m.getD (3 * j + k) z).1.mul (v.getD k z).1, (m.getD (3 * j + k) z).2 || (v.getD k z).2))
    let o := m.getD (9 + j) z
    (rowSum (vals ts ++ [o.1]), anyP ts || o.2))))

/-! CB_SEARCH (R253). -/

/-- Squared error between weights and an entry, over the weights that exist. -/
def sqErr (w e : List Num) : Num := rowSum (w.zipWith (fun a b => let d := r32sub a b; d.mul d) e)

/-- The candidate with the least squared error, the lower index on ties. -/
def bestCand (w : List Num) : List (Nat × List Num) → Nat
  | [] => 0
  | c :: t => (t.foldl (fun (b : Nat × Num) d =>
      let e := sqErr w d.2
      if e.lt b.2 || (e.eqv b.2 && decide (d.1 < b.1)) then (d.1, e) else b) (c.1, sqErr w c.2)).1

/-- The index record of row n and scale group g. -/
def Tx.vSearch (x : Tx) (n g : Nat) : TM Out := do
  let nc := Vxe.p x 0
  let a ← x.vrow (Vxe.srcA x) n
  let i := g * Vxe.rows x + n
  let cb ← x.read (Vxe.aux x) (i * nc * 2) (2 * nc)
  let idx := unpack 16 nc (cb.map (fun e => e.1))
  let es ← tmap (fun k => do
    let e ← x.read (Vxe.srcB x) (8 * k) 8
    pure (k, e)) idx
  let bad := anyP a || cb.any (fun e => e.2) || es.any (fun e => e.2.any (fun b => b.2))
  let cands := es.map (fun e => (e.1, e.2.map (fun b => fp8e4m3.dec b.1.toNat)))
  let rec' := (List.range 16).map (fun j => (bestCand (((vals a).drop (128 * g + 8 * j)).take 8) cands, bad))
  pure (x.out (Vxe.dst x) (i * 32) (packEl 16 rec'))

/-! The tile. -/

/-- Rows that the tile reads as a vector source: where the first begins, their number, stride and bytes. -/
structure VSrc where
  src : Nat
  /-- The offset, in memory the EVA. -/
  off : Nat
  rows : Nat
  stride : Nat
  bytes : Nat

/-- An offset as the overlap rule compares it: segments may overlap. -/
def Tx.vOff (x : Tx) (src seg off : Nat) : Nat := if src = 0 then (x.s.rf (F.segBase x.t.ctx seg) + off) % 2 ^ 48 else off

/-- A source of `rows` rows at an address. -/
def Tx.vSrc (x : Tx) (a rows stride bytes : Nat) : VSrc := ⟨aSrc a, x.vOff (aSrc a) (aSeg a) (aOff a), rows, stride, bytes⟩

/-- The vector sources of the tile, for the overlap rule of R242: SRC_A is none where DST equals it. -/
def Tx.vSources (x : Tx) (w : Option Win) : List VSrc :=
  let rowB := runBytes (fmtW (Vxe.sf x)) (Vxe.cols x)
  let st := Vxe.sStride x
  let same := decide (Vxe.dst x % 2 ^ 56 = Vxe.srcA x % 2 ^ 56) && Vxe.dStride x == st && Vxe.dstW x == Vxe.srcW x
  let a (n b : Nat) : List VSrc := if same then [] else [x.vSrc (Vxe.srcA x) n st b]
  let b (n stride bytes : Nat) : List VSrc := [x.vSrc (Vxe.srcB x) n stride bytes]
  let rows := Vxe.rows x
  match Vxe.op x with
  | 0 => a rows rowB ++ (if Vxe.p x 0 = 4 then [] else b rows st rowB)
  | 3 => a rows rowB ++ (if Vxe.gate x then b rows st rowB else [])
  | 4 => a rows rowB ++ (if Vxe.posVec x then b 1 0 (4 * ceilDiv rows (Vxe.p x 1)) else [])
  | 9 => a (Vxe.p x 0) rowB ++ b 1 0 (4 * rows)
  | 10 | 11 | 12 => match w with
    | some w => x.vSrc w.addr 1 0 (w.rowsIn * runBytes (fmtW (Vxe.sf x)) (w.inW * w.cIn))
        :: (if Vxe.op x = 11 then b 1 0 (runBytes (fmtW (Vxe.sf x)) (w.kh * w.kw * Vxe.cols x)) else [])
    | none => []
  | 13 => a rows (Vxe.cols x * Vxe.sampleBytes x) ++ (if Vxe.p x 0 = 5 then b (ceilDiv rows 2) st (ceilDiv (Vxe.cols x) 2 * 2) else [])
  | 7 => [x.vSrc (Vxe.srcA x) rows st rowB]
  | 14 => x.vSrc (Vxe.srcA x) rows st rowB :: b 1 0 524288
  | _ => a rows rowB

/-- Whether bytes that the tile writes overlap a row of a source: the first row that ends above them is the one to test. -/
def VSrc.hit (v : VSrc) (src off n : Nat) : Bool :=
  let r := if off < v.off + v.bytes then 0 else if v.stride = 0 then v.rows else (off - v.off - v.bytes) / v.stride + 1
  v.src == src && decide (r < v.rows) && decide (v.off + r * v.stride < off + n)

/-- Outputs of overlapping rows are unspecified (R242). -/
def Tx.vOverlap (x : Tx) (srcs : List VSrc) (outs : List Out) : List Out :=
  outs.map (fun o => if srcs.any (fun v => v.hit o.src (x.vOff o.src o.seg o.off) o.bytes.length) then
    { o with bytes := (List.range o.bytes.length).zipWith (fun i b => (BitVec.ofNat 8 (Config.freeByte x.t.seed (o.off + i)), b.2)) o.bytes }
    else o)

/-- A bin of a histogram tile overlaps a source. -/
def Tx.binHits (x : Tx) (srcs : List VSrc) (h : HistAdd) : Bool := srcs.any (fun v => v.hit h.src (x.vOff h.src h.seg h.off) 4)

/-- A bin as an output of its own, whose bytes the overlap rule leaves open. -/
def Tx.binOut (x : Tx) (h : HistAdd) : Out := ⟨h.src, h.seg, x.n / 4, h.off, List.replicate 4 (0, false)⟩

/-- Rows that are output pixels: one that lies outside the output is computed and not written (R264). -/
def Tx.byPixel (x : Tx) (w : Win) (f : Nat → TM (List MNum)) : TM (List Out × Bool) := do
  let o ← x.byRow f
  pure (((List.range (Vxe.rows x)).zip o).filterMap (fun e => if (w.outPix (w.grid e.1)).isSome then some e.2 else none),
    o.any (fun o => o.bytes.any (fun b => b.2)))

/-- A VXE tile. -/
def Tx.vxeTile (x : Tx) : TM TRes := do
  let rows := List.range (Vxe.rows x)
  let win ← if Vxe.op x = 10 ∨ Vxe.op x = 11 ∨ Vxe.op x = 12 then do
      let w ← x.auxWin
      pure (some w)
    else pure none
  let w := win.getD (winOf [])
  let done (outs : List Out) (hist : List HistAdd) (extra : Bool) (gr : Bool) : TRes :=
    let bad := extra || outs.any (fun o => o.bytes.any (fun b => b.2))
    let srcs := x.vSources win
    { outs := x.vOverlap srcs (outs ++ (hist.filter (x.binHits srcs)).map x.binOut), kv := [],
      hist := hist.filter (fun h => !x.binHits srcs h), empty := false, poison := bad,
      events := (if bad then [(pgVxe x.n, 0)] else []) ++ (if gr then [(pgVxe x.n, 1)] else []),
      counts := [(F.vxeWork x.n, x.t.beats)] }
  let simple (f : Nat → TM (List MNum)) : TM TRes := do
    let o ← x.byRow f
    pure (done o [] false false)
  let pixels (f : Nat → TM (List MNum)) : TM TRes := do
    let o ← x.byPixel w f
    pure (done o.1 [] o.2 false)
  match Vxe.op x with
  | 0 => simple x.vEw
  | 1 => simple x.vReduce
  | 2 => simple x.vNorm
  | 3 => do
    let tab ← x.auxF 0 1024
    let r ← simple (x.vAct tab)
    pure (if anyP tab then { r with events := (pgVxe x.n, 0) :: r.events } else r)
  | 4 => simple x.vRope
  | 5 => simple x.vSoftmax
  | 6 => do
    let o ← tmap (fun r => x.vSample r) rows
    pure (done o [] false false)
  | 7 => do
    let ls ← tmap (fun r => x.vrow (Vxe.srcA x) r) rows
    let hs := histCounts (Vxe.cols x) (Vxe.p x 2) (Vxe.pf x 0) (Vxe.pf x 1) ls
    let a := Vxe.dst x
    pure (done [] (hs.map (fun h => ⟨aSrc a, aSeg a, aOff a + 1024 * h.1 + 4 * h.2.1, h.2.2⟩)) (ls.any anyP) false)
  | 8 => do
    let o ← tmap (fun r => x.vConvert r) rows
    pure (done o.flatten [] false false)
  | 9 => do
    let o ← tmap (fun r => x.vGather r) rows
    pure (done (rows.zipWith (fun r e => x.vput r e.1) o) [] false (o.any (fun e => e.2)))
  | 10 => pixels (fun r => x.vPool w r)
  | 11 => pixels (fun r => x.vDwconv w r)
  | 12 => pixels (fun r => x.vResample w r)
  | 13 => simple x.vUnpack
  | _ => do
    let o ← tmap (fun i => x.vSearch (i % Vxe.rows x) (i / Vxe.rows x)) (List.range (Vxe.rows x * ceilDiv (Vxe.cols x) 128))
    pure (done o [] false false)

end Sys2Proof.Machine
end

