-- ==== Sys2Proof/Machine/AppendOps.lean ====
section
/-! DEFINITION. The computation of the tiles that Broxa generates itself and of DMA tiles: append tiles with their quantisation
(05_attention_engine.md R177 to R180, 06_kv_block_directory.md R221 to R225), the directory tiles of fork, free and trim (R226 to
R229), DMA tiles (08_commands_and_tiles.md R287) and codebook tiles (04_weight_streams_and_codebooks.md R130). -/

namespace Sys2Proof.Machine

/-! FP16 with directed rounding (R177, R178). -/

/-- The magnitude code of m × 2^e in a format, rounded away from zero or toward it. -/
def Fmt.roundDir (f : Fmt) (away : Bool) (m : Nat) (e : Int) : Nat :=
  if m = 0 then 0
  else
    let emin : Int := 1 - (f.bias : Int) - f.mbits
    let q := max (e + (Nat.log2 m : Int) - f.mbits) emin
    let mant := if e < q then m / 2 ^ (q - e).toNat + b2n (away && decide (m % 2 ^ (q - e).toNat ≠ 0)) else m * 2 ^ (e - q).toNat
    (q - emin).toNat * 2 ^ f.mbits + mant

/-- The FP16 code of a number rounded toward +∞ or toward −∞; a magnitude beyond the format becomes an infinity where it is rounded
away from zero. -/
def fp16Dir (up : Bool) : Num → Nat
  | .nan => 0x7E00
  | .inf s => b2n s * 2 ^ 15 + 0x7C00
  | .fin s m e => b2n (s && decide (m ≠ 0)) * 2 ^ 15 + min (if up != s then 0x7C00 else 0x7BFF) (fp16.roundDir (up != s) m e)

/-! The scale and offset of one channel group of a block (R177 to R179). -/

/-- The codes of a group's scale and offset, and what the stored values of its tokens are. -/
structure GroupQ where
  sig : Nat
  om : Nat
  u : List Int
  grew : Bool

/-- A number that is no NaN, else a free FP16 code (R177 and R178 state no scale of a NaN). -/
def codeOr (free : Nat) (n : Num) (code : Num → Nat) : Nat := if n.isNan then free % 2 ^ 16 else code n

/-- The stored value of a number under a scale and an offset (R177, R178): free where the quotient is no number. -/
def quantOne (fmt free : Nat) (sig om x : Num) : Int :=
  if sig.isZero then 0
  else
    let q := if fmt = 0 then x.div sig else (x.sub om).div sig
    if q.isNan then (if fmt = 0 then clampInt (-127) 127 (sInt 8 free) else (free % 16 : Nat))
    else if fmt = 0 then rneClamp (-127) 127 q else rneClamp 0 15 q

/-- The stored values of a list of numbers. -/
def quantAll (fmt seed : Nat) (sig om : Num) (l : List Num) : List Int :=
  l.zipIdx.map (fun v => quantOne fmt (Config.freeByte seed (v.2 + 3)) sig om v.1)

/-- The scale of an INT8 group: rounded toward +∞ and saturated at 65,504 (R177). -/
def int8Sig (seed : Nat) (nan : Bool) (n : Num) : Nat :=
  if nan then Config.freeByte seed 0 % 2 ^ 16 else codeOr (Config.freeByte seed 0) n (fun n => min 0x7BFF (fp16Dir true n))

/-- Quantise a group: the values that the block keeps, the present scale and offset, none for a fresh block, and the new values. New
values that fit the present range are stored in it; otherwise the range grows, and what the block keeps is quantised again (R177 to
R179). The side on which a grown INT4 range has its extra width is free. -/
def quantGroup (fmt seed : Nat) (old : List Num) (now : Option (Nat × Nat)) (nv : List Num) : GroupQ :=
  let s0 := fp16.dec (now.elim 0 (fun p => p.1))
  let w0 := fp16.dec (now.elim 0 (fun p => p.2))
  let nan := (old ++ nv).any Num.isNan
  if fmt = 0 then
    let top := (Num.ofInt 127).mul s0
    if now.isSome && nv.all (fun v => v.abs.le top) then ⟨now.elim 0 (fun p => p.1), 0, quantAll 0 seed s0 Num.zero nv, false⟩
    else
      let base := (maxAbs (old ++ nv)).div (Num.ofInt 127)
      let sig := int8Sig seed nan (if now.isSome then base.maxN ((Num.ofInt 2).mul s0) else base)
      ⟨sig, 0, quantAll 0 seed (fp16.dec sig) Num.zero (old ++ nv), now.isSome⟩
  else
    let hi0 := w0.add ((Num.ofInt 15).mul s0)
    if now.isSome && nv.all (fun v => w0.le v && v.le hi0) then ⟨now.elim 0 (fun p => p.1), now.elim 0 (fun p => p.2), quantAll 1 seed s0 w0 nv, false⟩
    else
      let lo1 := nv.foldl Num.minN (nv.headD Num.zero)
      let hi1 := nv.foldl Num.maxN (nv.headD Num.zero)
      let lo2 := if now.isSome then lo1.minN w0 else lo1
      let hi2 := if now.isSome then hi1.maxN hi0 else hi1
      let wide := ((Num.ofInt 2).mul (hi0.sub w0)).sub (hi2.sub lo2)
      let lack := if now.isSome && wide.isFin then wide.maxN Num.zero else Num.zero
      let below := lack.mul (.fin false (Config.freeByte seed 2 % 257) (-8))
      let om := codeOr (Config.freeByte seed 1) (if nan then .nan else lo2.sub below) (fp16Dir false)
      let w := fp16.dec om
      let sig := codeOr (Config.freeByte seed 0) (if nan then .nan else ((hi2.add (lack.sub below)).sub w).div (Num.ofInt 15)) (fp16Dir true)
      ⟨sig, om, quantAll 1 seed (fp16.dec sig) w (old ++ nv), now.isSome⟩

/-! Append tiles (R221 to R225). The tile's entry is the command's operand block (Table 6.4), its index the head. -/

namespace App
def seq (x : Tx) : Nat := bits (x.f 0 8) 0 52
def src (x : Tx) (plane : Nat) : Nat := bits (x.f (8 + 8 * plane) 8) 0 56
def layer (x : Tx) : Nat := x.f 24 2
def h0 (x : Tx) : Nat := x.f 26 2
def nh (x : Tx) : Nat := x.f 28 2
def tok (x : Tx) : Nat := x.f 30 2
def srcFmt (x : Tx) : Nat := match x.f 32 1 % 4 with
  | 0 => 9
  | 1 => 10
  | _ => 20
def commit (x : Tx) : Bool := x.b 32 2
def head (x : Tx) : Nat := h0 x + x.t.index
/-- Free blocks that the tile reserves, and its work beats (R221). -/
def blocks (tok : Nat) : Nat := 2 * (ceilDiv tok 64 + 1)
def beats (tok d : Nat) : Nat := 2 * ceilDiv (tok * d) 64 + d * blocks tok + 96
end App

/-- What the blocks handled so far leave: the reserved blocks used, the outputs, the directory's operations, consumed poison. -/
structure AppAcc where
  used : Nat
  outs : List Out
  kv : List KvOp
  bad : Bool

/-- Bytes of the scale record (R195). -/
def scaleRec (fmt : Nat) (gs : List GroupQ) : List Byte :=
  let bs := gs.flatMap (fun g => if fmt = 0 then natLe 2 g.sig else natLe 2 g.sig ++ natLe 2 g.om)
  bs ++ List.replicate (32 - bs.length) 0

/-- Bytes of one token's stored values, with a mark. -/
def tokRow (fmt : Nat) (us : List Int) (bad : Bool) : List MB :=
  packEl (if fmt = 0 then 8 else 4) (us.map (fun u => (codeInt (if fmt = 0 then 8 else 4) u, bad)))

/-- One block of a plane: read what it holds, quantise, write in place or to a fresh block (R222). An in-place write changes only slots
at or above the old VALID (R223), so that a block with VALID above the first new slot is copied. -/
def Tx.appendBlock (x : Tx) (r : Seq) (plane b : Nat) (a : AppAcc) : TM AppAcc := do
  let d := r.dim
  let fmt := r.fmt plane
  let tb := tokBytes fmt d
  let first := max r.length (64 * b)
  let s := first - 64 * b
  let n := min (r.length + App.tok x) (64 * b + 64) - first
  let news ← tmap (fun i => do
    let t := first + i - r.length
    x.elems (App.src x plane) 0 (fmtW (App.srcFmt x)) ((t * App.nh x + x.t.index) * d) d) (List.range n)
  let rows : List (List MNum) := news.map (fun l => l.map (elNum (App.srcFmt x)))
  let w ← x.btWord r plane (App.layer x) (App.head x) b
  let key := 2 * b + plane
  let cgs := ceilDiv d 32
  let widths := (List.range cgs).map (fun g => min 32 (d - 32 * g))
  let seed := x.t.seed + 64 * key
  let fresh : Bool := w % 2 ^ 24 == 0 && s == 0
  let g ← if fresh then (pure none : TM (Option BlockGot)) else do
    let g ← x.block key w plane fmt (dcodeOf d) false
    if g.ent.valid < s then stopWith 0x33 else pure (some g)
  let scales ← match g with
    | none => (pure ([], false) : TM (List Byte × Bool))
    | some g => do
        let l ← x.mem true 0 (g.ent.addr + 64 * tb) 32
        pure (l.map (fun e => e.1), l.any (fun e => e.2))
  let sc (gi : Nat) : Option (Nat × Nat) :=
    if g.isNone then none
    else some (if fmt = 0 then (fldOf scales.1 (2 * gi) 2, 0) else (fldOf scales.1 (4 * gi) 2, fldOf scales.1 (4 * gi + 2) 2))
  let newOf (gi : Nat) : List Num := rows.flatMap (fun l => ((l.drop (32 * gi)).take 32).map (fun e => e.1))
  let markOf (gi : Nat) : Bool := scales.2 || rows.any (fun l => ((l.drop (32 * gi)).take 32).any (fun e => e.2))
  let probe := (List.range cgs).map (fun gi => quantGroup fmt (seed + gi) [] (sc gi) (newOf gi))
  let grows := probe.any (fun q => q.grew)
  let copy : Bool := match g with
    | none => false
    | some g => decide (1 < g.ent.ref) || g.pinned || grows || decide (s < g.ent.valid)
  let bad := (List.range cgs).any markOf
  let old ← match g with
    | none => (pure [] : TM (List MB))
    | some g => if !copy then pure [] else do
        let _ ← x.hold g
        let l ← x.mem true 0 g.ent.addr (s * tb)
        let _ ← x.drop g
        pure l
  let oldVals : List (List Int × Bool) := (List.range s).map (slotVals fmt d old)
  let gs := (List.range cgs).map (fun gi =>
    let p := (sc gi).getD (0, 0)
    let deq (u : Int) : Num := (fp16.dec p.2).add ((fp16.dec p.1).mul (Num.ofInt u))
    quantGroup fmt (seed + gi) (oldVals.flatMap (fun v => ((v.1.drop (32 * gi)).take 32).map deq)) (sc gi) (newOf gi))
  -- a group that has grown holds its earlier tokens requantised; another keeps them as stored
  let valsAt (t : Nat) : List Int := (List.range cgs).flatMap (fun gi =>
    let q := gs.getD gi ⟨0, 0, [], false⟩
    let wd := widths.getD gi 0
    if q.grew then (q.u.drop (t * wd)).take wd
    else if t < s then (((oldVals.getD t ([], false)).1).drop (32 * gi)).take wd
    else (q.u.drop ((t - s) * wd)).take wd)
  let markAt (t : Nat) : Bool :=
    if t < s then (oldVals.getD t ([], false)).2 || (grows && bad) else (rows.getD (t - s) []).any (fun e => e.2) || bad
  let recOut : List MB := (scaleRec fmt gs).map (fun v => (v, bad))
  let entry := r.entry (App.layer x) (App.head x) b
  let bt := r.bt plane
  if fresh || copy then
    let i := a.used
    let addr := (x.s.dirRaw (x.t.kv.getD i 0)).elim 0 (fun e => e.addr)
    let body := (List.range (s + n)).flatMap (fun t => tokRow fmt (valsAt t) (markAt t))
    let rel : List KvOp := match g with
      | none => []
      | some g => [.copied, .release g.id]
    pure { used := i + 1, bad := a.bad || bad || old.any (fun e => e.2),
           outs := a.outs ++ [⟨3, 0, 0, addr, body⟩, ⟨3, 0, 0, addr + 64 * tb, recOut⟩],
           kv := a.kv ++ [.take i plane fmt (dcodeOf d) (s + n) (aSeg bt) (aOff bt + entry)] ++ rel }
  else
    let g := g.getD ⟨0, 0, ⟨0, 0, 0, 0, 0, 0, 0, 0, 0⟩, false, 0⟩
    let body := (List.range n).flatMap (fun t => tokRow fmt (valsAt (s + t)) (markAt (s + t)))
    pure { used := a.used, bad := a.bad || bad,
           outs := a.outs ++ [⟨3, 0, 0, g.ent.addr + s * tb, body⟩],
           kv := a.kv ++ [.valid g.id (s + n)] }

/-- An append tile: K, then V, of its head; HIGH rises to one above the highest index (R225). -/
def Tx.appendTile (x : Tx) : TM TRes := do
  let r ← x.seqRec (App.seq x)
  let b0 := r.length / 64
  let b1 := (r.length + App.tok x - 1) / 64
  let idx := (List.range 2).flatMap (fun p => (List.range (b1 + 1 - b0)).map (fun i => (p, b0 + i)))
  let a ← tfold (fun a p => x.appendBlock r p.1 p.2 a) ⟨0, [], [], false⟩ idx
  let high : KvOp := .high (max r.high (b1 + 1)) (aSeg (App.seq x)) (aOff (App.seq x) + 20)
  pure { outs := a.outs, kv := a.kv ++ [high], hist := [], empty := false, poison := a.bad,
         events := if a.bad || x.t.staged.any (fun g => g.poison) then [(pgAte x.n, 0)] else [], counts := [] }

/-! Directory tiles (R226 to R229). The tile's entry is the command's operand block with the opcode before it at byte 79. -/

/-- What a directory command does, from its opcode, its operands and its records. -/
structure DirPlan where
  /-- First block index and indices per table row. -/
  lo : Nat
  per : Nat
  /-- Entries in all. -/
  total : Nat
  deriving DecidableEq, Repr

/-- The plan of a fork of L tokens, of a free, or of a trim of N tokens; `p` is the (parent's) record. -/
def dirPlan (op arg : Nat) (p : Seq) : DirPlan :=
  let lo := if op = 6 then (p.length - arg) / 64 else 0
  let per := if op = 4 then ceilDiv arg 64 else p.high - lo
  ⟨lo, per, 2 * p.layers * p.heads * per⟩

/-- Entry number `e` of a plan: plane, layer, head and block index, in ascending order (R229). -/
def DirPlan.at (p : DirPlan) (r : Seq) (e : Nat) : Nat × Nat × Nat × Nat :=
  let row := e / p.per
  (row / (r.layers * r.heads), row / r.heads % r.layers, row % r.heads, p.lo + e % p.per)

/-- The argument of a directory command: L of a fork, N of a trim. -/
def dirArg (op : Nat) (operands : List Byte) : Nat :=
  if op = 4 then fldOf operands 16 4 % 2 ^ 21 else if op = 6 then fldOf operands 8 4 % 2 ^ 21 else 0

/-- Entries of tile `i` of a plan. -/
def DirPlan.count (p : DirPlan) (i : Nat) : Nat := min 2048 (p.total - 2048 * i)

/-- A directory tile of an opcode. -/
def Tx.dirTile (x : Tx) (op : Nat) : TM TRes := do
  let r ← x.seqRec (App.seq x)
  let arg := dirArg op x.t.entry
  let p := dirPlan op arg r
  let child ← if op = 4 then x.seqRec (bits (x.f 8 8) 0 52) else (pure r : TM Seq)
  let ops ← tmap (fun k => do
    let (plane, layer, head, b) := p.at r (2048 * x.t.index + k)
    let w ← x.btWord r plane layer head b
    let bt := child.bt plane
    let off := aOff bt + child.entry layer head b
    let fmt := r.fmt plane
    let dc := dcodeOf r.dim
    let keep := (r.length - arg) % 64
    let one : List KvOp :=
      if w = 0 then []
      else if op = 4 then [.fork w plane fmt dc (aSeg bt) off]
      else if op = 6 ∧ keep ≠ 0 ∧ b = p.lo then [.trim w plane fmt dc keep]
      else [.free w plane fmt dc (aSeg bt) off]
    pure one) (List.range (p.count x.t.index))
  pure { outs := [], kv := ops.flatten, hist := [], empty := false, poison := false, events := [], counts := [] }

/-! DMA tiles (Table 8.8, R287). -/

namespace Dma
def src (x : Tx) : Nat := bits (x.f 32 8) 0 56
def dst (x : Tx) : Nat := bits (x.f 40 8) 0 56
def dstCl (x : Tx) : Nat := x.f 48 1 % 16
/-- The cluster of a CSB destination. -/
def cl (x : Tx) : Nat := if dstCl x = 15 then x.n / 4 else dstCl x
def rowBytes (x : Tx) : Nat := x.f 52 4
def rows (x : Tx) : Nat := x.f 56 4
def sStride (x : Tx) : Nat := x.f 60 4
def dStride (x : Tx) : Nat := x.f 64 4
def beats (x : Tx) : Nat := rows x * ceilDiv (rowBytes x) 256 + 32
end Dma

/-- A DMA tile copies its rows; poison travels with the bytes and is not consumed (R436). -/
def Tx.dmaTile (x : Tx) : TM TRes := do
  let outs ← tmap (fun r => do
    let l ← x.read (Dma.src x) (r * Dma.sStride x) (Dma.rowBytes x)
    let o := x.out (Dma.dst x) (r * Dma.dStride x) l
    pure { o with cl := Dma.cl x }) (List.range (Dma.rows x))
  pure { TRes.ofOuts outs false with counts := [(F.clDmaBytes (x.n / 4), Dma.rows x * Dma.rowBytes x)] }

/-! Codebook tiles (R127, R130). The entry is that of the MXE tile. -/

/-- The role of the half that a codebook tile loads: CB2, or the stage of CB4 (R127). -/
def Tx.cbRole (x : Tx) : Nat := if Mxe.wfmt x = 17 then 0 else x.t.half + 1
/-- The image address of a half's tag. -/
def Tx.cbImage (x : Tx) (half : Nat) : Nat := Mxe.cbBase x + (if Mxe.wfmt x = 18 ∧ half = 1 then 0x80000 else 0)

/-- The bytes of the half's image. -/
def Tx.cbTile (x : Tx) : TM (List MB) := x.read (x.cbImage x.t.half) 0 0x80000

/-! All kinds. -/

/-- The result of a tile that is no codebook tile. -/
def Tx.result (x : Tx) : TM TRes :=
  match x.t.kind with
  | 0 => x.mxeTile
  | 1 => x.ateTile
  | 2 => x.vxeTile
  | 3 => x.dmaTile
  | 5 => x.appendTile
  | 6 => x.dirTile (x.f 79 1)
  | _ => stopWith 0x11

end Sys2Proof.Machine
end

