-- ==== Sys2Proof/Machine/AdmitOps.lean ====
section
/-! DEFINITION. The admission checks of a tile, in the order of R653: the header and body (08_commands_and_tiles.md Table 8.9), the
retired clusters (R576), the engine's own table (R95, Tables 4.3, 5.2, 7.3 and 7.6, R54), the work beats (R288); and when a tile
is empty (R299). -/

namespace Sys2Proof.Machine

/-- A failed check: its status, the page that shows it (0 none) and the page's ERR_INFO. -/
structure Reject where
  status : Nat
  page : Nat
  info : Nat
  deriving DecidableEq, Repr

/-- The first entry of a list of conditions that holds gives the rejection. -/
def firstFail : List (Bool × Reject) → Option Reject
  | [] => none
  | (b, r) :: l => if b then some r else firstFail l

namespace Hd
/-! The tile header (Table 8.5). -/
def kind (x : Tx) : Nat := x.f 0 1
def cluster (x : Tx) : Nat := x.f 1 1 % 16
def barrier (x : Tx) : Bool := x.b 1 4
def serial (x : Tx) : Bool := x.b 1 5
def dep (x : Tx) : Nat := x.f 2 2
def cspKib (x : Tx) : Nat := x.f 4 2
def csbKib (x : Tx) : Nat := x.f 6 2
def reads (x : Tx) : Nat := x.f 8 2
end Hd

/-- A code of a source that a field allows. -/
def srcIn (a : Nat) (l : List Nat) : Bool := l.contains (aSrc a)

/-- A destination format of the RQT path (R61). -/
def rqtDst (c : Nat) : Bool := decide (c ≤ 10) || c == 20 || c == 21

/-- A transposed phase tile with K = 0 (R264). -/
def Tx.noTaps (x : Tx) : Bool := Mxe.window x && x.win.trans && (x.win.khT == 0 || x.win.kwT == 0)

/-- Bytes of the context's CSB window (R376). -/
def Tx.winBytes (x : Tx) : Nat := x.s.rf (F.csbGran x.t.ctx) * 2 ^ 18

/-! Table 8.9. -/

/-- A field marked "at least one" is zero. -/
def Tx.zeroField (x : Tx) : Bool :=
  Hd.reads x == 0 ||
    (match Hd.kind x with
     | 0 => (!x.noTaps && (Mxe.passes x == 0 || Mxe.rowsLast x == 0)) || Mxe.statStride x == 0 || Mxe.dstStride x == 0
     | 3 => Dma.rowBytes x == 0
     | _ => false)

/-- A header code or range is wrong. -/
def Tx.headerBad (x : Tx) : Bool :=
  decide (3 < Hd.kind x) || (decide (4 ≤ Hd.cluster x) && decide (Hd.cluster x ≤ 14)) || decide (4096 < Hd.cspKib x)
    || decide (16384 < Hd.csbKib x) || decide (x.winBytes < Hd.csbKib x * 1024) || decide (1024 < Hd.reads x)
    || decide (x.t.index < Hd.dep x)

/-- A source, format or cluster code of the body is not valid for its field. -/
def Tx.codeBad (x : Tx) : Bool :=
  match Hd.kind x with
  | 0 => (!Mxe.window x && !srcIn (Mxe.stat x) [1, 2]) || !srcIn (Mxe.dst x) [0, 1, 2] || (Mxe.rqtEn x && !srcIn (Mxe.rqt x) [0])
      || decide (16 < Mxe.statFmt x) || !rqtDst (Mxe.dstFmt x)
      || (fmtMx (Mxe.statFmt x) && !srcIn (Mxe.statScale x) [0, 1, 2]) || (Mxe.window x && !srcIn x.win.addr [1, 2])
  | 3 => !srcIn (Dma.src x) [0, 1] || !srcIn (Dma.dst x) [0, 1] || (decide (4 ≤ Dma.dstCl x) && decide (Dma.dstCl x ≤ 14))
  | _ => false

/-- A stride that the tile uses is below its row length. -/
def Tx.strideBad (x : Tx) : Bool :=
  match Hd.kind x with
  | 0 => !Mxe.window x && (decide (Mxe.statStride x < runBytes (fmtW (Mxe.statFmt x)) (Mxe.tok x))
      || decide (Mxe.dstStride x < runBytes (fmtW (Mxe.dstFmt x)) (if Mxe.chanMajor x then Mxe.tok x else Mxe.nch x)))
  | 3 => decide (Dma.sStride x < Dma.rowBytes x) || decide (Dma.dStride x < Dma.rowBytes x)
  | _ => false

/-- A DMA extent passes the end of the window, or names a cluster without one. -/
def Tx.extentBad (x : Tx) : Bool :=
  let past (off stride : Nat) : Bool := decide (0 < Dma.rows x) && decide (x.winBytes < off + (Dma.rows x - 1) * stride + Dma.rowBytes x)
  Hd.kind x == 3 &&
    ((aSrc (Dma.src x) == 1 && past (aOff (Dma.src x)) (Dma.sStride x))
    || (aSrc (Dma.dst x) == 1 && (past (aOff (Dma.dst x)) (Dma.dStride x)
        || (Dma.dstCl x != 15 && Dma.dstCl x != Hd.cluster x && !bit (x.s.rf (F.csbBound x.t.ctx)) (Dma.dstCl x)))))

/-- Steps 1 and 2 of R653; a failure shows on the TSQ page with the context (R645). -/
def Tx.tsqChecks (x : Tx) : Option Reject :=
  let no (st : Nat) : Reject := ⟨st, pgTsq x.n, x.t.ctx⟩
  firstFail [(x.zeroField, no 0x10), (x.headerBad, no 0x11), (x.codeBad, no 0x11), (x.strideBad, no 0x11), (x.extentBad, no 0x11),
    (decide (Hd.cluster x < 4) && bits (x.s.hsa.retired) (4 * Hd.cluster x) 4 == 15, no 0x11)]

/-! The window block (Table 7.6). -/

/-- A field marked "at least one" is zero. -/
def Win.zero (w : Win) : Bool :=
  [w.inH, w.inW, w.cIn, w.rowsIn, w.outW, w.outH, w.kh, w.kw, w.sh, w.sw, w.dh, w.dw, w.groups].any (fun v => v == 0)

/-- Whether an image row lies outside the rows that are held. -/
def Win.notHeld (w : Win) (p : Nat × Nat) : Bool := decide (p.1 < w.y0) || decide (w.y0 + w.rowsIn ≤ p.1)

/-- The image positions that a grid position uses: its taps, or the source pixels of RESAMPLE. -/
def Win.used (w : Win) (resample : Option Bool) (g : Nat × Nat) : List (Nat × Nat) :=
  match resample with
  | some bil => resampleSrc bil w g
  | none => (List.range w.khT).flatMap (fun j => (List.range w.kwT).filterMap (fun i => w.tap g j i))

/-- The checks of Table 7.6 after its first row, for `n` pixels; `mxe` tells the K_TOTAL and the layout of an MXE tile. -/
def Win.bad (w : Win) (n : Nat) (mxe : Option (Nat × Bool)) (resample : Option Bool) : Bool :=
  decide (8 < w.sh) || decide (8 < w.sw) || decide (8 < w.dh) || decide (8 < w.dw) || decide ((w.kh - 1) * w.dh < w.padT)
    || decide ((w.kw - 1) * w.dw < w.padL) || w.cIn % w.groups != 0 || decide (w.groups ≤ w.gIdx)
    || (match mxe with
        | some (k, chan) => decide (w.k ≠ k) || chan
        | none => false)
    || (w.trans && (decide (1 < w.dh) || decide (1 < w.dw) || decide (w.sh ≤ w.py) || decide (w.sw ≤ w.px)))
    || (!w.trans && (List.range n).any (fun m => decide (w.outH ≤ (w.grid m).1)))
    || (List.range n).any (fun m => (w.used resample (w.grid m)).any w.notHeld)

/-! Step 3 of R653. -/

/-- The MXE checks: R95, Table 4.3, Table 7.6, the ZX rule of R54, the PASSES rule of Table 8.7, the beats of R112. -/
def Tx.mxeChecks (x : Tx) : Option Reject :=
  let mxe (r : Nat) : Reject := ⟨0x11, pgMxe x.n, r + 16 * x.t.ctx⟩
  let wdu (st r : Nat) : Reject := ⟨st, pgWdu x.n, r + 16 * x.t.ctx⟩
  let cb := fmtCb (Mxe.wfmt x)
  let unit := if cb then 128 else 32
  let w := x.win
  let k := w.k
  firstFail [
    (decide (64 < Mxe.tok x), mxe 1), (decide (4096 < Mxe.nch x), mxe 2), (decide (128 < Mxe.rowsLast x), mxe 3),
    (Mxe.nTotal x == 0 || (Mxe.kTotal x == 0 && !x.noTaps), wdu 0x10 1),
    (decide (18 < Mxe.wfmt x) || decide (2 < Mxe.wsrc x) || (cb && decide (1 < aSrc (Mxe.cbBase x))), wdu 0x11 2),
    (Mxe.k0 x % unit != 0, wdu 0x11 3),
    (decide (Mxe.nTotal x < Mxe.n0 x + Mxe.nch x), wdu 0x11 4),
    (decide (ceilDiv (Mxe.kTotal x) unit * unit < Mxe.k0 x + Mxe.kExt x), wdu 0x11 5),
    (cb && aOff (Mxe.cbBase x) % 64 != 0, wdu 0x11 6),
    (Mxe.window x && w.zero, ⟨0x10, 0, 0⟩),
    (Mxe.window x && w.bad (Mxe.tok x) (some (Mxe.kTotal x, Mxe.chanMajor x)) none, ⟨0x11, 0, 0⟩),
    (Mxe.zxRaw x != 0 && !Mxe.isInt x, mxe 5),
    (Mxe.window x && (Mxe.passes x != ceilDiv k 128 || Mxe.rowsLast x != k - 128 * (Mxe.passes x - 1)), mxe 6),
    (decide (16384 < Mxe.beats x), mxe 4)]

/-- The ATE checks, Table 5.2 with the reasons of Table 5.14. -/
def Tx.ateChecks (x : Tx) : Option Reject :=
  let no (st r : Nat) : Reject := ⟨st, pgAte x.n, r + 16 * x.t.ctx⟩
  let g := Ate.qHeads x / Ate.kvHeads x
  firstFail [
    (Ate.qHeads x == 0 || Ate.kvHeads x == 0 || Ate.d x == 0, no 0x10 1),
    (decide (3 < Ate.op x) || decide (1 < Ate.gradFmt x) || !srcIn (Ate.carry x) [0, 1] || !srcIn (Ate.seq x) [0]
      || [Ate.q x, Ate.o x, Ate.stats x, Ate.map x, Ate.mapPtr x, Ate.bitmap x, Ate.dO x, Ate.gradA x, Ate.gradB x].any
          (fun a => !srcIn a [0, 1, 2])
      || [Ate.qFmt x, Ate.oFmt x, Ate.doFmt x].any (fun c => decide (3 < c)), no 0x11 2),
    (!headDims.contains (Ate.d x), no 0x11 3),
    (decide (256 < Ate.qHeads x) || decide (256 < Ate.kvHeads x) || Ate.qHeads x % Ate.kvHeads x != 0, no 0x11 4),
    (decide (Ate.qHeads x < Ate.h0 x + Ate.gh x) || (Ate.gh x != 0 && Ate.h0 x / g != (Ate.h0 x + Ate.gh x - 1) / g), no 0x11 5),
    (decide (1024 < Ate.rows x), no 0x11 6),
    (decide (1048576 < Ate.kvLen x) || decide (ceilDiv (Ate.kvLen x) 64 < Ate.blk0 x + Ate.nb x), no 0x11 7),
    (Ate.op x == 1 && (decide (Ate.nPart x < 2) || decide (64 < Ate.nPart x)), no 0x11 8),
    (Ate.op x == 3 && (decide (16 < Ate.nb x) || decide (2048 < Ate.nb x * Ate.d x)), no 0x11 9),
    (decide (16384 < Ate.beats x), no 0x11 10)]

/-- An operation that takes a window block (R254). -/
def Vxe.windowOp (op : Nat) : Bool := op == 10 || op == 11 || op == 12

/-- A format code that a VXE field may hold (R239). -/
def Vxe.fmtOk (c : Nat) : Bool := decide (c ≤ 16) || c == 20 || c == 21

/-- The greatest P0 of an operation whose P0 is a code. -/
def Vxe.p0Max (op : Nat) : Option Nat := match op with
  | 0 => some 4
  | 1 => some 3
  | 10 => some 1
  | 12 => some 1
  | 13 => some 8
  | _ => none

/-- The row of SRC_A in bytes, none where the stride is unused (Table 7.4). -/
def Vxe.srcRow (x : Tx) : Option Nat :=
  if windowOp (op x) then none
  else if op x = 13 then some (sampleBytes x * cols x)
  else some (runBytes (fmtW (sf x)) (cols x))

/-- The row of DST in bytes, none where the stride is unused (Table 7.4). -/
def Vxe.dstRow (x : Tx) : Option Nat :=
  let w := fmtW (df x)
  match op x with
  | 1 => some (runBytes w 1)
  | 6 => some 8
  | 7 => none
  | 8 => some (if fmtMx (df x) then ceilDiv (cols x) 32 * (4 * w) else runBytes w (cols x))
  | 13 => some (runBytes w (unpackE x * cols x))
  | 14 => none
  | _ => some (runBytes w (cols x))

/-- A parameter of an operation is out of range. -/
def Vxe.paramBad (x : Tx) : Bool :=
  match op x with
  | 4 => p x 0 % 2 != 0 || decide (cols x < p x 0) || decide (256 < p x 0) || p x 1 == 0
  | 6 => decide (1024 < p x 2) || !(Num.zero.lt (pf x 1) && (pf x 1).le (Num.ofInt 1)) || !(pf x 0).isFin || (pf x 0).lt Num.zero
  | 7 => decide (64 < p x 2) || !(pf x 0).isFin || !(pf x 1).isFin || (pf x 1).le (pf x 0)
  | 14 => decide (256 < p x 0)
  | _ => false

/-- The VXE checks, Table 7.3 with the reasons of Table 7.14; `w` is the window block of an operation that takes one. -/
def Tx.vxeChecks (x : Tx) (w : Option Win) : Option Reject :=
  let no (st r : Nat) : Reject := ⟨st, pgVxe x.n, r + 16 * x.t.ctx⟩
  let op := Vxe.op x
  let below (r : Option Nat) (stride : Nat) : Bool := r.any (fun n => decide (stride < n))
  let taps := w.elim 1 (fun w => w.kh * w.kw)
  firstFail [
    (Vxe.cols x == 0 || Vxe.sStride x == 0 || Vxe.dStride x == 0 || (op == 4 && Vxe.p x 0 == 0) || (op == 6 && Vxe.p x 2 == 0)
      || (op == 7 && Vxe.p x 2 == 0) || (op == 14 && Vxe.p x 0 == 0) || w.any Win.zero, no 0x10 1),
    (decide (14 < op) || !Vxe.fmtOk (Vxe.sf x) || fmtMx (Vxe.sf x)
      || (!Vxe.argmax x && (!Vxe.fmtOk (Vxe.dfRaw x) || (fmtMx (Vxe.dfRaw x) && op != 8)))
      || (!Vxe.windowOp op && !srcIn (Vxe.srcA x) [0, 1, 2])
      || [Vxe.srcB x, Vxe.dst x, Vxe.aux x].any (fun a => !srcIn a [0, 1, 2])
      || w.any (fun w => !srcIn w.addr [0, 1, 2])
      || (Vxe.p0Max op).any (fun m => decide (m < Vxe.p x 0)) || decide (32 ≤ x.f 75 1), no 0x11 2),
    (below (Vxe.srcRow x) (Vxe.sStride x) || below (Vxe.dstRow x) (Vxe.dStride x), no 0x11 5),
    (((op == 2 || op == 5) && decide (32768 < Vxe.cols x)) || (op == 6 && decide (262144 < Vxe.cols x)), no 0x11 3),
    (Vxe.paramBad x, no 0x11 4),
    (w.any (fun w => w.bad (Vxe.rows x) none (if op = 12 then some (Vxe.p x 0 == 1) else none)), no 0x11 6),
    (decide (16384 < Vxe.beats x taps), no 0x11 7)]

/-- Every check of a tile of a TDT, in the order of R653. -/
def Tx.checks (x : Tx) (w : Option Win) : Option Reject :=
  match x.tsqChecks with
  | some r => some r
  | none => match Hd.kind x with
    | 0 => x.mxeChecks
    | 1 => x.ateChecks
    | 2 => x.vxeChecks w
    | _ => if 16384 < Dma.beats x then some ⟨0x11, pgTsq x.n, x.t.ctx⟩ else none

/-- A tile that has passed its checks is empty: a count that its kind and operation use is zero (R299). -/
def Tx.isEmpty (x : Tx) : Bool :=
  match Hd.kind x with
  | 0 => Mxe.tok x == 0 || Mxe.nch x == 0
  | 1 => Ate.gh x == 0 || Ate.tq x == 0
  | 2 => Vxe.rows x == 0
  | _ => Dma.rows x == 0

/-- Work beats of a tile of a TDT. -/
def Tx.workBeats (x : Tx) (w : Option Win) : Nat :=
  match Hd.kind x with
  | 0 => Mxe.beats x
  | 1 => Ate.beats x
  | 2 => Vxe.beats x (w.elim 1 (fun w => w.kh * w.kw))
  | _ => Dma.beats x

/-- The CBS halves that an MXE tile needs (R127, R131): which half, its role. For CB2 the half that matches, else the one used least
recently, half 0 on a tie. -/
def Tx.cbHalves (x : Tx) : List (Nat × Nat) :=
  if Mxe.wfmt x = 18 then [(0, 1), (1, 2)]
  else if Mxe.wfmt x = 17 then
    let k := x.s.core x.n
    match x.cbsCb2 with
    | some h => [(h, 0)]
    | none => [(if k.h1.used < k.h0.used then 1 else 0, 0)]
  else []

/-- The first half that a codebook tile must load before the MXE tile (R129): one that does not match, or, with CB_RELOAD, one not
yet loaded for this tile. -/
def Tx.cbMissing (x : Tx) : Option Nat :=
  (x.cbHalves.find? (fun h =>
    !x.s.cbsMatch x.n h.1 h.2 x.t.ctx (Mxe.cbId x) (x.cbImage h.1)
      || (Mxe.cbReload x && ((x.s.core x.n).half h.1).loaded != some (x.t.qn, x.t.slot, x.t.index)))).map (fun h => h.1)

end Sys2Proof.Machine
end

