-- ==== Sys2Proof/Machine/PlaceOps.lean ====
section
/-! DEFINITION. Where a tile's outputs go, what a stopped tile leaves in those places, and what its engine counts
(08_commands_and_tiles.md R294, R654, 12_memory_ports_ordering_integrity.md R440, 03_matrix_engine.md R102, R113). -/

namespace Sys2Proof.Machine

/-! Places. -/

/-- Why a tile stops at its end. -/
inductive EndStop where
  | fault (a : Access) (kind stage level ipa : Nat)
  | err (status : Nat)
  deriving DecidableEq, Repr

/-- Cut marked bytes at line boundaries. -/
def mbPieces : Nat → Nat → List MB → List (Nat × List MB)
  | 0, _, _ => []
  | _ + 1, _, [] => []
  | f + 1, a, bs => (a, bs.take (64 - a % 64)) :: mbPieces f (a + (64 - a % 64)) (bs.drop (64 - a % 64))

/-- The HPA of an access of a tile on core `n`. -/
def State.tileHpa (s : State) (n : Nat) (t : Tile) (seg off right : Nat) : Except EndStop Nat × State :=
  match s.xlateAt (some n) t.ctx seg off right with
  | (.ok h, s) => (.ok h, s)
  | (.fault k st l ipa, s) => (.error (.fault ⟨false, seg, off, right⟩ k st l ipa), s)
  | (r, s) => (.error (.err r.status), s)

/-- The place of one piece at an offset: a CSP write is checked and dropped, since the CSP is dead after the tile (R289, R654). -/
def State.placePiece (s : State) (n : Nat) (t : Tile) (src seg cl off : Nat) (bs : List MB) : Except EndStop (List Wr) × State :=
  match src with
  | 0 =>
    match s.tileHpa n t seg off 2 with
    | (.ok h, s) => (.ok [.mem h bs], s)
    | (.error e, s) => (.error e, s)
  | 1 => match s.winPhys cl t.ctx off with
    | some a => (.ok [.csb a bs], s)
    | none => (.error (.err 0x11), s)
  | 2 => if t.cspKib * 1024 < off + bs.length then (.error (.err 0x11), s) else (.ok [], s)
  | _ => (.ok [.mem off bs], s)

/-- The place of one addition of a histogram (R250). -/
def State.placeAdd (s : State) (n : Nat) (t : Tile) (h : HistAdd) : Except EndStop (List Wr) × State :=
  match h.src with
  | 0 =>
    match s.tileHpa n t h.seg h.off 4 with
    | (.ok a, s) => (.ok [.addMem a h.add], s)
    | (.error e, s) => (.error e, s)
  | 1 => match s.winPhys (n / 4) t.ctx h.off with
    | some a => (.ok [.addCsb a h.add], s)
    | none => (.error (.err 0x11), s)
  | _ => if t.cspKib * 1024 < h.off + 4 then (.error (.err 0x11), s) else (.ok [], s)

/-- Map over a list with a machine that changes; the first stop answers. -/
def placeAll {α β : Type} (f : State → α → Except EndStop β × State) : List α → State → Except EndStop (List β) × State
  | [], s => (.ok [], s)
  | a :: l, s =>
    match f s a with
    | (.error e, s) => (.error e, s)
    | (.ok b, s) =>
      match placeAll f l s with
      | (.ok r, s) => (.ok (b :: r), s)
      | (.error e, s) => (.error e, s)

/-- The block-table word that a directory step writes: segment and offset. -/
def KvOp.word : KvOp → Option (Nat × Nat)
  | .take _ _ _ _ _ seg off => some (seg, off)
  | .fork _ _ _ _ seg off => some (seg, off)
  | .free _ _ _ _ seg off => some (seg, off)
  | .high _ seg off => some (seg, off)
  | .valid _ _ | .release _ | .copied | .trim _ _ _ _ _ => none

/-- A directory step with the HPA of its word; the W right is checked before anything is committed (R224). -/
def State.placeKv (s : State) (n : Nat) (t : Tile) (o : KvOp) : Except EndStop (KvOp × Nat) × State :=
  match o.word with
  | none => (.ok (o, 0), s)
  | some (seg, off) =>
    match s.tileHpa n t seg off 2 with
    | (.ok h, s) => (.ok (o, h), s)
    | (.error e, s) => (.error e, s)

/-- Everything that a result writes, at its places. -/
def State.placeRes (s : State) (n : Nat) (t : Tile) (r : TRes) : Except EndStop (List Wr × List (KvOp × Nat)) × State :=
  let ps := r.outs.flatMap (fun o => (mbPieces (o.bytes.length / 64 + 2) o.off o.bytes).map (fun p => (o, p)))
  match placeAll (fun s p => s.placePiece n t p.1.src p.1.seg p.1.cl p.2.1 p.2.2) ps s with
  | (.error e, s) => (.error e, s)
  | (.ok ws, s) =>
    match placeAll (fun s o => s.placeKv n t o) r.kv s with
    | (.error e, s) => (.error e, s)
    | (.ok ks, s) =>
      match placeAll (fun s h => s.placeAdd n t h) r.hist s with
      | (.error e, s) => (.error e, s)
      | (.ok hs, s) => (.ok (ws.flatten ++ hs.flatten, ks), s)

/-! Writing. -/

/-- Write bytes within one line of a CSB: only a whole clean line clears poison. -/
def State.csbWrite (s : State) (a : Nat) (bs : List MB) : State :=
  let bad := bs.any (fun b => b.2)
  let l := a / 64
  { s with csb := memPut s.csb a (bs.map (fun b => b.1)),
           csbPoison := if bad then setIns s.csbPoison l else if bs.length = 64 then setDel s.csbPoison l else s.csbPoison }

/-- `n` bytes within a line of memory become undefined; under an encrypting slot it is their plain values that do. Marks stay. -/
def State.freeMem (s : State) (slot hpa pos n : Nat) : State :=
  let bs := freeBytes s.free pos n
  if s.encrypts slot && !s.linePoison hpa then
    s.putLine slot (hpa / 64 * 64) (splice (s.plainLine slot (hpa / 64 * 64)) (hpa % 64) bs)
  else { s with mem := memPut s.mem hpa bs }

/-- One output of a stopped tile: what was written is undefined (R294), the whole line where the piece is poisoned (R440). The
marks stay; an addition that poison refused has changed nothing (R658). -/
def State.spoilWr (s : State) (slot pos : Nat) : Wr → State
  | .mem h bs => if bs.any (fun b => b.2) then s.freeMem slot (h / 64 * 64) pos 64 else s.freeMem slot h pos bs.length
  | .csb a bs => { s with csb := memPut s.csb a (freeBytes s.free pos bs.length) }
  | .addMem h _ => if s.linePoison h then s else s.freeMem slot h pos 4
  | .addCsb a _ => if s.csbPoison.contains (a / 64) then s else { s with csb := memPut s.csb a (freeBytes s.free pos 4) }

/-- Outputs that a stopped command may have written hold free bytes (R294, R480). -/
def State.spoil (s : State) (slot : Nat) (ws : List Wr) : State :=
  { (List.range ws.length).zip ws |>.foldl (fun s p => s.spoilWr slot (64 * p.1) p.2) s with free := s.free + 1 }

/-- A tile with a line of zeros delivered, a block taken for granted. -/
def Tile.assume (t : Tile) : TStop → Option Tile
  | .need a => some { t with staged := t.staged ++ [⟨a.direct, a.seg, a.off, 0, 0, false⟩] }
  | .block key _ _ _ _ _ => some { t with blocks := t.blocks ++ [⟨key, 0, ⟨0, 0, 0, 0, 0, 0, 0, 0, 0⟩, false, 0⟩] }
  | .hold key => some { t with blocks := t.blocks.map (fun g => if g.key = key then { g with hold := 1 } else g) }
  | .drop key => some { t with blocks := t.blocks.map (fun g => if g.key = key then { g with hold := 2 } else g) }
  | .err _ _ _ => none

/-- The outputs that a tile would have with zeros for every input that it still lacks: where they lie does not depend on the inputs. -/
def State.guess (s : State) (n : Nat) : Nat → Tile → Option TRes
  | 0, _ => none
  | f + 1, t =>
    match Tx.result ⟨s, n, t⟩ with
    | .ok r => some r
    | .error e => match t.assume e with
      | none => none
      | some t => s.guess n f t

/-- The places of a result's outputs that can be reached; the look changes nothing. -/
def State.reach (s : State) (n : Nat) (t : Tile) (r : TRes) : List Wr :=
  let ps := r.outs.flatMap (fun o => (mbPieces (o.bytes.length / 64 + 2) o.off o.bytes).map (fun p => (o, p)))
  let got (e : Except EndStop (List Wr) × State) : List Wr := match e.1 with
    | .ok l => l
    | .error _ => []
  (ps.flatMap (fun p => got (s.placePiece n t p.1.src p.1.seg p.1.cl p.2.1 p.2.2))) ++ r.hist.flatMap (fun h => got (s.placeAdd n t h))

/-- A piece without its poison marks. -/
def Wr.clean : Wr → Wr
  | .mem h bs => .mem h (bs.map (fun b => (b.1, false)))
  | .csb a bs => .csb a (bs.map (fun b => (b.1, false)))
  | .addMem h add => .addMem h add
  | .addCsb a add => .addCsb a add

/-- The outputs of a tile that stops are undefined, since it may have written any of them (R294): those that its end has named, else
those that a tile of a TDT names. An append or directory tile that stops has changed nothing (R224). -/
def State.spoilTile (s : State) (n : Nat) (t : Tile) : State :=
  match t.fin with
  | some f => s.spoil ((s.ctxSlot t.ctx).getD 0) f.places
  | none =>
    if 4 ≤ t.kind then s
    else match s.guess n 65536 t with
      | none => s
      | some r => s.spoil ((s.ctxSlot t.ctx).getD 0) ((s.reach n t r).map Wr.clean)

/-! The engines' counts (Tables 3.8, 4.9, 5.11, 7.13, R102, R192). How many beats wait, fill or stay quiet depends on timing, and is
left open. -/

/-- A count that depends on timing. -/
def openBeats (seed i : Nat) : Nat := Config.freeByte seed i % 2 ^ 32

/-! Filler beats and ramps (R102 to R110). -/

/-- The pattern that core `n`'s filler generator holds: it depends on no data (R105). -/
def State.fillerPattern (s : State) (n : Nat) : BitVec 32 := Config.fillerBits (s.core n).lfsr

/-- Filler and quiet beats are counted; within an MXE tile they are its stalled beats (R102). -/
def State.fillBeats (s : State) (n fill quiet : Nat) : State :=
  let s := (s.inc (F.mxeFill n) fill).inc (F.mxeQuiet n) quiet
  if s.rb (F.mxeActive n) then s.modCore n (fun k => { k with fq := k.fq + fill + quiet }) else s

/-- A gap begins: filler beats run, or, when FILL_GAP is 0, ramp-down begins at once (R104, R106). The beats of that ramp-down count as filler by
R107 though FILLER stays 0 (R106 has no filler then: DESIGN CHOICE, assumption 121). -/
def State.mxeGap (s : State) (n : Nat) : State :=
  let k := s.core n
  if s.rb (F.mxeFiller n) ∨ ¬ (k.act = 1 ∨ k.act = 2) then s
  else if s.rf (F.fillGap n) = 0 then
    (s.wf (F.mxePhase n) 3).modCore n (fun k => { k with act := 3, ramp := if k.act = 1 then k.ramp else s.rf (F.rampBeats n) })
  else (s.wb (F.mxeFiller n) true).modCore n (fun k => { k with fillLeft := s.rf (F.fillGap n) })

/-- The filler beats of a gap that goes on are counted so far; how many ran depends on timing. -/
def State.gapPart (s : State) (n : Nat) : State :=
  let k := s.core n
  if k.fillLeft = 0 then s
  else
    let (v, s) := s.takeFree
    let f := openBeats v 0 % (k.fillLeft + 1)
    (s.fillBeats n f 0).modCore n (fun k => { k with fillLeft := k.fillLeft - f })

/-- A real column ends the gap (R106). -/
def State.gapEnd (s : State) (n : Nat) : State :=
  ((s.gapPart n).wb (F.mxeFiller n) false).modCore n (fun k => { k with fillLeft := 0 })

/-- Real work arrives: the MXE ramps up from its present level, at least level 1, and a ramp that turns keeps its intervals (R107,
R108). -/
def State.mxeStart (s : State) (n : Nat) : State :=
  let s := s.gapEnd n
  let l := s.rf (F.mxeLevel n)
  if (s.core n).act = 2 then s
  else if l < 16 then
    ((s.wf (F.mxeLevel n) (max 1 l)).wf (F.mxePhase n) 1).modCore n (fun k => { k with
      act := 1, ramp := if k.act = 0 then s.rf (F.rampBeats n) else k.ramp })
  else (s.wf (F.mxePhase n) 2).modCore n (fun k => { k with act := 2, ramp := 0 })

/-! The array's progress (R86 to R91, R101). -/

/-- Weight values of the column beats from `a` to `b - 1`. -/
def Tx.weightsIn (x : Tx) (a b : Nat) : Nat :=
  ((List.range (b - a)).map (fun i =>
    let j := (a + i) % Mxe.cols x * Mxe.beatChans x
    Mxe.rows x ((a + i) / Mxe.cols x) * min (Mxe.beatChans x) (Mxe.nch x - j))).sum

/-- The array's registers show its buffers and its generations (Tables 3.6 and 3.7). -/
def State.showArr (s : State) (n : Nat) (x : Tx) (a : Arr) : State :=
  let s := s.modCore n (fun k => { k with arr := a })
  let s := (s.wb (F.mxeB0 n) (a.b0 != 0)).wb (F.mxeB1 n) (a.b1 != 0)
  let s := if a.sets = 0 then s else s.wf (F.mxeLoadGen n) ((a.sets - 1) % 2)
  if a.beats = 0 then s
  else (s.wf (F.mxeStreamGen n) ((a.beats - 1) / Mxe.cols x % 2)).wf (F.mxePass n) (min (a.beats / Mxe.cols x) (Mxe.passes x - 1))

/-- An engine has made progress (Table 16.1). -/
def State.progress (s : State) (n e : Nat) : State := s.modCore n (fun k => { k with prog := setBits k.prog e 1 1 })

/-- Columns whose weights have come enter the array; a column that waits begins a gap (R88, R104, R106). -/
def State.stream (s : State) (n : Nat) (t : Tile) : State :=
  let x : Tx := ⟨s, n, t⟩
  let k := s.core n
  let a := x.enterTo x.colsDone k.arr
  let s := if a.sets = k.arr.sets ∧ a.beats = k.arr.beats then s else s.progress n 0
  let s := if a.beats = k.arr.beats then s
    else ((if k.act = 1 ∨ k.act = 2 then s.gapEnd n else s.mxeStart n).inc (F.wduWeights n) (x.weightsIn k.arr.beats a.beats)).progress n 3
  let s := s.showArr n x a
  if a.beats < Mxe.passes x * Mxe.cols x then s.mxeGap n else s

/-! What an engine reports. -/

/-- The MXE's work beats so far: between the greater of its load and column beats and their sum. -/
def mxeWorkBeats (x : Tx) (a : Arr) (seed : Nat) : Nat :=
  let loads := ((List.range a.sets).map (Mxe.rows x)).sum
  let cols := a.beats * (if Mxe.rate x = 2 then 4 else 1)
  max loads cols + openBeats seed 0 % (min loads cols + 1)

/-- Block indices of an ATE tile that were passed over before the last one that it has learnt (R172). -/
def Tx.skippedSoFar (x : Tx) : Nat :=
  let l := (x.t.blocks.map (fun g => g.key / 2)).eraseDups
  if l.isEmpty then 0 else l.foldl max 0 + 1 - Ate.blk0 x - l.length

/-- A stopped ATE tile's counts: the blocks that it has read or skipped; its beats are left open (Table 5.11). -/
def State.ateStopped (s : State) (n : Nat) (t : Tile) (dot exp : Nat) : State :=
  let s := (s.inc (F.ateDot n) dot).inc (F.ateExp n) exp
  (s.inc (F.ateBlocks n) (t.blocks.filter (fun g => g.hold == 2)).length).inc (F.ateSkipped n) (2 * (⟨s, n, t⟩ : Tx).skippedSoFar)

/-- A tile's active and stalled beats, and its engine's counts; `full` tells that the tile has done all its work. Of a tile that
stops before, the VXE's and the ATE's beats are left open below its work beats. -/
def State.engineCounts (s : State) (n : Nat) (t : Tile) (full : Bool) : (Nat × Nat) × State :=
  let (v, s) := s.takeFree
  let part := openBeats v 6 % (t.beats + 1)
  let active := if full then t.beats else part
  match t.kind with
  | 0 =>
    let fq := (s.core n).fq
    let stall := openBeats v 3
    let work := mxeWorkBeats ⟨s, n, t⟩ (s.core n).arr v
    let s := ((s.inc (F.mxeWork n) work).inc (F.mxeStall n) stall).inc (F.wduWait n) (openBeats v 5)
    ((if full then t.beats else min t.beats work, max fq stall + openBeats v 4 % (min fq stall + 1)), s)
  | 1 =>
    let s := s.inc (F.ateStall n) (openBeats v 1)
    ((active, openBeats v 1), if full then s else s.ateStopped n t part (openBeats v 7 % (t.beats + 1)))
  | 2 =>
    let s := s.inc (F.vxeStall n) (openBeats v 1)
    ((active, openBeats v 1), if full then s else s.inc (F.vxeWork n) part)
  | _ => ((active, 0), s)

/-- The context's active and stalled beats (R379). -/
def State.slowAdd (s : State) (ctx active stalled : Nat) : State :=
  let w := s.slowOf ctx
  s.setSlow ctx { w with active := w.active + active, stalled := w.stalled + stalled }

end Sys2Proof.Machine
end

