-- ==== Sys2Proof/Machine/FrontOps.lean ====
section
/-! DEFINITION. The next tile of a queue: which one it is, the conditions of its order, the checks of the directory commands, and
what a rejected tile does (08_commands_and_tiles.md R290, R291, R296, R297, R302, R320, 06_kv_block_directory.md Table 6.8). -/

namespace Sys2Proof.Machine

/-! The tile on a core. -/

def State.tileOn (s : State) (n : Nat) : Option Tile := (s.core n).tile
def State.putTile (s : State) (n : Nat) (t : Tile) : State := s.modCore n (fun k => { k with tile := some t })

/-- The 2 MiB page of an access of a context. -/
def State.pageOf (s : State) (ctx : Nat) (a : Access) : Nat := (s.rf (F.segBase ctx a.seg) + a.off) % 2 ^ 48 / 2 ^ 21

/-- The pages for which walks of a cluster are in flight, by context (R400). -/
def State.walkPages (s : State) (cl : Nat) : List (Nat × Nat) :=
  ((List.range 4).flatMap (fun i => match s.tileOn (4 * cl + i) with
    | some t => (t.waits.filter (fun w => w.2)).map (fun w => (t.ctx, s.pageOf t.ctx w.1))
    | none => [])).eraseDups

/-- A tile before its grant. -/
def newTile (c : Cmd) (p kind reads csp csb beats : Nat) (entry : List Byte) : Tile :=
  { qn := c.qn, slot := c.slot, index := c.next, kind := kind, ctx := c.ctx, part := p, entry := entry, reads := reads, cspKib := csp,
    csbKib := csb, kv := [], beats := beats, staged := [], waits := [], ready := false, pins := [], blocks := [], poison := false,
    aborting := false, skipEn := false, half := 0, seed := 0, fin := none }

/-! The next tile of a queue (R290, R296, R302). -/

/-- The resume point of a command (R296): the lowest tile index that has not ended normally. -/
def resumeFrom (ended : List Nat) : Nat → Nat → Nat
  | 0, i => i
  | f + 1, i => if ended.contains i then resumeFrom ended f (i + 1) else i
def Cmd.resumePoint (c : Cmd) : Nat := resumeFrom c.ended (c.ended.length + 1) 0

/-- An opcode whose phase 4 runs tiles. -/
def opTiles (op : Nat) : Bool := op == 1 || (decide (3 ≤ op) && decide (op ≤ 6))

/-- Every tile of a command has been admitted, or no further one will be. -/
def Cmd.allAdmitted (c : Cmd) : Bool :=
  decide (5 ≤ c.phase) || (c.phase == 4 && (c.failed || (!opTiles c.opcode || (c.acted && decide (c.tiles ≤ c.next)))))

/-- Every tile of a command has ended normally. -/
def Cmd.allEnded (c : Cmd) : Bool := !opTiles c.opcode || (decide (4 ≤ c.phase) && decide (c.tiles ≤ c.ended.length))

/-- The first command of a queue with tiles left, when the ones before it let its tiles be admitted. -/
def frontOf : List Cmd → List Cmd → Option Cmd
  | _, [] => none
  | before, c :: l =>
    if c.allAdmitted then frontOf (before ++ [c]) l
    else if c.phase = 4 ∧ c.acted ∧ ¬ c.parked ∧ c.faulted.isNone ∧ before.dropLast.all Cmd.allEnded then some c
    else none
def State.frontCmd (s : State) (q : Nat) : Option Cmd := frontOf [] (s.cmdsOf q)

/-- A SERIAL tile of a command runs. -/
def State.serialRuns (s : State) (c : Cmd) : Bool :=
  (List.range 16).any (fun n => match s.tileOn n with
    | some t => t.qn == c.qn && t.slot == c.slot && decide (t.kind < 4) && bit (fldOf t.entry 1 1) 5
    | none => false)

/-- The conditions of DEP, BARRIER and SERIAL hold for tile `i` with a header (Table 8.5). -/
def State.orderMet (s : State) (c : Cmd) (x : Tx) (i : Nat) : Bool :=
  (c.opcode != 1 || ((Hd.dep x == 0 || c.ended.contains (i - Hd.dep x))
    && (!(Hd.barrier x || Hd.serial x) || decide (i ≤ c.resumePoint)))) && !s.serialRuns c

/-- The bytes of tile `i`'s entry of a TDT, when every line of it translates and is clean; nothing else comes of the look. -/
def State.peekEntry (s : State) (c : Cmd) (i : Nat) : Option (List Byte) :=
  match (s.ctxRead c.ctx (c.fld 48 8 % 2 ^ 52 / 256 * 256 + 256 * i) 256).1 with
  | .ok b => some b
  | .error _ => none

/-! The checks of Table 6.8. -/

/-- Operands of a directory command. -/
def Cmd.ops (c : Cmd) : List Byte := c.bytes.drop 48

/-- The address of a sequence record: offset and segment; records stand in memory. -/
def Cmd.record (c : Cmd) (o : Nat) : Nat := bits (fldOf c.ops o 8) 0 52

/-- A record's shape field is zero. -/
def Seq.hasZero (r : Seq) : Bool := r.layers == 0 || r.heads == 0 || r.maxBlocks == 0 || r.dim == 0

/-- The reserved codes of a directory command: SRC_FORMAT 3, a source of K_SRC or V_SRC above 2, or a record of Tables 6.5 to 6.7 that
is not in memory. -/
def Cmd.dirReserved (c : Cmd) : Bool :=
  match c.opcode with
  | 3 => fldOf c.ops 32 1 % 4 == 3 || decide (2 < aSrc (fldOf c.ops 8 8)) || decide (2 < aSrc (fldOf c.ops 16 8))
  | 4 => aSrc (fldOf c.ops 0 8) != 0 || aSrc (fldOf c.ops 8 8) != 0
  | _ => aSrc (fldOf c.ops 0 8) != 0

/-- The checks of an append, in the order of Table 6.8, and last that of R196: 0, or the status. -/
def appendCheck (slotBytes : Nat) (c : Cmd) (r : Seq) : Nat :=
  let f (o n : Nat) : Nat := fldOf c.ops o n
  let t := f 30 2
  if r.hasZero then 0x10
  else if c.dirReserved ∨ ¬ headDims.contains r.dim then 0x11
  else if t = 0 ∨ f 28 2 = 0 then 0x01
  else if 1048576 < r.length + t then 0x31
  else if 1024 < t ∨ r.heads < f 26 2 + f 28 2 ∨ r.layers ≤ f 24 2 ∨ r.maxBlocks < ceilDiv (r.length + t) 64 then 0x11
  else if slotBytes < 64 * tokBytes r.kFmt r.dim + 32 ∨ slotBytes < 64 * tokBytes r.vFmt r.dim + 32 then 0x11
  else 0

/-- The checks of a fork; `bad` tells a reserved source. -/
def forkCheck (l : Nat) (bad : Bool) (p c : Seq) : Nat :=
  if p.hasZero ∨ c.hasZero then 0x10
  else if bad ∨ ¬ headDims.contains p.dim ∨ ¬ headDims.contains c.dim then 0x11
  else if l = 0 then 0x01
  else if p.length < l ∨ c.length ≠ 0 ∨ c.high ≠ 0 ∨ p.layers ≠ c.layers ∨ p.heads ≠ c.heads ∨ p.dim ≠ c.dim ∨ p.kFmt ≠ c.kFmt
    ∨ p.vFmt ≠ c.vFmt ∨ c.maxBlocks < ceilDiv l 64 then 0x11
  else 0

/-- The checks of a free and of a trim. -/
def freeCheck (bad : Bool) (r : Seq) : Nat :=
  if r.hasZero then 0x10 else if bad ∨ ¬ headDims.contains r.dim then 0x11 else if r.high = 0 then 0x01 else 0
def trimCheck (n : Nat) (bad : Bool) (r : Seq) : Nat :=
  if r.hasZero then 0x10 else if bad ∨ ¬ headDims.contains r.dim then 0x11 else if n = 0 then 0x01 else if r.length < n then 0x11 else 0

/-- The status of the checks of a directory command over its record and, for a fork, the child's. -/
def Cmd.dirStatus (slotBytes : Nat) (c : Cmd) (r ch : Seq) : Nat :=
  match c.opcode with
  | 3 => appendCheck slotBytes c r
  | 4 => forkCheck (dirArg 4 c.ops) c.dirReserved r ch
  | 5 => freeCheck c.dirReserved r
  | _ => trimCheck (dirArg 6 c.ops) c.dirReserved r

/-- Tiles of a directory command: one for each KV head of an append, one for 2,048 entries of another (R229). -/
def Cmd.dirCount (c : Cmd) (r : Seq) : Nat :=
  if c.opcode = 3 then fldOf c.ops 28 2 else ceilDiv (dirPlan c.opcode (dirArg c.opcode c.ops) r).total 2048

/-! What the checks of the next tile would give (R320, R379): the look changes nothing. -/

/-- A VXE tile needs its window block for its first row of checks (Table 7.3). -/
def Tx.needsAux (x : Tx) : Bool := Hd.kind x == 2 && Vxe.windowOp (Vxe.op x) && srcIn (Vxe.aux x) [0, 1, 2]

/-- The checks that come before the window block of a VXE tile is read (R653, R241). -/
def Tx.preChecks (x : Tx) : Option Reject :=
  match x.tsqChecks with
  | some r => some r
  | none => if x.needsAux then (x.vxeChecks none).filter (fun r => r.status == 0x10) else none

/-- A window block as a look finds it: none where it cannot be read. -/
def State.auxLook (s : State) (x : Tx) : Option (Option Win) :=
  if !x.needsAux then some none
  else if aSrc (Vxe.aux x) = 0 then
    match (s.ctxRead x.t.ctx (Vxe.aux x) 48).1 with
    | .ok b => some (some (winOf b))
    | .error _ => none
  else match x.ctl (Vxe.aux x) 0 48 with
    | .ok b => some (some (winOf b))
    | .error _ => none

/-- A tile of a table before its checks, on core `n`. -/
def State.tdtTx (s : State) (n : Nat) (c : Cmd) (e : List Byte) : Tx :=
  ⟨s, n, newTile c (s.rf (F.ctxPart c.ctx)) 0 0 (fldOf e 4 2) 0 0 e⟩

/-- What the checks of a tile of a table would answer; none where they cannot be made. -/
def State.tdtLook (s : State) (x : Tx) : Option (Option Reject) :=
  match x.preChecks with
  | some r => some (some r)
  | none => (s.auxLook x).map x.checks

/-- What the limit of an append tile would answer (R221); none where the record cannot be read. -/
def State.appendLook (s : State) (n : Nat) (c : Cmd) : Option (Option Reject) :=
  if c.opcode ≠ 3 then some none
  else match (s.ctxRead c.ctx (bits (fldOf c.ops 0 8) 0 52) 64).1 with
    | .error _ => none
    | .ok b => some (if 16384 < App.beats (fldOf c.ops 30 2) (seqOf b).dim then some ⟨0x11, pgTsq n, c.ctx⟩ else none)

/-- The next tile of a command names another cluster than that of core `n`. -/
def State.otherCluster (s : State) (n : Nat) (c : Cmd) : Bool :=
  c.opcode == 1 && (match s.peekEntry c c.next with
    | some e => decide (fldOf e 1 1 % 16 < 4) && fldOf e 1 1 % 16 != n / 4
    | none => false)

/-- What core `n` would find of the next tile of a command: the tile, and what its checks would answer; none where a read of the look
fails, or the tile is another cluster's. -/
def State.nextLook (s : State) (n : Nat) (c : Cmd) : Option (Tx × Option Reject) :=
  if s.otherCluster n c then none
  else if c.opcode ≠ 1 then (s.appendLook n c).map (fun r => (s.tdtTx n c [], r))
  else match s.peekEntry c c.next with
    | none => none
    | some e => (s.tdtLook (s.tdtTx n c e)).map (fun r => (s.tdtTx n c e, r))

/-- The next tile of a command, which core `n` might admit by the order of its command, would be rejected. -/
def State.tileRejected (s : State) (n : Nat) (c : Cmd) : Option Reject :=
  match s.nextLook n c with
  | some (x, some r) => if s.orderMet c x c.next then some r else none
  | _ => none

/-! Rejection. -/

/-- A command's tile has set its status: no further tile is admitted, and the command completes when its running tiles have
ended. -/
def State.tileFails (s : State) (q slot i st : Nat) : State :=
  (s.modCmd q slot (fun c => { c.fail st i with phase := 5 })).qProgress q

/-- A tile is rejected (R291, R297). -/
def State.rejectTile (s : State) (n : Nat) (c : Cmd) (r : Reject) : State :=
  let s := s.inc (F.tsqRejects n) 1
  let s := if r.page = 0 then s else s.setErr r.page r.status r.info 0
  let s := if r.page = pgTsq n then s.raise (pgTsq n) 0 else s
  s.tileFails c.qn c.slot c.next r.status

end Sys2Proof.Machine
end

