-- ==== Sys2Proof/Machine/StopOps.lean ====
section
/-! DEFINITION. Stopping tiles: what a tile gives back, engine resets, contexts that close, tiles that run again, cluster
resets (16_sheepdogs_resets_recovery.md, 14_trust_keys_and_tenants.md Table 14.14). -/

namespace Sys2Proof.Machine

/-! What a tile gives back (R292). -/

/-- Give reserved KV blocks back to the FIFO untouched (R221, R224), past its 4,096 IDs where it was refilled meanwhile (the spec names no other
place: DESIGN CHOICE, assumption 122). -/
def State.giveBack (s : State) (l : List Nat) : State := { s with kvd := { s.kvd with fifo := s.kvd.fifo ++ l } }

/-- Release the whole reservation of a tile on core `n`, and its pins. -/
def State.release (s : State) (n : Nat) (t : Tile) : KvR :=
  let s := s.wf (F.pReads t.part) (s.rf (F.pReads t.part) - t.reads)
  let s := s.wf (F.pKv t.part) (s.rf (F.pKv t.part) - t.kv.length)
  (s.giveBack t.kv).unpinAll (some (n / 4)) t.pins

/-- The core stops showing a tile: the engine's phase is IDLE, the row buffers are FREE (R92), a codebook half is no longer loading. -/
def State.engineIdle (s : State) (n : Nat) (t : Tile) : State :=
  match t.kind with
  | 0 => (((s.wf (F.wduPhase n) 0).wb (F.mxeB0 n) false).wb (F.mxeB1 n) false).modCore n (fun k => { k with arr := ⟨0, 0, 0, 0⟩, fq := 0 })
  | 1 => s.wf (F.atePhase n) 0
  | 2 => s.wf (F.vxePhase n) 0
  | 4 => (s.wf (F.wduPhase n) 0).wb (F.cbsLoading n t.half) false
  | _ => s

/-- A tile leaves its core: its reservation and pins are given back, its beats are reported (R102, R192, R379), the pages show it no
more, and after an MXE tile a gap begins (R104). `full` tells that it has done all its work. -/
def State.leaveCore (s : State) (n : Nat) (t : Tile) (full : Bool) : KvR :=
  match s.release n t with
  | .error s => .error s
  | .ok s =>
    let s := if t.kind = 0 then s.gapPart n else s
    let r := s.engineCounts n t full
    let s := ((r.2.slowAdd t.ctx r.1.1 r.1.2).clearTile n).engineIdle n t
    .ok ((if t.kind = 0 then s.mxeGap n else s).progress n 4)

/-- A tile stops before its end: the outputs that it may have written are undefined (R294), what it has read ahead is discarded
(R139), and it leaves its core. -/
def State.stopTile (s : State) (n : Nat) (t : Tile) : KvR := (((s.spoilTile n t).orphan n).dropAhead n).leaveCore n t false

/-! Engine reset (R549, Table 16.4). -/

/-- Start an engine reset of the engines in `mask` (bit e of Table 16.11): the core freezes and admits no tile, and the MXE stops at
once (R109). -/
def State.engineReset (s : State) (n mask : Nat) : State :=
  let s := s.mxeStop n
  let k := s.core n
  let s := s.setCore n { k with engRst := k.engRst ||| mask, rstAge := if k.engRst = 0 then 0 else k.rstAge }
  (s.wb (F.shdEngRst n) true).orphan n

/-- Show a sheepdog's expiry in the SHD page (Table 16.11). -/
def State.shdExpire (s : State) (n e : Nat) : State :=
  let s := s.wf (F.shdExpired n) (s.rf (F.shdExpired n) ||| 2 ^ e)
  let ctx := match (s.core n).tile with
    | some t => t.ctx
    | none => 0
  (s.wf (F.shdLast n) s.now).wf (F.errInfo (pgShd n)) (e + 16 * ctx)

/-! Contexts that close (Table 14.14, R547). -/

/-- Closing contexts whose tiles have ended begin their drain (step 3). -/
def State.closeProgress (s : State) : State :=
  forL s.closing (fun k s =>
    if k.step = 2 ∧ (List.range 16).all (fun n => match (s.core n).tile with
        | some t => t.ctx != k.ctx
        | none => true) then
      { s.startT (.ctxDrain k.ctx) with closing := s.closing.map (fun x => if x.ctx = k.ctx then { x with step := 3 } else x) }
    else s) s

/-- A closing context's commands in phases 0 to 2 never start. -/
def State.dropWaiting (s : State) (ctx : Nat) : State :=
  { s with cmds := s.cmds.map (fun c =>
             if c.ctx = ctx ∧ c.phase < 3 ∧ ¬ c.failed then
               { c with phase := 5, status := 0x50, detail := 0xFFFFFFFF, failed := true, acted := true }
             else c) }

/-- An inlet of a closing context is DISABLED, and its frame discarded. -/
def State.disableInlet (s : State) (ctx n : Nat) : State :=
  if s.rb (F.siEn n) ∧ s.rf (F.siCtx n) = ctx then
    (((((s.inletDiscard n).setErr (pgSi n) 0x50 (s.rf (F.siFrame n) % 2 ^ 32) 0).raise (pgSi n) 0).wb (F.siEn n) false).wf
      (F.siState n) 0).setInlet n Inlet.init
  else s

/-- A context reset aborts the context's running tile on a core. -/
def State.abortTileOf (s : State) (ctx n : Nat) : State :=
  match (s.core n).tile with
  | some t => if t.ctx = ctx then s.modCore n (fun k => { k with tile := some { t with aborting := true } }) else s
  | none => s

/-- Begin the teardown or the reset of a context that is neither FREE nor CLOSING: step 1, and the abort of a reset. -/
def State.startClosing (s : State) (ctx : Nat) (cmd : Option (Nat × Nat)) (cause : Nat) (carve : Option (Nat × Nat)) : State :=
  if s.rf (F.ctxState ctx) = 0 ∨ s.rf (F.ctxState ctx) = 3 then s
  else
    let s := s.wf (F.ctxState ctx) 3
    let s := s.dropWaiting ctx
    let s := forN 8 (fun q s => s.modQueue (8 * ctx + q) (fun v => { v with refetch := none, save := [] })) s
    let s := forN 32 (fun n s => s.disableInlet ctx n) s
    let s := if cause = 0 then s else (forN 16 (fun n s => s.abortTileOf ctx n) s).startT (.ctxAbort ctx)
    State.closeProgress { s with closing := s.closing ++ [⟨ctx, cmd, cause, 2, carve⟩] }

/-- A context reset with its cause: 0 queue sheepdog, 1 R550, 2 cluster reset (Table 16.12). -/
def State.contextReset (s : State) (ctx cause : Nat) : State := if ctx = 0 then s else s.startClosing ctx none (cause + 1) none

/-- A reset stopped a tile: it runs again, unless it is SERIAL or a reset stopped it before (R550); a tile of a CLOSING
context does not run again (Table 16.9). -/
def State.rerunOrReset (s : State) (n : Nat) (t : Tile) (cause : Nat) : State :=
  match s.stopTile n t with
  | .error s => s
  | .ok s =>
  if s.rf (F.ctxState t.ctx) = 3 then s
  else match s.cmd t.qn t.slot with
    | none => s
    | some c =>
      if bit (fldOf t.entry 1 1) 5 ∨ c.stopped.contains t.index then
        (if cause = 1 then s.raise (pgShd n) 2 else s).contextReset t.ctx 1
      else s.setCmd { c with stopped := t.index :: c.stopped, next := min c.next t.index }

/-! Cluster reset (R551, Table 16.5). -/

/-- Start a cluster reset: the cores freeze, their MXEs stop at once (R109) and their domains switch off and on; nothing of the cluster's state stays. -/
def State.clusterReset (s : State) (c : Nat) : State :=
  if (s.cluster c).resetting then s
  else
    let s := s.setCluster c { s.cluster c with resetting := true }
    forN 4 (fun i s => ((s.mxeStop (4 * c + i)).wb (F.shdClRst (4 * c + i)) true).modCore (4 * c + i) (fun k => { k with engRst := 0 })) s

end Sys2Proof.Machine
end

