-- ==== Sys2Proof/Machine/BootOps.lean ====
section
/-! DEFINITION. Secure boot, the trust keys made at boot, saves and their restore (14_trust_keys_and_tenants.md Tables 14.2
and 14.3, 17_power_beats_and_holdup.md Tables 17.6 and 17.7). -/

namespace Sys2Proof.Machine

/-- The bytes of a label. -/
def ascii (x : String) : List Nat := x.toList.map (·.toNat)

/-- DEVICE_KEY and PACKAGE_KEY as used: RMA zeroes them (Table 14.1). -/
def deviceKey : List Nat := natB 48 (if Config.lifecycle = 2 then 0 else Config.deviceKey)
def packageKey : Nat := if Config.lifecycle = 2 then 0 else Config.packageKey

/-! Images (R488, Table 14.3). -/

/-- Check an image of `type`: 0 accepted, 3 signature or digest or form, 4 SVN below the floor. -/
def checkImage (bs : List Byte) (type floor : Nat) : Nat :=
  let hdr := toNats (bs.take 512)
  let len := fldOf bs 8 4
  let body := toNats ((bs.drop 512).take len)
  if fldOf bs 0 4 ≠ 0x49584E59 ∨ fldOf bs 4 1 ≠ type ∨ len = 0 ∨ 523776 < len then 3
  else if bNat (sha384 ((hdr.drop 64).take 96)) ≠ Config.imgKeyHash then 3
  else if !ecdsaVerify (sha384 (hdr.take 160)) ((hdr.drop 64).take 96) ((hdr.drop 160).take 96) then 3
  else if sha384 body ≠ (hdr.drop 16).take 48 then 3
  else if fldOf bs 12 4 < floor then 4
  else 0

/-- SVN and DIGEST of an image header. -/
def imageSvn (bs : List Byte) : Nat := fldOf bs 12 4
def imageDigest (bs : List Byte) : Nat := bNat (toNats ((bs.drop 16).take 48))

/-- Read an image by HPA with no key slot; none when a line of it is poisoned. -/
def State.fetchImage (s : State) (hpa : Nat) : Option (List Byte) :=
  if s.anyPoison hpa 512 then none
  else
    let hdr := s.rawBytes hpa 512
    let len := min (fldOf hdr 8 4) 523776
    if s.anyPoison (hpa + 512) len then none else some (hdr ++ s.rawBytes (hpa + 512) len)

/-- The Shepherd's fetch of an image: 512 bytes, then as many as its header names (R435). -/
def State.tookImage (s : State) (hpa : Nat) : State :=
  let s := s.tookShep hpa 512
  if s.anyPoison hpa 512 then s else s.tookShep (hpa + 512) (min (leNat (s.rawBytes (hpa + 8) 4)) 523776)

/-- Measurement values by index (Table 14.7): a digest with its SVN, or the raw bytes. -/
def State.setMeas (s : State) (i v : Nat) : State := { s with shep := { s.shep with meas := tblPut 0 s.shep.meas i v } }

/-! Keys made at boot (R496, R499). -/

/-- The wrapped-key record of Table 14.9 for a context's command key. -/
def State.keyRecord (s : State) (ctx key : Nat) : List Nat :=
  natL 2 ctx ++ [s.rf F.wkSrc] ++ [0] ++ natL 4 (s.rf F.wkId) ++ keyWrap (natB 32 s.shep.wk) (natB 32 key) ++ List.replicate 16 0

/-- Replace context 0's command key and rewrite SHM_KEY0 (R499). -/
def State.newKey0 (s : State) : State :=
  let (d, s) := s.takeDrbg
  let key := d % 2 ^ 256
  let s := { s with cmdKeys := tblIns s.cmdKeys 0 key }
  let r := s.keyRecord 0 key
  (forN 16 (fun i s => s.wf (F.key0Word i) (lNat ((r.drop (4 * i)).take 4))) s).raise pgShm 1

/-- SHM_WK shows the OPEN key while the state is UNLOCKED and the source OPEN, and zero otherwise (R499). -/
def State.showWk (s : State) : State :=
  let k := if s.rf F.trust = 0 ∧ s.rf F.wkSrc = 0 then s.shep.wk else 0
  forN 8 (fun i s => s.wf (F.wkWord i) (lNat (((natB 32 k).drop (4 * i)).take 4))) s

/-- Take a wrapping key with its source; SHM_WK_ID rises (R499). -/
def State.setWk (s : State) (src key : Nat) : State :=
  (((({ s with shep := { s.shep with wk := key } }).wf F.wkSrc src).inc F.wkId 1).showWk)

/-- Make a fresh OPEN wrapping key. -/
def State.freshOpen (s : State) : State :=
  let (d, s) := s.takeDrbg
  s.setWk 0 (d % 2 ^ 256)

/-- Change the trust state, raise TRUST_CHANGE and log it (Tables 14.4, 14.18, 15.6). -/
def State.setTrust (s : State) (t : Nat) : State :=
  if s.rf F.trust = t then s
  else ((s.wf F.trust t).raise pgShm 0).logEv 5 t 0 0 0

/-- Step 6 of Table 14.2: install slots 0 and 1, make the OPEN key when the source is OPEN, replace context 0's key. -/
def State.bootKeys (s : State) (cold : Bool) : State :=
  let derived := bNat (hkdf384 [] deviceKey (ascii "slot0" ++ natL 4 (s.rf F.bootCount)) 64)
  let (d, s) := s.takeDrbg
  let (e, s) := s.takeDrbg
  let k0 := if packageKey ≠ 0 then derived else if cold then d % 2 ^ 256 + 2 ^ 256 * (e % 2 ^ 256) else tblGet 0 s.keys 0
  let s := { s with keys := tblPut 0 s.keys 0 k0, boot := { s.boot with made := true } }
  let s := ((s.wf (F.slState 0) 1).wf (F.slKind 0) 1).wb (F.slFixed 0) true
  let s := (((s.wf (F.slState 1) 1).wf (F.slKind 1) 0).wb (F.slFixed 1) true).wf (F.slBound 1) 1
  let s := if s.rf F.wkSrc = 0 then s.freshOpen else s.showWk
  s.newKey0

/-! The Shepherd's boot (Table 14.2). -/

/-- Fail the boot: the instance stays in BOOT_FAIL with the cause (R489). -/
def State.bootFail (s : State) (st : Nat) : State := { s.wf F.bootStatus st with boot := { s.boot with phase := .failed } }

/-- Steps 5 and 6 from an accepted Shepherd image. -/
def State.bootFrom (s : State) (alt cold : Bool) (img : List Byte) : State :=
  let s := s.wb F.bootAlt alt
  let s := (s.setMeas 1 Config.romDigest).setMeas 2 (imageDigest img * 2 ^ 32 + imageSvn img)
  let s := { s with shep := { s.shep with svnShep := imageSvn img } }
  let s := s.bootKeys cold
  let s := s.tookImage (Config.droverHpa alt)
  match s.fetchImage (Config.droverHpa alt) with
  | none => s.bootFail 2
  | some d =>
    let st := checkImage d 2 Config.svnDroverFloor
    if st ≠ 0 then s.bootFail st
    else
      let s := s.setMeas 3 (imageDigest d * 2 ^ 32 + imageSvn d)
      let s := { s with shep := { s.shep with svnDrover := imageSvn d, slotA := some (imageSvn d, imageDigest d) } }
      { s.wf F.bootStatus 1 with boot := { s.boot with phase := .loaded } }

/-- Steps 3 and 4 from BOOT_HPA_ALT, the last try (R487, R489). -/
def State.bootAltTry (s : State) (cold : Bool) : State :=
  let s := s.tookImage Config.bootHpaAlt
  match s.fetchImage Config.bootHpaAlt with
  | none => s.bootFail 2
  | some img =>
    match checkImage img 1 Config.svnShepFloor with
    | 0 => s.bootFrom true cold img
    | st => s.bootFail st

/-- Steps 2 to 6 (R487); `fetched` tells whether the fetch from BOOT_HPA completes, else its time limit is awaited. -/
def State.secureBoot (s : State) (cold fetched : Bool) : State :=
  if Config.lifecycle = 3 then s.bootFail 5
  else if !fetched then s.startT .bootFetch
  else
    let s := s.tookImage Config.bootHpa
    match s.fetchImage Config.bootHpa with
    | none => s.bootAltTry cold
    | some img =>
      if checkImage img 1 Config.svnShepFloor = 0 then s.bootFrom false cold img else s.bootAltTry cold

/-! Saves (R580 to R582, R587). -/

/-- The contexts whose state is not FREE, with context 0 first, in ascending order. -/
def State.liveCtxs (s : State) : List Nat :=
  0 :: (s.regs.filterMap (fun e =>
    if 0x401040 ≤ e.1 ∧ e.1 < 0x1400000 ∧ e.1 % 0x1000 = 0x40 ∧ e.2.toNat % 4 ≠ 0 then some ((e.1 - 0x400000) / 0x1000) else none))

/-- Registers that a save holds (Table 17.6), for the contexts saved. -/
def savedReg (ctxs : List Nat) (o : Nat) : Bool :=
  (decide (o < 0x1000) && !inP00 o) || (decide (0x1200 ≤ o) && decide (o < 0x1400)) || (decide (0x4000 ≤ o) && decide (o < 0xC000))
    || (decide (0x10000 ≤ o) && decide (o < 0x13000)) || (decide (0x30000 ≤ o) && decide (o < 0x38000))
    || (decide (0x400000 ≤ o) && decide (o < 0x1400000) && ctxs.contains ((o - 0x400000) / 0x1000))

/-- What a save holds of a register: of the configuration pages, only what software or boot has configured; GRZ_PARKS counts since
P02 last powered up (Table 10.7) and is not held; an inlet that is STOPPED stays so (R274). -/
def savedVal (o : Nat) (v : W64) : W64 :=
  if o = F.grzParks.off then 0
  else if 0x30000 ≤ o ∧ o < 0x38000 ∧ o % 0x400 = 0x88 then (if v = 3 then 3 else 0)
  else if 0x400000 ≤ o ∨ (0x4000 ≤ o ∧ o < 0xC000) ∨ inP00 o then v else afterOff o v

/-- A started command, parked at its resume point (R582). -/
def Cmd.park (c : Cmd) : Cmd :=
  { c with parked := true, resume := c.resumePoint, next := c.resumePoint }

/-- A started command as a save holds it: one whose work has begun keeps its resume point, one that has only met its wait resumes at
phase 3 (R320). -/
def Cmd.toSave (c : Cmd) : Cmd :=
  if c.phase = 4 ∧ ¬ c.acted then { c.park with phase := 3 } else if c.acted && c.tiles == 0 then c else c.park

/-- The newest generation held in either area (R587). -/
def State.topGen (s : State) : Nat :=
  max (match s.hsa.areaA with | some a => a.gen | none => 0) (match s.hsa.areaB with | some a => a.gen | none => 0)

/-- The newest sealed save and whether it lies in area B. -/
def State.newest (s : State) : Option (Save × Bool) :=
  match s.hsa.areaA, s.hsa.areaB with
  | none, none => none
  | some a, none => if a.sealed then some (a, false) else none
  | none, some b => if b.sealed then some (b, true) else none
  | some a, some b =>
    if a.sealed && (!b.sealed || decide (b.gen ≤ a.gen)) then some (a, false) else if b.sealed then some (b, true) else none

/-- The contents of a save (Table 17.6): at most 1,400 contexts (R581). -/
def State.makeSave (s : State) (preserve : Bool) : Save :=
  let all := s.liveCtxs
  let ctxs := all.take 1400
  { gen := s.topGen + 1, sealed := true, superseded := false, preserve := preserve, omitted := all.length - ctxs.length,
    regs := (s.regs.filter (fun e => savedReg ctxs e.1)).map (fun e => (e.1, savedVal e.1 e.2)), keys := s.keys,
    cmds := (s.cmds.filter (fun c => decide (3 ≤ c.phase) && ctxs.contains c.ctx)).map Cmd.toSave,
    checked := s.checked ++ (s.cmds.filter (fun c => decide (c.phase < 3) && c.tallied)).map (fun c => (c.qn, c.slot, c.bytes)),
    ctxs := ctxs, grz := s.grz, kvd := s.kvd,
    reports := s.xlt.reports.filter (fun r => ctxs.contains r.ctx), reported := s.xlt.reported.filter (fun r => ctxs.contains r.ctx), closing := s.closing.map (fun k => { k with step := 2 }), token := s.rf F.attachToken }

/-- Write a save into the area that does not hold the newest sealed save, and show it in the HUP page (R580, R587). -/
def State.storeSave (s : State) (v : Save) : State :=
  let toB := match s.newest with
    | some (_, b) => !b
    | none => false
  let s := if toB then { s with hsa := { s.hsa with areaB := some v } } else { s with hsa := { s.hsa with areaA := some v } }
  let s := (((s.wf F.saveGen v.gen).wb F.saveArea toB).wb F.saveSuper false).wf F.saveOmitted v.omitted
  (s.inc F.saves 1).logEv 9 0 0 0 v.gen

/-- Mark the newest sealed save superseded (R588, R590). -/
def State.supersede (s : State) : State :=
  let f (a : Option Save) : Option Save := a.map (fun v => { v with superseded := true })
  let s := match s.newest with
    | some (_, true) => { s with hsa := { s.hsa with areaB := f s.hsa.areaB } }
    | some (_, false) => { s with hsa := { s.hsa with areaA := f s.hsa.areaA } }
    | none => s
  s.wb F.saveSuper true

/-- Zero the CSB granules of a context in a cluster and unbind them (R359, R376). -/
def State.unbindCsb (s : State) (ctx cl : Nat) : State :=
  let mine := s.csbMap.filter (fun e => e.1 / 64 == cl && (e.2 - 1) / 64 == ctx)
  let base := fun (g : Nat) => cl * 2 ^ 24 + g % 64 * 2 ^ 18
  let s := forL mine (fun e s => { s with
    csb := tblDropRange s.csb (base e.1) (base e.1 + 2 ^ 18),
    csbPoison := s.csbPoison.filter (fun l => !(decide (base e.1 / 64 ≤ l) && decide (l < (base e.1 + 2 ^ 18) / 64))) }) s
  let s := { s with csbMap := s.csbMap.filter (fun e => !(e.1 / 64 == cl && (e.2 - 1) / 64 == ctx)) }
  let s := s.wf (F.clCsbFree cl) (s.rf (F.clCsbFree cl) + mine.length)
  s.wf (F.csbBound ctx) (setBits (s.rf (F.csbBound ctx)) cl 1 0)

/-- A context with a window in a cluster whose CSB was lost: the window is unbound and its started commands complete 0x70
(R589). -/
def State.loseCsb (s : State) (ctxs : List Nat) (cl : Nat) : State :=
  forL ctxs (fun c s =>
    if bit (s.rf (F.csbBound c)) cl then
      let s := s.unbindCsb c cl
      { s with cmds := s.cmds.map (fun d => if d.ctx = c ∧ 3 ≤ d.phase ∧ d.phase < 6 ∧ ¬ d.failed then
          { (d.done 0x70) with parked := false } else d) }
    else s) s

/-- The queues fetch on after the parked commands that a save gives back. -/
def State.refetchFrom (s : State) (cs : List Cmd) : State :=
  forL cs (fun c s => s.modQueue c.qn (fun v => { v with fetch := (c.slot + c.len) % 2 ^ 32, reserved := v.reserved + 1 })) s

/-- The queues of the given contexts fetch from HEAD. -/
def State.fetchFromHead (s : State) (ctxs : List Nat) : State :=
  forL ctxs (fun c s => forN 8 (fun q s => s.modQueue (8 * c + q) (fun v =>
    { v with fetch := s.rf (F.qHead (8 * c + q)), reserved := 0, refetch := none })) s) s

/-- After a resume or a restore every enabled inlet that is not STOPPED is ARMED again: its quiesce has ended (Table 7.10, DEDUCED). -/
def State.siRearm (s : State) : State :=
  forN 32 (fun n s => if s.rb (F.siEn n) ∧ s.rf (F.siState n) ≠ 3 then s.wf (F.siState n) 1 else s) s

/-- Restore a sealed save at a boot (R590, R497): registers, keys but LINK slots, parked commands; every CSB is lost, the
host state is PRESERVED. -/
def State.restore (s : State) (v : Save) : State :=
  let s := forL v.regs (fun e s => s.setReg e.1 e.2) s
  let s := { s with cmds := v.cmds, checked := v.checked, grz := v.grz, kvd := v.kvd, closing := v.closing,
                    xlt := { s.xlt with reports := v.reports, reported := v.reported } }
  let s := forN 62 (fun i s =>
    let n := i + 2
    if s.rf (F.slKind n) = 2 then s.wf (F.slState n) 0
    else if s.rf (F.slState n) = 2 then ((s.wf (F.slState n) 0).wf (F.slQuar n) 1).startT (.key n)
    else { s with keys := tblPut 0 s.keys n (tblGet 0 v.keys n) }) s
  let s := forN 64 (fun n s => s.wf (F.slInflight n) 0) s
  let s := ((s.fetchFromHead v.ctxs).refetchFrom v.cmds).siRearm
  let s := forN 4 (fun c s => s.loseCsb v.ctxs c) s
  let s := (((s.wf F.hostState 3).wb F.hostRestored true).wf F.attachToken v.token).wb F.saveRestored true
  s.logEv 9 0 0 0 v.gen

/-- Restore at boot when RESTORE_EN is set and the newest sealed save is not superseded (R590). -/
def State.restoreAtBoot (s : State) : State :=
  if s.rb F.restoreEn then
    match s.newest with
    | some (v, _) => if v.superseded then s else s.restore v
    | none => s
  else s

/-- A fresh attach: the state is ATTACHED and a new token is issued (R557, R559). -/
def State.freshAttach (s : State) : State :=
  let (d, s) := s.takeDrbg
  ((s.wf F.hostState 0).wf F.attachToken (d % 2 ^ 64)).startT .hostBeat

/-- The instance becomes ready (Table 18.7 step 4, Table 16.6 step 5): every domain but retired cores' is on, the Drovers run
the image of slot A, MXE pages are locked by the Shepherd (R636), and links train. -/
def State.becomeReady (s : State) : State :=
  let s := s.wf F.domains 0x3FFFFFFF
  let s := s.wf F.retiredAll s.hsa.retired
  let s := forN 4 (fun c s => (s.wf (F.clRetired c) (bits s.hsa.retired (4 * c) 4)).wf (F.clCoresOn c) 0) s
  let s := forN 16 (fun n s =>
    let s := s.wb (F.lockBoot (pgMxe n)) true
    if bit s.hsa.retired n then s.wb (F.domain (coreDom n)) false else s.coreOn n) s
  let s := forN 4 (fun n s => (((s.wb (F.dvRunning n) true).wb (F.dvSlot n) false).wf (F.dvSvn n) s.shep.svnDrover).loadRegions n) s
  let s := forN 8 (fun n s => s.wb (F.mpEnabled n) (decide (n < 2 ^ s.rf F.portsLog2))) s
  let s := s.wb F.flkBw s.pins.bellwether
  let s := ((s.wf F.flkSilent (s.toEpochs 150000000)).wf F.flkTrain (s.toEpochs 25000000)).flockStart
  let s := if s.pins.pwrWarn then s.quiesceAll 1 else s
  { s with boot := { s.boot with phase := .ready } }

end Sys2Proof.Machine
end

