-- ==== Sys2Proof/Machine/PowerOps.lean ====
section
/-! DEFINITION. Shared operations of power: levels, retirement, tile boundaries, calibration, the duties of the firmware and
the hold-up save and resume (17_power_beats_and_holdup.md, 10_grazing_and_preemption.md, 15_drover_and_shepherd_firmware.md). -/

namespace Sys2Proof.Machine

/-! Resets from the ports (R621, R622). -/

/-- What POR_N leaves: P00 and every other domain in reset, with the HSA, the shared memory and what has left the ports kept
(R621). SAVES counts since manufacture, so the HSA holds it (Table 17.10). -/
def State.porReset (s : State) : State :=
  { State.reset with
    pending := s.pending, mem := s.mem, poison := s.poison, free := s.free, hsa := { s.hsa with capture := none },
    regs := s.regs.filter (fun e => e.1 == F.saves.off),
    pins := { Pins.init with pwrWarn := s.pins.pwrWarn, irqSent := s.pins.irqSent, taRsp := s.pins.taRsp, stopped := s.pins.stopped } }

/-- A save that a boot would restore (R590, R622). -/
def State.restorable (s : State) : Bool :=
  match s.newest with
  | some (v, _) => !v.superseded && s.rb F.restoreEn
  | none => false

/-- The warm reset (R622): RESET_CAUSE 8; the records are skipped when a save is to be restored. -/
def State.warmReset (s : State) : State :=
  s.instanceReset 8 (!(s.rf F.hostState == 3 || s.restorable))

/-! Firmware services (R318, R514). -/

/-- The Shepherd serves: it is neither halted nor pausing for an update (R318). -/
def State.shepUp (s : State) : Bool := !s.boot.shepHalted && !s.rb F.mbPaused

/-- A command waits on a service from now on. -/
def State.waitSvc (s : State) (c : Cmd) : State :=
  s.setCmd (if c.svc then c else { c with svc := true, svcStart := s.now })

/-- Act for a command that needs Drover `d`'s duty, or let it wait while the duty is paused (R514). -/
def State.withDuty (s : State) (c : Cmd) (d : Nat) (act : State → State) : State :=
  if s.rb (F.dvRunning d) then act s else s.waitSvc c

/-- Act for a command that needs the Shepherd, or let it wait (R318). -/
def State.withShep (s : State) (c : Cmd) (act : State → State) : State :=
  if s.shepUp then act s else s.waitSvc c

/-- Finish the commands of an opcode that wait in phase 4 for an event, as a test selects. -/
def State.finishWaiting (s : State) (op status : Nat) (p : Cmd → Bool) : State :=
  { s with cmds := s.cmds.map (fun c => if c.phase = 4 ∧ c.opcode = op ∧ c.acted ∧ p c then c.done status else c) }

/-- A command whose checks pass in the control plane and whose action needs the Shepherd: a failing check ends it at once. -/
def State.shepCmd (s : State) (c : Cmd) (check : Nat) (act : State → State) : State :=
  if check = 0 then s.withShep c act else s.setCmd (c.done check)

/-! Performance levels (R570). -/

/-- The highest VALID level at or below `l`, if any. -/
def State.validAt (s : State) (c : Nat) : Nat → Option Nat
  | 0 => if s.rb (F.entValid c 0) then some 0 else none
  | l + 1 => if s.rb (F.entValid c (l + 1)) then some (l + 1) else s.validAt c l

/-- The effective level of a cluster. -/
def State.effLevel (s : State) (c : Nat) : Nat :=
  let k := s.lvl c
  let m := if s.rb (F.thermal c) then 0 else min k.requested k.allowed
  (s.validAt c m).getD m

/-- Show the effective level. -/
def State.showLevel (s : State) (c : Nat) : State := s.wf (F.level c) (s.effLevel c)

/-! The owner of a core (R360 to R362). -/

/-- The owner byte that the table gives a core now. -/
def State.ownerNow (s : State) (n : Nat) : Nat :=
  if s.rb (F.calBusy (n / 4)) then 0x80
  else if !s.rb F.grzEn then 0x40
  else bits (s.rf (F.grzWord (s.rf F.grzActive) (s.rf F.grzSlot) ((4 + n) / 8))) ((4 + n) % 8 * 8) 8

/-! Parking (R369, R371). -/

/-- Whether a core other than `n` serves a command. -/
def State.servedElsewhere (s : State) (n : Nat) (p : Nat × Nat) : Bool :=
  (List.range 16).any (fun m => m != n && (s.core m).serving.contains p)

/-- Write a queue's save record from its parked commands (R369). -/
def State.writeSave (s : State) (q : Nat) : State :=
  let es := (s.cmdsOf q).filterMap (fun c =>
    if c.parked then some (c.slot % 2 ^ 16, (if c.phase = 3 then 3 else 4), c.slot, c.resume, c.tilesDone) else none)
  let s := s.modQueue q (fun v => { v with save := es })
  (s.instPut 0 (s.rf F.grzSaveBase + 64 * q) (saveBytes q s.now es) true false).inc F.grzParks 1

/-- Park a command: it is admitted no further tile until it is served again, and its queue's record is rewritten. -/
def State.parkCmd (s : State) (c : Cmd) : State :=
  (s.setCmd c.park).writeSave c.qn

/-- A core leaves one of its commands: one with tiles left that no other core serves is parked (R371, R372); the rejection of its next
tile wins over its parking (R320). -/
def State.leaveCmd (s : State) (n : Nat) (p : Nat × Nat) : State :=
  match s.cmd p.1 p.2 with
  | some c =>
    if c.phase = 4 ∧ ¬ c.parked ∧ ¬ c.failed ∧ c.resumePoint < c.tiles ∧ ¬ s.servedElsewhere n p ∧ ¬ s.hasTile c.qn c.slot then
      match s.tileRejected n c with
      | some r => s.rejectTile n c r
      | none => s.parkCmd c
    else s
  | none => s

/-- The class of the partition of a queue's context (R355). -/
def State.classOf (s : State) (q : Nat) : Nat := s.rf (F.pClass (s.rf (F.ctxPart (q / 8))))

/-- A core stops serving its commands (R371, R372); the records are written in the order of the classes, REALTIME first (R355). -/
def State.parkCore (s : State) (n : Nat) : State :=
  let l := [0, 1, 2, 3].flatMap (fun k => (s.core n).serving.filter (fun p => s.classOf p.1 == k))
  (forL l (fun p s => s.leaveCmd n p) s).modCore n (fun k => { k with
    serving := [], served := none, h0 := { k.h0 with loaded := none }, h1 := { k.h1 with loaded := none } })

/-! Retirement (R576). -/

/-- A core is retired: it admits no tile and its domain stays off; the commands that asked for it complete. -/
def State.retireNow (s : State) (n : Nat) : State :=
  let r := setBits s.hsa.retired n 1 1
  let s := { s with hsa := { s.hsa with retired := r } }
  let s := (s.wf F.retiredAll r).wf (F.clRetired (n / 4)) (bits r (n / 4 * 4) 4)
  let s := (s.coreOff n).raise pgPwr 2
  s.finishWaiting 0x88 0x00 (fun c => c.fld 50 1 % 8 == 3 && c.fld 53 1 % 16 == n)

/-- Ask for a core's retirement: at once when it runs no tile, else at its tile boundary. -/
def State.retire (s : State) (n : Nat) : State :=
  if bit s.hsa.retired n then s
  else if (s.core n).tile.isNone then s.retireNow n
  else s.modCore n (fun k => { k with retirePend := true })

/-! The tile boundary (R21). -/

/-- The partition that an owner byte names; none with NONE. -/
def ownerOf (b : Nat) : Option Nat := if bit b 7 then none else some (b % 64)

/-- A core changes owner between two owner bytes, or its owner reclaims it from a borrower (R367, R372). -/
def State.ownerLeaves (s : State) (n old new : Nat) : Bool :=
  ownerOf old != ownerOf new
    || (bit old 6 && !bit new 6 && (s.core n).served.any (fun c => some (s.rf (F.ctxPart c)) != ownerOf new))

/-- The slot change of a core: its commands are parked when it changes owner (R20, R372). -/
def State.takeSlot (s : State) (n : Nat) : State :=
  let own := s.ownerNow n
  if own = (s.core n).own then s
  else (if s.ownerLeaves n (s.core n).own own then s.parkCore n else s).modCore n (fun k => { k with own := own })

/-- What the TSQ does at a core's tile boundary before it admits: quiesce, at which it stops, then retirement and the slot change with
its parking (R21). -/
def State.boundary (s : State) (n : Nat) : State :=
  if (s.core n).tile.isSome then s
  else
    let s := s.quiesceNow n
    let s := if (s.core n).retirePend then (s.modCore n (fun k => { k with retirePend := false })).retireNow n else s
    let s := if s.rb (F.tsqQuiesced n) then s else s.takeSlot n
    s.quiescedBits.closeProgress

/-- The cores in the order in which a slot change writes their parking records: by the class they serve, REALTIME first (R355). -/
def State.parkOrder (s : State) : List Nat :=
  let cls (n : Nat) : Nat := ((s.core n).served.map (fun c => s.classOf (8 * c))).getD 4
  [0, 1, 2, 3, 4].flatMap (fun k => (List.range 16).filter (fun n => cls n == k))

/-- Cores that are at a boundary already take a change at once. -/
def State.boundaries (s : State) : State := forL s.parkOrder (fun n s => s.boundary n) s

/-! Calibration (R574). -/

/-- Begin the calibration of the next cluster that waits, when none calibrates. -/
def State.calNext (s : State) : State :=
  if (List.range 4).any (fun c => s.rb (F.calBusy c)) then s
  else match s.pwr.calQ with
    | [] => s
    | c :: _ =>
      let s := s.wb (F.calBusy c) true
      (forN 4 (fun i s => s.quiesceCore 2 (4 * c + i)) s).boundaries

/-- Stop a calibration: the table keeps its earlier entries (Table 17.8). -/
def State.calStop (s : State) : State :=
  let s := forN 4 (fun c s => s.wb (F.calBusy c) false) s
  let s := (s.unquiesceAll 2).finishWaiting 0x88 0x70 (fun c => c.fld 50 1 % 8 == 2)
  { s with pwr := { s.pwr with calQ := [] } }

/-! The hold-up save and resume (Tables 17.6 and 17.7, R588, R589). -/

/-- A capacitor check in progress stops with UNCHECKED (Table 17.8). -/
def State.capStop (s : State) : State :=
  if s.pwr.cap = 0 then s
  else
    let s := ((s.wf F.capStatus 0).stopT .capCheck).finishWaiting 0x88 0x70 (fun c => c.fld 50 1 % 8 == 5)
    { s with pwr := { s.pwr with cap := 0 } }

/-- A save stops a Shepherd update that has not reached its step 2 (R531). -/
def State.stopUpdate (s : State) : State :=
  match s.shep.update with
  | some u => if u.shepherd && u.step < 2 then
      ({ s with shep := { s.shep with update := none } }).modCmd u.qn u.slot (fun c => c.done 0x70) else s
  | none => s

/-- Steps 1 and 2 of Table 17.7: HOLD_STATE becomes QUIESCING, cores quiesce, collectives end, inlets discard. A Shepherd
update that has not reached its step 2 stops (R531). -/
def State.beginSave (s : State) : State :=
  let s := ((s.wf F.holdState 1).wf F.csbRetainedAll 15).calStop
  let s := s.stopUpdate.endColls 0x70
  (s.discardFrames.quiesceAll 1).boundaries

/-- Every core stands at a tile boundary. -/
def State.noTiles (s : State) : Bool := (List.range 16).all (fun n => (s.core n).tile.isNone)

/-- A save is written and sealed: HOLD_STATE shows SEALED, with the events SEALED and, when contexts were omitted, OMITTED. -/
def State.sealAs (s : State) (v : Save) : State :=
  let s := s.storeSave v
  let s := if v.omitted = 0 then s else s.raise pgHup 4
  (s.wf F.holdState 4).raise pgHup 0

/-- Steps 3 to 5 for a failing supply: the state of Table 17.6 is saved, P01 to P08, P13 to P29 are off. -/
def State.sealHoldup (s : State) (preserve : Bool) : State :=
  let v := s.makeSave preserve
  let s := forN 16 (fun n s => s.coreOff n) s
  let s := { s with
    hsa := { s.hsa with capture := some v }
    cmds := [], queues := [], xlt := Xlt.init, slow := [], closing := [], inlets := [], drovers := [], emu := [], wlatch := [],
    rlatch := [], txns := [], waiting := [], sigs := [], checked := [], flock := Flock.init, links := s.links.map (fun e => (e.1, { Link.init with
      slotCount := e.2.slotCount, sent := e.2.sent }))
    boot := { s.boot with discard := s.boot.discard ++ s.txns.map (fun t => (t.port, t.id)) } }
  let s := forN 64 (fun n s => s.wf (F.slInflight n) 0) s
  (s.wf F.domains 0x1E01).sealAs v

/-- Step 2 of Table 16.8 alone: the save is sealed and the instance stays powered. -/
def State.sealPreserve (s : State) : State :=
  s.sealAs (s.makeSave true)

/-- A slot found RETIRING after a save holds no transaction: it is zeroed and enters quarantine (Table 14.16). -/
def State.retiringDone (s : State) : State :=
  forN 62 (fun i s =>
    let n := i + 2
    if s.rf (F.slState n) = 2 then
      ({ ((s.wf (F.slState n) 0).wf (F.slQuar n) 1).startT (.key n) with keys := tblPut 0 s.keys n 0 }).raise pgShm 2
    else s) s

/-- What a register holds after a hold-up resume: P00 and the clusters keep theirs, the save gives back its own, and every
other domain's registers come back from the shadow (R638). -/
def resumeReg (ctxs : List Nat) (o : Nat) (v : W64) : W64 :=
  if inP00 o ∨ (0x80000 ≤ o ∧ o < 0xC0000) then v
  else if savedReg ctxs o then savedVal o v
  else if 0x400000 ≤ o then resetVal o
  else afterOff o v

/-- The resume of R588 from the capture buffer. -/
def State.resumeFrom (s : State) (v : Save) : State :=
  let s := forL s.regs (fun e s => s.setReg e.1 (resumeReg v.ctxs e.1 e.2)) s
  let s := { s with cmds := v.cmds, checked := v.checked, grz := v.grz, closing := v.closing,
                    xlt := { s.xlt with reports := v.reports, reported := v.reported }, hsa := { s.hsa with capture := none } }
  let s := s.retiringDone
  let s := ((s.fetchFromHead v.ctxs).refetchFrom v.cmds).siRearm
  let s := forN 4 (fun c s => if s.rb (F.csbRetained c) then s else s.loseCsb v.ctxs c) s
  let s := s.wf F.domains (forNat s.hsa.retired)
  let s := forN 16 (fun n s => if bit s.hsa.retired n then s else s.coreOn n) s
  let s := forN 4 (fun n s => (s.wb (F.dvRunning n) true).loadRegions n) s
  let s := forN 8 (fun n s => s.wb (F.mpEnabled n) (decide (n < 2 ^ s.rf F.portsLog2))) s
  let s := (s.wb F.flkBw s.pins.bellwether).flockStart
  let s := if 2 ≤ s.rf F.hostState then s else (s.supersede).unquiesceAll 1
  let s := s.wf F.holdState 0
  let s := forN 16 (fun n s => if (s.core n).rstAfter = 0 then s
    else (s.engineReset n (s.core n).rstAfter).modCore n (fun k => { k with rstAfter := 0 })) s
  (s.raise pgHup 1).logEv 9 0 0 0 v.gen
where
  /-- Every domain but those of retired cores. -/
  forNat (retired : Nat) : Nat := 0x3FFFFFFF - retired % 2 ^ 16 * 2 ^ 13

end Sys2Proof.Machine
end

