-- ==== Sys2Proof/Machine/CloseOps.lean ====
section
/-! DEFINITION. Key bindings and the end of a teardown or context reset (14_trust_keys_and_tenants.md Table 14.14, R509). -/

namespace Sys2Proof.Machine

/-! Bindings (R501, R502). -/

/-- End a context's binding; a last unbinding of a VALID XTS or PLAIN slot that is not fixed makes it RETIRING (Table 14.10,
step 7 of Table 14.14). -/
def State.unbindKey (s : State) (ctx : Nat) : State :=
  if s.rb (F.keyBound ctx) then
    let n := s.rf (F.keySlot ctx)
    let s := (s.wb (F.keyBound ctx) false).wf (F.slBound n) (s.rf (F.slBound n) - 1)
    if s.rf (F.slBound n) = 0 ∧ s.rf (F.slState n) = 1 ∧ s.rf (F.slKind n) ≠ 2 ∧ ¬ s.rb (F.slFixed n) then s.wf (F.slState n) 2 else s
  else s

/-- Bind a context to a slot (R504). A context that the slot already binds keeps its place in the slot's count: nothing is
unbound last. -/
def State.bindKey (s : State) (ctx n : Nat) : State :=
  if s.rb (F.keyBound ctx) ∧ s.rf (F.keySlot ctx) = n then s.wf (F.keyGen ctx) (s.rf (F.slGen n))
  else
    let s := s.unbindKey ctx
    let s := ((s.wf (F.keySlot ctx) n).wb (F.keyBound ctx) true).wf (F.keyGen ctx) (s.rf (F.slGen n))
    s.wf (F.slBound n) (s.rf (F.slBound n) + 1)

/-- Contexts bound to a slot: context 0, and those whose CTX_KEY is listed. -/
def State.boundTo (s : State) (n : Nat) : List Nat :=
  (0 :: (s.regs.filterMap (fun e =>
    if 0x401000 ≤ e.1 ∧ e.1 < 0x1400000 ∧ e.1 % 0x1000 = 0x68 then some ((e.1 - 0x400000) / 0x1000) else none))).filter
    (fun c => s.rb (F.keyBound c) && s.rf (F.keySlot c) == n)

/-- A drained RETIRING slot becomes EMPTY: key overwritten, quarantine begun, every binding to it ended (R502). -/
def State.slotEmpty (s : State) (n : Nat) : State :=
  let s := forL (s.boundTo n) (fun c s => s.wb (F.keyBound c) false) s
  let s := (s.wf (F.slBound n) 0).wf (F.slState n) 0
  let s := ({ s with keys := tblPut 0 s.keys n 0 }).startT (.key n)
  (s.wf (F.slQuar n) 1).raise pgShm 2

/-! The end of a teardown. -/

/-- Write zero lines over a carve-out region under a one-time AES-256-XTS key from the DRBG (R509). -/
def State.carveScrub (s : State) (base len : Nat) : State :=
  let (d, s) := s.takeDrbg
  let (e, s) := s.takeDrbg
  let key := natB 64 (d % 2 ^ 256 + 2 ^ 256 * (e % 2 ^ 256))
  forN (len / 64) (fun i s =>
    let a := base + 64 * i
    { s with mem := memPut s.mem a (ofNats (xtsEnc key (a % 2 ^ 52 / 64) (List.replicate 64 0)))
             poison := setDel s.poison (a % 2 ^ 52 / 64) }) s

/-- The 0x50 records of one queue, in queue order; a failed record write halts the queue (R348, Table 14.16). -/
def State.tornQueue (s : State) : List Cmd → State
  | [] => s
  | c :: l =>
    let c := { c with status := 0x50, detail := 0xFFFFFFFF }
    match s.putRecord c with
    | (0, s) =>
      let s := s.afterRecord c
      let s := if c.haltsQueue then (s.wb (F.qHalted c.qn) true).wf (F.qReason c.qn) 0x50 else s
      let s := if c.flag 1 2 ∨ c.haltsQueue then s.sendVecAfter (s.rf (F.qVector c.qn)) c.qn c.slot else s
      s.tornQueue l
    | (e, s) => forL (c :: l) (fun d s => s.dropCmd d) (s.haltNoRecord c.qn e)

/-- The CBS halves tagged with a context hold zeros (R133). -/
def State.cbsZero (s : State) (ctx : Nat) : State :=
  forN 16 (fun n s => s.modCore n (fun k => { k with
    h0 := if s.rf (F.cbsCtx n 0) = ctx then { k.h0 with data := [], bad := [] } else k.h0,
    h1 := if s.rf (F.cbsCtx n 1) = ctx then { k.h1 with data := [], bad := [] } else k.h1 })) s

/-- Whether a context has nothing left running or in flight (steps 2 and 3 of Table 14.14). -/
def State.drained (s : State) (ctx : Nat) : Bool :=
  (List.range 16).all (fun n => match (s.core n).tile with
    | some t => t.ctx != ctx
    | none => true)
  && !s.txns.any (fun t => t.ctx == ctx && !t.inst) && !s.waiting.any (fun r => r.ctx == ctx && !r.inst)
  && !s.sigs.any (fun g => g.qn / 8 == ctx)

/-- Steps 3 to 7 of Table 14.14 for a context whose tiles have ended and whose transactions have completed. -/
def State.finishClosing (s : State) (k : Closing) : State :=
  let ctx := k.ctx
  let s := forL (s.flock.colls.filter (fun k => k.ctx == ctx)) (fun k s => s.endColl k 0x50) s
  let s := { s with flock := { s.flock with groups := s.flock.groups.filter (fun g => !(g.ctx == ctx)) } }
  let s := s.tlbDrop (fun t => t.ctx == ctx) (fun w => w.ctx == ctx)
  let s := { s with xlt := { s.xlt with reports := s.xlt.reports.filter (fun r => !(r.ctx == ctx)),
                                        reported := s.xlt.reported.filter (fun r => !(r.ctx == ctx)) } }
  let s := (s.acquire ctx).cbsZero ctx
  let s := forN 4 (fun c s => s.unbindCsb ctx c) s
  let s := match k.carve with
    | some (b, n) => s.carveScrub b n
    | none => s
  let s := forN 8 (fun q s => s.tornQueue (s.cmdsOf (8 * ctx + q))) s
  let s := s.unbindKey ctx
  let s := s.reclaim ctx
  let s := forN 8 (fun q s => s.setQueue (8 * ctx + q) Queue.init) s
  let s := { s with checked := s.checked.filter (fun k => k.1 / 8 != ctx), cmdKeys := tblDel s.cmdKeys ctx, closing := s.closing.filter (fun x => !(x.ctx == ctx)) }
  let s := ((s.wf (F.ctxState ctx) 0).stopT (.ctxAbort ctx)).stopT (.ctxDrain ctx)
  let s := match k.cmd with
    | some (q, p) => s.modCmd q p (fun c => c.done 0x00)
    | none => s
  if k.cause = 0 then s else (((s.wf F.lastCtx ctx).wf F.lastCause (k.cause - 1)).raise 0 1)

end Sys2Proof.Machine
end

