-- ==== Sys2Proof/Machine/TrustOps.lean ====
section
/-! DEFINITION. Trust assignment: page locks, LOCK_DIGEST, the messages of TRUST_ASSIGN and the procedure of STOP
(14_trust_keys_and_tenants.md R490, R491 and R650, 18_integration_ports_and_crossings.md R614 and R615). -/

namespace Sys2Proof.Machine

/-! Page locks (R636, R637). -/

/-- A page's RWL fields are locked: BOOT, which the Shepherd sets, or TRUST, which reads the trust state. -/
def State.pageLocked (s : State) (l : Loc) : Bool :=
  pageLockable l.page l.idx && (s.rb (F.lockBoot l.base) || s.rf F.trust != 0)

/-- First offsets of every page that has an RWL field, in address order. -/
def lockPages : List Nat :=
  [0, 0x2000, 0x3000, 0x4000, 0x10000, 0x11000, 0x12000] ++ (List.range 4).map pgLk ++ (List.range 32).map pgSi
    ++ (List.range 16).flatMap (fun n => [pgMxe n, pgAte n, pgWdu n, pgShd n]) ++ [0x400000]

/-- The values of the RWL fields of the register that begins at an offset. -/
def State.lockedFields (s : State) (o : Nat) : List Nat :=
  match regAt o with
  | none => []
  | some r =>
    if r.off = o then
      (r.row.fields.filter (fun f => f.acc = .rwl ∨ (f.acc = .ctx0 ∧ r.loc.idx = 0))).map (fun f => bits (s.reg o).toNat f.lo f.w)
    else []

/-- LOCK_DIGEST: the SHA-384 of every RWL field in address order (Table 14.4). -/
def State.lockDigest (s : State) : Nat :=
  let fs := lockPages.flatMap (fun b =>
    (List.range (if 0x30000 ≤ b ∧ b < 0x38000 then 0x100 else 0x400)).flatMap (fun i => s.lockedFields (b + 4 * i)))
  bNat (sha384 (Config.fieldBytes fs))

/-! STOP (R650). -/

/-- The CONFIDENTIAL contexts that are not FREE, in ascending number. -/
def State.confCtxs (s : State) : List Nat :=
  s.liveCtxs.filter (fun c => s.rb (F.confid c) && s.rf (F.ctxState c) != 0)

/-- Answer a message: the trust state, and ACCEPTED in bit 8 (R614). -/
def State.taAnswer (s : State) (accepted : Bool) : State :=
  { s with pins := { s.pins with taRsp := (s.rf F.trust + 256 * b2n accepted) :: s.pins.taRsp } }

/-- The next step of a STOP in progress: the next CONFIDENTIAL context is torn down, a CLOSING one is waited for, or, when none
is left, steps 3 and 4 end the procedure. -/
def State.stopNext (s : State) : State :=
  if !s.shep.stopping ∨ !s.shepUp ∨ ¬ (s.boot.phase = .loaded ∨ s.boot.phase = .ready) then s
  else match s.confCtxs with
    | c :: _ => if s.rf (F.ctxState c) = 3 then s else s.startClosing c none 0 none
    | [] =>
      let s := ({ s with shep := { s.shep with stopping := false } }.freshOpen).newKey0
      ((s.setTrust 0).showWk).taAnswer true

/-! Messages (Table 14.4, Table 18.5). -/

/-- Act on one message: its code, and its payload read as a little-endian number. -/
def State.taAct (s : State) (code payload : Nat) : State :=
  let t := s.rf F.trust
  if code = 1 ∧ t = 0 then
    let d := s.lockDigest
    let s := ({ s with shep := { s.shep with lockDigest := d } }.setTrust 1).setWk 1 payload
    (s.newKey0).taAnswer true
  else if code = 2 ∧ t = 1 then (s.setTrust 2).taAnswer true
  else if code = 3 ∧ t ≠ 0 then ({ s with shep := { s.shep with stopping := true } }).stopNext
  else if code = 4 ∧ (t = 1 ∨ t = 2) then
    (({ s with shep := { s.shep with permit := some payload } }).wb F.permit true).taAnswer true
  else if code = 5 then s.taAnswer true
  else s.taAnswer false

/-- Messages pass the crossing: step 6 of Table 14.2 has ended and no instance reset runs (R615, Table 18.9), the Shepherd
serves, no STOP is in progress, and the crossing carries traffic. -/
def State.taOpen (s : State) : Bool :=
  ((s.boot.phase == .loaded && s.pwr.cap == 0) || s.boot.phase == .ready) && s.rf F.holdState == 0 && s.shepUp && !s.shep.stopping && s.xing .ta

/-- A message arrives after POR_N release: Broxa acts on it, or the crossing holds it behind those that it holds. -/
def State.taArrive (s : State) (m : Nat × Nat) : State :=
  if !s.pins.porN then s
  else if s.taOpen ∧ s.pins.taHeld.isEmpty then s.taAct m.1 m.2
  else { s with pins := { s.pins with taHeld := s.pins.taHeld ++ [m] } }

/-- The crossing releases the messages that it holds, oldest first, as far as each is answered. -/
def State.taDrain (s : State) : State :=
  forL s.pins.taHeld (fun m s => s.taArrive m) { s with pins := { s.pins with taHeld := [] } }

/-- A STOP that an instance reset interrupted goes on, and held messages are served. -/
def State.taResume (s : State) : State := (s.stopNext).taDrain

end Sys2Proof.Machine
end

