-- ==== Sys2Proof/Machine/Boot.lean ====
section
/-! DEFINITION. The commands of power-up, resets, the crossings and the test port (18_integration_ports_and_crossings.md,
14_trust_keys_and_tenants.md Table 14.2, 16_sheepdogs_resets_recovery.md Table 16.6). -/

namespace Sys2Proof.Machine

/-! Cold boot. -/

/-- The HUP, PWR and SHM registers show what the HSA holds (Tables 17.10, 15.9 and 14.18). -/
def State.showHsa (s : State) : State :=
  let s := ((s.wf F.retiredAll s.hsa.retired).wf F.logNext s.hsa.logNext).wf F.bootCount s.hsa.bootCount
  match s.newest with
  | none => s
  | some (v, b) => (((s.wf F.saveGen v.gen).wb F.saveArea b).wb F.saveSuper v.superseded).wf F.saveOmitted v.omitted

/-- Begin the capacitor check at step 6 of Table 14.2, when the boot has come so far (R578). -/
def State.beginCap (s : State) : State :=
  if s.boot.phase = .loaded then { s.startT .capCheck with pwr := { s.pwr with cap := 1, capStart := s.now } } else s

/-- POR_N_RELEASE (R621, R487, R606, R616): BELLWETHER, the EPOCH strap and PHY_READY are sampled and the cold boot runs its
secure boot; `fetched` tells whether the fetch from BOOT_HPA completes within its time limit. -/
def execPorNRelease (bellwether : Bool) (strap : BitVec 14) (phyReady : BitVec 4) (fetched : Bool) (s : State) :
    Host.Outcome State Fault Refusal :=
  if s.pins.porN then .next s
  else
    let s := { s with
      pins := { s.pins with porN := true, bellwether := bellwether, phyReady := phyReady.toNat }
      hsa := { s.hsa with bootCount := (s.hsa.bootCount + 1) % 2 ^ 32 }
      boot := { s.boot with phase := .booting } }
    let s := if 100 ≤ strap.toNat ∧ strap.toNat ≤ 10000 then s.wf F.epochNs strap.toNat
      else (s.wf F.epochNs 1000).raise 0 5
    let s := (s.showHsa).wf F.vhold 600
    let s := (s.setMeas 4 (bNat (sha384 (natL 1 Config.lifecycle ++ natL 8 Config.svnShepFloor ++ natL 8 Config.svnDroverFloor
      ++ natB 48 Config.imgKeyHash ++ natB 48 Config.caRootHash))))
    .next ((s.secureBoot true fetched).beginCap).taResume

/-- POR_N_ASSERT (R621, R586, R623): every domain is held in reset; while a save runs, the effect waits for the seal. -/
def execPorNAssert (s : State) : Host.Outcome State Fault Refusal :=
  if !s.pins.porN then .next s
  else if 1 ≤ s.rf F.holdState ∧ s.rf F.holdState ≤ 3 then
    .next { s with pins := { s.pins with porN := false }, boot := { s.boot with porDeferred := true } }
  else .next s.porReset

/-- COLD_BOOT_READY (R621, Table 18.7 step 4): the capacitor check has ended, the Drovers run, a save is restored (R590), the
first calibration is due (R574), and the instance is ready. -/
def execColdBootReady (s : State) : Host.Outcome State Fault Refusal :=
  if s.boot.phase = .loaded ∧ ¬ s.boot.rst ∧ s.pwr.cap = 0 then
    let s := s.becomeReady
    let s := s.restoreAtBoot
    let s := if s.rb F.saveRestored then s else s.freshAttach
    .next (State.calNext { s.startT .calPeriod with pwr := { s.pwr with calQ := [0, 1, 2, 3], tdpStart := s.now } })
  else .next s

/-- BOOT_FETCH_TIMEOUT (R487): the RC-oscillator count ends the fetch from BOOT_HPA, and BOOT_HPA_ALT is tried. -/
def execBootFetchTimeout (s : State) : Host.Outcome State Fault Refusal :=
  match s.elapsed .bootFetch with
  | none => .next s
  | some _ =>
    let s := (s.stopT .bootFetch).bootAltTry (!s.boot.made)
    .next (if s.boot.rst then s else s.beginCap).taResume

/-! Resets. -/

/-- WRST_N_ASSERT (R622, R623): ignored while POR_N is low, while the tray is asked for a power cycle (R617) and in BOOT_FAIL
(R489); deferred while a save or a resume runs. -/
def execWrstNAssert (s : State) : Host.Outcome State Fault Refusal :=
  if !s.pins.porN ∨ s.boot.phase = .tray ∨ s.boot.phase = .failed then .next s
  else if (1 ≤ s.rf F.holdState ∧ s.rf F.holdState ≤ 3) ∨ s.rf F.holdState = 5 then
    .next { s with boot := { s.boot with wrstDeferred := true } }
  else .next s.warmReset

/-- Step 4 of Table 16.6: a trust state of LOCKED or RUN becomes ERROR with cause 2 (Table 14.4). -/
def State.trustAfterReset (s : State) : State :=
  if s.rf F.trust = 1 ∨ s.rf F.trust = 2 then (s.setTrust 3).wf F.trustCause 2 else s

/-- Steps 4 and 5 of an instance reset from a loaded image: ready, the save restored (R590), the event raised. -/
def State.resetReady (s : State) : State :=
  let s := s.becomeReady
  let s := s.restoreAtBoot
  let s := if s.rb F.saveRestored then s else s.freshAttach
  let s := { s.startT .calPeriod with boot := { s.boot with rst := false }, pwr := { s.pwr with tdpStart := s.now } }
  let s := forN 4 (fun c s => (s.wb (F.calBusy c) false).showLevel c) s
  s.raise 0 2

/-- INSTANCE_RESET_READY (R552): the Shepherd boots again from ROM and GLB.PG_STAT shows ready; `fetched` as at a cold boot. A
hold by the TAP (R626) keeps the instance in reset. -/
def execInstanceResetReady (fetched : Bool) (s : State) : Host.Outcome State Fault Refusal :=
  if !s.boot.rst ∨ s.pins.selfTest then .next s
  else
    let s := if s.boot.phase = .resetting ∧ (s.elapsed .bootFetch).isNone then
      (s.trustAfterReset).secureBoot (!s.boot.made) fetched else s
    if s.boot.phase = .loaded then .next s.resetReady.taResume else .next s

/-- INSTANCE_RESET_LIMIT (R555): an instance reset that ends in BOOT_FAIL, or passes 100 ms, asks the tray for a power
cycle. -/
def execInstanceResetLimit (s : State) : Host.Outcome State Fault Refusal :=
  if s.boot.rst ∧ (s.boot.phase = .failed ∨ ((s.boot.phase = .resetting ∨ s.boot.phase = .loaded)
      ∧ s.toEpochs 100000000 ≤ s.now - s.boot.rstStart)) then .next s.trayRequest
  else .next s

/-- MP_RST_N_ASSERT (R597): a memory port's fabric side is reset; with a transaction outstanding, outside an instance reset,
the instance resets with cause 3. Otherwise nothing is lost. -/
def execMpRstNAssert (port : PortId) (s : State) : Host.Outcome State Fault Refusal :=
  if s.boot.phase = .ready ∧ s.txns.any (fun t => t.port == port.val) then .next (s.instanceReset 3 true)
  else .next { s with boot := { s.boot with discard := s.boot.discard.filter (fun d => !(d.1 == port.val)) } }

/-! Crossings (R610, R612, R613). -/

/-- CLOCK_STOP (R612): data in the crossing is held until the clock returns. -/
def execClockStop (c : Clk) (s : State) : Host.Outcome State Fault Refusal :=
  .next { s with pins := { s.pins with stopped := if s.pins.stopped.contains c then s.pins.stopped else c :: s.pins.stopped } }

/-- CLOCK_RETURN (R610): the crossing releases the data that it held. -/
def execClockReturn (c : Clk) (s : State) : Host.Outcome State Fault Refusal :=
  .next (State.taResume { s with pins := { s.pins with stopped := s.pins.stopped.filter (fun d => !decide (d = c)) } })

/-- CROSSING_RESET (R610, R613): the SoC side of a crossing is reset; pointers resynchronise and nothing accepted is lost. -/
def execCrossingReset (c : Clk) (s : State) : Host.Outcome State Fault Refusal :=
  .next { s with pins := { s.pins with resync := if s.pins.resync.contains c then s.pins.resync else c :: s.pins.resync } }

/-- CROSSING_RESYNC_DONE (R613): the resynchronisation ends while both clocks run; an inlet's next SIn_FS starts a frame
(R602). -/
def execCrossingResyncDone (c : Clk) (s : State) : Host.Outcome State Fault Refusal :=
  if s.pins.stopped.contains c then .next s
  else .next (State.taResume { s with pins := { s.pins with resync := s.pins.resync.filter (fun d => !decide (d = c)) } })

/-! Test access (R625 to R627). -/

/-- TAP_EXTEST (R627): boundary scan drives the port outputs and the crossings hold their traffic. -/
def execTapExtest (s : State) : Host.Outcome State Fault Refusal :=
  if s.pins.porN then .next { s with pins := { s.pins with extest := true } } else .next s

/-- TAP_LEAVES_EXTEST (R627). -/
def execTapLeavesExtest (s : State) : Host.Outcome State Fault Refusal :=
  .next (State.taResume { s with pins := { s.pins with extest := false } })

/-- TAP_SELF_TEST (R626, Table 18.8): in PROD the instance is first held in instance reset, cause 7; in DEV and RMA the test
needs no hold. -/
def execTapSelfTest (s : State) : Host.Outcome State Fault Refusal :=
  if !s.pins.porN then .next s
  else
    let s := if Config.lifecycle = 1 ∧ s.boot.phase = .ready then s.instanceReset 7 true else s
    .next { s with pins := { s.pins with selfTest := true } }

/-- SELF_TEST_DONE (R626): the tested arrays hold zeros with valid check symbols, and the hold is released. -/
def execSelfTestDone (s : State) : Host.Outcome State Fault Refusal :=
  if s.pins.selfTest then
    .next { s with pins := { s.pins with selfTest := false }
                   csb := if s.boot.rst then [] else s.csb
                   csbPoison := if s.boot.rst then [] else s.csbPoison }
  else .next s

/-- TAP_RESET (R625): the TAP and its network are reset, and no instrument holds anything. -/
def execTapReset (s : State) : Host.Outcome State Fault Refusal :=
  .next (State.taResume { s with pins := { s.pins with extest := false, selfTest := false } })

end Sys2Proof.Machine
end

