-- ==== Sys2Proof/Machine/Contexts.lean ====
section
/-! DEFINITION. The commands that set up contexts, their segments and translations, resume them, and divide the cores among
them (09_contexts_queues_doorbells.md, 10_grazing_and_preemption.md, 11_segments_and_translation.md). -/

namespace Sys2Proof.Machine

/-! CTX_SETUP (R325 to R327, R491, R503). -/

/-- Field of queue `q`'s entry of a setup block (Table 9.4). -/
def setupFld (bs : List Byte) (q o n : Nat) : Nat := fldOf bs (32 * q + o) n

/-- An enabled queue's entry with a ring size or a base out of range (Table 9.5). -/
def setupBad (bs : List Byte) (q : Nat) : Bool :=
  let cfg := setupFld bs q 16 4
  bit cfg 31 && (decide (cfg % 16 < 4) || decide (cfg / 256 % 16 < 4) || setupFld bs q 0 8 % 4096 != 0
    || setupFld bs q 8 8 % 4096 != 0)

/-- The setup block, or the status of a failing check of Table 9.5 but the last. -/
def State.setupCheck (s : State) (c : Cmd) : Except Nat (List Byte) × State :=
  match s.ctxRead 0 (c.fld 56 8 % 2 ^ 52 / 32 * 32) 256 with
  | (.error e, s) => (.error e, s)
  | (.ok bs, s) =>
    if c.target = 0 ∨ 4096 ≤ c.target ∨ s.rf (F.ctxState c.target) ≠ 0 then (.error 0x11, s)
    else if !bit (setupFld bs 0 16 4) 31 then (.error 0x11, s)
    else if (List.range 8).any (setupBad bs) then (.error 0x11, s)
    else (.ok bs, s)

/-- Copy a queue's entry into its CTX block, every count and Q_STAT zero. -/
def State.setupQueue (s : State) (bs : List Byte) (n q : Nat) : State :=
  let cfg := setupFld bs q 16 4
  let s := (s.wf (F.qBase n) (setupFld bs q 0 8 / 4096 * 4096)).wf (F.cqBase n) (setupFld bs q 8 8 / 4096 * 4096)
  let s := ((s.wf (F.qLog2 n) (max 4 (cfg % 16))).wf (F.cqLog2 n) (max 4 (cfg / 256 % 16))).wf (F.qVector n) (cfg / 65536)
  let s := (s.wb (F.qEn n) (bit cfg 31)).wf ⟨qBlk n + 0x14, 0, 32⟩ 0
  let s := (((s.wf (F.qTail n) 0).wf (F.qHead n) 0).wf (F.cqTail n) 0).wf (F.cqHead n) 0
  s.setQueue n Queue.init

/-- The target becomes ACTIVE with its queues, without segments, translation, partition or binding. -/
def State.setupCtx (s : State) (bs : List Byte) (t : Nat) : State :=
  let s := forN 8 (fun q s => s.setupQueue bs (8 * t + q) q) s
  let s := (s.wf (F.tally t) 0).wf (F.xltMode t) 0
  let s := forN 16 (fun n s => s.wf (F.segLimit t n) 0) s
  let s := ((s.wb (F.inPart t) false).wb (F.keyBound t) false)
  let s := s.wb (F.confid t) (s.rf F.trust == 1 || s.rf F.trust == 2 || s.rf F.wkSrc == 2)
  s.wf (F.ctxState t) 1

/-- The Shepherd's part of CTX_SETUP: the command key is generated, its record is written to KEY_OUT, and the context becomes
ACTIVE (R327). -/
def State.setupAct (s : State) (c : Cmd) : State :=
  match s.setupCheck c with
  | (.error e, s) => s.setCmd (c.done e)
  | (.ok bs, s) =>
    let (d, s) := s.takeDrbg
    let key := d % 2 ^ 256
    match s.ctxWrite 0 (c.fld 64 8 % 2 ^ 52 / 64 * 64) (ofNats (s.keyRecord c.target key)) (.command c.qn c.slot) with
    | (0, s) => (({ s with cmdKeys := tblIns s.cmdKeys c.target key }).setupCtx bs c.target).setCmd (c.done 0x00)
    | (e, s) => s.setCmd (c.done e)

/-- CTX_SETUP (R325 to R327). -/
def execCtxSetup (q : QNum) (s : State) : Host.Outcome State Fault Refusal :=
  match s.phase4 q.val 0x80 with
  | none => .next s
  | some c =>
    match s.setupCheck c with
    | (.error e, s) => .next (s.setCmd (c.done e))
    | (.ok _, _) => .next (s.withShep c (fun s => s.setupAct c))

/-! Invalidation with drain (Table 11.10). -/

/-- What a SEG_SET, XLT_ROOT or XLT_INVALIDATE covers (R406). -/
def State.invCovers (s : State) (c : Cmd) (ctx : Nat) : Bool :=
  if c.opcode ≠ 0x83 then ctx == c.target
  else match c.fld 50 1 % 8 with
    | 0 => ctx == c.target
    | 1 => ctx == c.target
    | 4 => true
    | _ => s.rf (F.vmid ctx) == c.fld 52 2

/-- The range of XLT_INVALIDATE: its start and its end. -/
def Cmd.invRange (c : Cmd) : Nat × Nat :=
  let st := c.fld 56 8 % 2 ^ 48 / 2 ^ 21 * 2 ^ 21
  (st, st + c.fld 64 4 * 2 ^ 21)

/-- The cached translations that the command removes. -/
def State.invEntry (s : State) (c : Cmd) (t : Tlb) : Bool :=
  s.invCovers c t.ctx &&
    (if c.opcode = 0x83 ∧ c.fld 50 1 % 8 = 1 then decide (t.eva < c.invRange.2) && decide (c.invRange.1 < t.eva + t.size)
    else if c.opcode = 0x83 ∧ c.fld 50 1 % 8 = 3 then decide (t.ipa < c.invRange.2) && decide (c.invRange.1 < t.ipa + t.size)
    else true)

/-- The walk-cache entries that the command removes: an EVA range covers every stage-2 result of its context, an IPA range every stage-1
entry of its contexts. -/
def State.invWalk (s : State) (c : Cmd) (w : WalkEnt) : Bool :=
  s.invCovers c w.ctx &&
    (if c.opcode = 0x83 ∧ c.fld 50 1 % 8 = 1 then w.stage == 1 || (decide (w.input < c.invRange.2) && decide (c.invRange.1 < w.input + w.size))
    else if c.opcode = 0x83 ∧ c.fld 50 1 % 8 = 3 then w.stage == 0 || (decide (w.input < c.invRange.2) && decide (c.invRange.1 < w.input + w.size))
    else true)

/-- Steps 1 and 2 of Table 11.10: the entries go, and the transactions of the covered contexts, also those that wait for
their ports, are awaited; walks in flight for a covered context begin again. -/
def State.startDrain (s : State) (c : Cmd) : State :=
  let l := (s.txns.filter (fun t => !t.inst && s.invCovers c t.ctx)).map (fun t => (t.port, t.id))
  let s := s.tlbDrop (s.invEntry c) (s.invWalk c)
  let s := forN 4 (fun cl s => s.inc (F.clWalks cl) ((s.walkPages cl).filter (fun p => s.invCovers c p.1)).length) s
  let s := s.setCmd { c with acted := true }
  { s with xlt := { s.xlt with drains := s.xlt.drains ++ [⟨c.qn, c.slot, l⟩] },
           waiting := s.waiting.map (fun r => if !r.inst && s.invCovers c r.ctx then { r with drains := r.drains ++ [(c.qn, c.slot)] } else r) }

/-- INVALIDATION_DRAIN_DONE (R407): every awaited transaction has completed; the covered contexts' CBS halves are cleared,
admission goes on (R390) and the command completes. -/
def execInvalidationDrainDone (q : QNum) (s : State) : Host.Outcome State Fault Refusal :=
  match s.cmds.find? (fun c => c.qn == q.val && c.phase == 4 && c.acted
      && (c.opcode == 0x81 || c.opcode == 0x82 || c.opcode == 0x83)) with
  | none => .next s
  | some c =>
    let waits : Bool := s.xlt.drains.any (fun d => d.qn == c.qn && d.slot == c.slot && !d.txns.isEmpty)
      || s.waiting.any (fun r => r.drains.contains (c.qn, c.slot))
    if waits ∨ ¬ s.rb (F.dvRunning 1) then .next s
    else
      let s := s.duty 1
      let s := forN 16 (fun n s => forN 2 (fun h s =>
        if s.rb (F.cbsValid n h) ∧ s.invCovers c (s.rf (F.cbsCtx n h)) then s.wb (F.cbsValid n h) false else s) s) s
      let s := { s with xlt := { s.xlt with drains := s.xlt.drains.filter (fun d => !(d.qn == c.qn && d.slot == c.slot)),
                                            holds := s.xlt.holds.filter (fun h => !(h.2.1 == c.qn && h.2.2 == c.slot)) } }
      .next (s.setCmd (c.done 0x00))

/-- A tile of a context runs on some core. -/
def State.ctxRuns (s : State) (ctx : Nat) : Bool :=
  (List.range 16).any (fun n => match (s.core n).tile with
    | some t => t.ctx == ctx
    | none => false)

/-- Stop admitting tiles of a command's TARGET (step 1 of R390). -/
def State.holdTarget (s : State) (c : Cmd) : State :=
  if s.xlt.holds.contains (c.target, c.qn, c.slot) then s
  else { s with xlt := { s.xlt with holds := s.xlt.holds ++ [(c.target, c.qn, c.slot)] } }

/-- Steps 1 to 4 of R390: admission stops, running tiles end, then the change and the drain. -/
def State.changeXlt (s : State) (c : Cmd) (change : State → State) : State :=
  let s := s.holdTarget c
  if s.ctxRuns c.target then s else (change s).startDrain c

/-! SEG_SET, XLT_ROOT, XLT_INVALIDATE. -/

/-- Entry `n` of a segment image maps beyond 2^48 (R389). -/
def segBad (bs : List Byte) (n : Nat) : Bool :=
  decide (2 ^ 48 < fldOf bs (16 * n) 8 % 2 ^ 48 / 2 ^ 21 * 2 ^ 21 + fldOf bs (16 * n + 8) 4 % 2 ^ 27 * 2 ^ 21)

/-- Write one segment from its image entry (Table 11.3). -/
def State.segWrite (s : State) (ctx n : Nat) (bs : List Byte) : State :=
  ((s.wf (F.segBase ctx n) (fldOf bs (16 * n) 8 % 2 ^ 48 / 2 ^ 21 * 2 ^ 21)).wf (F.segLimit ctx n) (fldOf bs (16 * n + 8) 4)).wf
    (F.segRights ctx n) (fldOf bs (16 * n + 12) 1)

/-- The segments that a mask selects change, unless one would map beyond 2^48 (R389, R390). -/
def State.segChange (s : State) (c : Cmd) (mask : Nat) (bs : List Byte) : State :=
  if (List.range 16).any (fun n => bit mask n && segBad bs n) then s.setCmd (c.done 0x11)
  else s.changeXlt c (fun s => forN 16 (fun n s => if bit mask n then s.segWrite c.target n bs else s) s)

/-- What Drover 1 does for SEG_SET (R389): it checks the command, reads the image and changes the segments. -/
def State.segSetDo (s : State) (c : Cmd) : State :=
  let mask := c.fld 50 2
  if mask = 0 then s.setCmd (c.done 0x01)
  else if 4096 ≤ c.target ∨ s.rf (F.ctxState c.target) = 0 then s.setCmd (c.done 0x11)
  else match s.ctxRead 0 (c.fld 56 8 % 2 ^ 52 / 16 * 16) 256 with
    | (.error e, s) => s.setCmd (c.done e)
    | (.ok bs, s) => s.segChange c mask bs

/-- SEG_SET (R389, R390). -/
def execSegSet (q : QNum) (s : State) : Host.Outcome State Fault Refusal :=
  match s.phase4 q.val 0x81 with
  | none => .next s
  | some c => .next (s.withDuty c 1 (fun s => s.segSetDo c))

/-- XLT_ROOT (R404). -/
def execXltRoot (q : QNum) (s : State) : Host.Outcome State Fault Refusal :=
  match s.phase4 q.val 0x82 with
  | none => .next s
  | some c => .next (s.withDuty c 1 (fun s =>
      if 4096 ≤ c.target ∨ s.rf (F.ctxState c.target) = 0 then s.setCmd (c.done 0x11)
      else s.changeXlt c (fun s =>
        let s := (s.wf (F.xltMode c.target) (c.fld 50 1)).wf (F.vmid c.target) (c.fld 52 2)
        (s.wf (F.s1Root c.target) (c.fld 56 8 / 4096 * 4096)).wf (F.s2Root c.target) (c.fld 64 8 / 4096 * 4096))))

/-- XLT_INVALIDATE (R405 to R407). -/
def execXltInvalidate (q : QNum) (s : State) : Host.Outcome State Fault Refusal :=
  match s.phase4 q.val 0x83 with
  | none => .next s
  | some c => .next (s.withDuty c 1 (fun s =>
      let sc := c.fld 50 1 % 8
      let ranged : Bool := sc == 1 || sc == 3
      if 5 ≤ sc then s.setCmd (c.done 0x11)
      else if 2 ≤ sc ∧ c.ctx ≠ 0 then s.setCmd (c.done 0x13)
      else if sc < 2 ∧ 4096 ≤ c.target then s.setCmd (c.done 0x11)
      else if ranged ∧ c.fld 64 4 = 0 then s.setCmd (c.done 0x01)
      else if ranged ∧ 2 ^ 48 < c.invRange.2 then s.setCmd (c.done 0x11)
      else s.startDrain c))

/-! Fault reports (R410, Table 11.11 step 4). -/

/-- The WEIGHT_HINTs of a queue that have probed their range end once none of their reports waits (R145). -/
def State.hintEnds (s : State) (q : Nat) : State :=
  let waits (c : Cmd) : Bool := s.xlt.reports.any (fun r => r.hint && r.qn == c.qn && r.slot == c.slot)
  { s with cmds := s.cmds.map (fun c => if c.qn = q ∧ c.opcode = 2 ∧ c.phase = 4 ∧ c.acted ∧ ¬ waits c then c.done c.status else c) }

/-- FAULT_REPORT_POST (R410): Drover 1 posts the oldest waiting report when the ring has room; while EN is 0
reports wait as when the ring is full (R415). -/
def execFaultReportPost (s : State) : Host.Outcome State Fault Refusal :=
  match s.xlt.reports with
  | [] => .next s
  | r :: rest =>
    if !s.isReady ∨ !s.rb (F.dvRunning 1) then .next s
    else if !s.fltRoom then .next ((s.wb F.fltFull true).raise pgXlt 1)
    else
      let n := s.rf F.fltTail
      let log2 := s.rf F.fltLog2
      let s := (s.duty 1).instPut 1 (s.rf F.fltBase + 32 * (n % 2 ^ log2)) (r.bytes (recPhase n log2)) true false
      let s := (s.inc F.fltTail 1).inc F.xltReports 1
      let s := (s.incSat (F.faults r.ctx) 1).xltErr r.ctx r.kind r.stage r.eva
      let s : State := { s with xlt := { s.xlt with reports := rest } }
      let s := if rest.isEmpty then s.wb F.fltFull false else s
      let s := s.raise pgXlt 0
      .next (if r.hint then s.hintEnds r.qn else s)

/-! CTX_RESUME (R411, R412) and parked commands (R370, R332). -/

/-- With FAIL, a command that holds a faulted tile completes by R297; the other commands lose their fault. -/
def resumeCmd (ctx : Nat) (fail : Bool) (c : Cmd) : Cmd :=
  if c.ctx ≠ ctx then c
  else match c.faulted with
    | none => c
    | some v => if fail then { (c.fail (faultStatus v.kind) v.index) with phase := 5, acted := true, parked := false, faulted := none }
      else { c with faulted := none }

/-- The faults of a context that FAIL makes final. -/
def State.failedFaults (s : State) (ctx : Nat) (fail : Bool) : List TileFault :=
  if fail then (s.cmds.filter (fun c => c.ctx == ctx)).filterMap (fun c => c.faulted) else []

/-- CTX_RESUME (R411, R412). -/
def execCtxResume (q : QNum) (s : State) : Host.Outcome State Fault Refusal :=
  match s.phase4 q.val 0x40 with
  | none => .next s
  | some c =>
    let t := c.target
    if 4096 ≤ t then .next (s.setCmd (c.done 0x11))
    else if s.rf (F.ctxState t) ≠ 2 then .next (s.setCmd (c.done 0x01))
    else if s.ctxRuns t then .next s
    else
      let s := forL (s.failedFaults t (c.flag 50 0)) (fun v s => s.xltErr t v.kind v.stage v.eva) s
      let s := { s with cmds := s.cmds.map (resumeCmd t (c.flag 50 0)),
                        xlt := { s.xlt with reported := s.xlt.reported.filter (fun r => !(r.ctx == t)) } }
      .next (((s.wf (F.ctxState t) 1).wf (F.faults t) 0).setCmd (c.done 0x00))

/-- The fields of entry `e` of a save record (Table 10.5). -/
def saveFld (bs : List Byte) (e o n : Nat) : Nat := fldOf bs (16 + 16 * e + o) n

/-- An entry names a slot from HEAD up and below TAIL, with that slot's SEQ (R370). -/
def State.entryOk (s : State) (q : Nat) (bs : List Byte) (e : Nat) : Bool :=
  let p := saveFld bs e 4 4
  decide (sub32 p (s.rf (F.qHead q)) < sub32 (s.rf (F.qTail q)) (s.rf (F.qHead q))) && saveFld bs e 0 2 == p % 2 ^ 16

/-- The record of a queue's parked commands, if it passes the checks of R370. -/
def State.saveRecord (s : State) (q : Nat) : Option (List Byte) :=
  match s.readHpa 0 (s.rf F.grzSaveBase + 64 * q) 64 with
  | none => none
  | some bs =>
    if fldOf bs 0 2 % 2 ^ 15 = q ∧ (List.range (fldOf bs 2 1 % 4)).all (s.entryOk q bs) then some bs else none

/-- The tests of a critical command that is read again (R332): its tag and TALLY_COPY, and a tally equal to the last accepted one. -/
def State.retest (s : State) (q : Nat) (bs : List Byte) : Except Nat (List Byte) :=
  if opCritical (fldOf bs 0 1) then
    let t := fldOf bs 240 8
    if !s.tagOk q bs ∨ fldOf bs 40 8 ≠ t then .error 0x14
    else if t ≠ s.rf (F.tally (q / 8)) then .error 0x15 else .ok bs
  else .ok bs

/-- Read a pending command's slots again (R332): its bytes, or the status. -/
def State.reread (s : State) (c : Cmd) : Except Nat (List Byte) × State :=
  match s.readSlot c.qn c.slot with
  | (.error e, s) => (.error e, s)
  | (.ok b0, s) =>
    if slotSeq b0 ≠ c.slot % 2 ^ 16 then (.error 0x40, s)
    else if c.len < 2 then (.ok b0, s)
    else match s.readSlot c.qn ((c.slot + 1) % 2 ^ 32) with
      | (.error e, s) => (.error e, s)
      | (.ok b1, s) => if slotSeq b1 ≠ (c.slot + 1) % 2 ^ 16 then (.error 0x40, s) else (s.retest c.qn (b0 ++ b1), s)

/-- End a command that cannot resume; its queue halts after the record. -/
def Cmd.cannotResume (c : Cmd) (st : Nat) : Cmd := { (c.done st) with parked := false, halts := true, detail := 0xFFFFFFFF }

/-- Resume one parked command of a queue from its record's entry, if any. -/
def State.resumeOne (s : State) (bs : List Byte) (c : Cmd) : State :=
  match (List.range (fldOf bs 2 1 % 4)).find? (fun e => saveFld bs e 4 4 == c.slot) with
  | none => s.setCmd { c with parked := false, next := c.resumePoint }
  | some e =>
    match s.reread c with
    | (.error st, s) => s.setCmd (c.cannotResume st)
    | (.ok b, s) => s.setCmd { c with bytes := b, parked := false, next := saveFld bs e 8 4 }

/-- The context of a queue may run tiles: ACTIVE, in a partition, not held by SEG_SET or XLT_ROOT, and not a CONFIDENTIAL one
in ERROR (Table 14.4). -/
def State.ctxMayRun (s : State) (ctx : Nat) : Bool :=
  s.isReady && s.rf (F.ctxState ctx) == 1 && s.rb (F.inPart ctx) && !s.xlt.holds.any (fun h => h.1 == ctx)
    && !(s.rf F.trust == 3 && s.rb (F.confid ctx))

/-! Partitions (R358, Table 10.2). -/

/-- The contexts in a partition that are not FREE. -/
def State.inPartition (s : State) (p : Nat) : Bool :=
  s.liveCtxs.any (fun c => s.rf (F.ctxState c) != 0 && s.rb (F.inPart c) && s.rf (F.ctxPart c) == p)

/-- The owner bytes of slot `sl` of a buffer. -/
def State.owners (s : State) (b sl : Nat) : List Nat :=
  (List.range 16).map (fun n => bits (s.rf (F.grzWord b sl ((4 + n) / 8))) ((4 + n) % 8 * 8) 8)

/-- Slots in a buffer. -/
def State.slotsOf (s : State) (b : Nat) : Nat := if b = 0 then s.grz.slots0 else s.grz.slots1

/-- A buffer names a partition in an entry without NONE. -/
def State.names (s : State) (b p : Nat) : Bool :=
  (List.range (s.slotsOf b)).any (fun sl => (s.owners b sl).any (fun o => !bit o 7 && o % 64 == p))

/-- A buffer in use names a partition. -/
def State.named (s : State) (p : Nat) : Bool :=
  (s.rb F.grzEn && s.names (s.rf F.grzActive) p) || (s.rb F.grzPending && s.names (1 - s.rf F.grzActive) p)

/-- The sum of a minimum over the valid partitions, `p` with its new record. -/
def State.sumMin (s : State) (p : Nat) (valid : Bool) (v : Nat) (f : Nat → Fld) : Nat :=
  (List.range 64).foldl (fun a k => a + (if k = p then (if valid then v else 0) else if s.rb (F.pValid k) then s.rf (f k) else 0)) 0

/-- The least CSB pool of the four clusters. -/
def State.leastCsb (s : State) : Nat := (List.range 4).foldl (fun a c => min a (64 - s.rf (F.csbInlet c))) 64

/-- The new minima exceed a pool. -/
def State.minsBad (s : State) (c : Cmd) : Bool :=
  let p := c.fld 51 1 % 64
  let v := c.flag 52 3
  decide (8192 < s.sumMin p v (c.fld 56 2 % 2 ^ 14) F.pMinReads) || decide (4096 < s.sumMin p v (c.fld 58 2 % 2 ^ 13) F.pMinKv)
    || decide (s.leastCsb < s.sumMin p v (c.fld 60 1 % 128) F.pMinCsb) || decide (256 < s.sumMin p v (c.fld 61 1) F.pMinXlt)
    || decide (256 < s.sumMin p v (c.fld 62 1) F.pMinDir)

/-- The checks of Table 10.2 in order. -/
def State.partBad (s : State) (c : Cmd) : Bool :=
  let p := c.fld 51 1 % 64
  let conf := c.flag 50 0
  let asg := c.flag 50 1
  let k := c.fld 55 1 % 32
  let validAfter := if conf then c.flag 52 3 else s.rb (F.pValid p)
  (asg && (decide (4096 ≤ c.target) || s.rf (F.ctxState c.target) == 0 || decide (k < 4) || decide (20 < k)
      || decide (64 < c.fld 54 1 % 128) || s.otherPending c.target c || !validAfter))
    || (conf && !c.flag 52 3 && (s.inPartition p || s.named p)) || (conf && s.minsBad c)

/-- Write a partition's record. -/
def State.partWrite (s : State) (c : Cmd) : State :=
  let p := c.fld 51 1 % 64
  let s := ((s.wf (F.pClass p) (c.fld 52 1)).wb (F.pBorrow p) (c.flag 52 2)).wb (F.pValid p) (c.flag 52 3)
  let s := ((s.wf (F.pMinCsb p) (c.fld 60 1)).wf (F.pMinXlt p) (c.fld 61 1)).wf (F.pMinDir p) (c.fld 62 1)
  (s.wf (F.pMinReads p) (c.fld 56 2)).wf (F.pMinKv p) (c.fld 58 2)

/-- Place a context: its windows are unbound (R359) and a SLOWDOWN window begins (R380). -/
def State.assign (s : State) (c : Cmd) : State :=
  let t := c.target
  let s := ((s.wf (F.ctxPart t) (c.fld 51 1)).wb (F.inPart t) true).wf (F.prio t) (c.fld 53 1)
  let s := (s.wf (F.csbGran t) (c.fld 54 1)).wf (F.slowK t) (c.fld 55 1)
  (forN 4 (fun cl s => s.unbindCsb t cl) s).setSlow t ⟨0, 0, s.now⟩

/-- PARTITION_SET (R358, R359). -/
def execPartitionSet (q : QNum) (s : State) : Host.Outcome State Fault Refusal :=
  match s.phase4 q.val 0x87 with
  | none => .next s
  | some c =>
    if ¬ c.flag 50 0 ∧ ¬ c.flag 50 1 then .next (s.setCmd (c.done 0x01))
    else if s.partBad c then .next (s.setCmd (c.done 0x11))
    else
      let s := if c.flag 50 0 then s.partWrite c else s
      let s := if c.flag 50 1 then s.assign c else s
      .next (s.setCmd (c.done 0x00))

/-! The Grazing Table (R364, R365). -/

/-- A slot entry of an image as the window shows it: reserved bytes read zero (Table 10.3). -/
def slotBytesOf (bs : List Byte) (i : Nat) : List Byte :=
  let e := (bs.drop (32 * i)).take 32
  e.take 2 ++ [0, 0] ++ (e.drop 4).take 16 ++ List.replicate 12 0

/-- Copy an image into a buffer. -/
def State.fillBuffer (s : State) (b n : Nat) (bs : List Byte) : State :=
  let s := forN n (fun i s => forN 4 (fun w s => s.wf (F.grzWord b i w) (fldOf (slotBytesOf bs i) (8 * w) 8)) s) s
  if b = 0 then { s with grz := { s.grz with slots0 := n } } else { s with grz := { s.grz with slots1 := n } }

/-- Enter a slot of the active buffer. -/
def State.enterSlot (s : State) (i : Nat) : State :=
  let d := bits (s.rf (F.grzWord (s.rf F.grzActive) i 0)) 0 16
  { (s.wf F.grzSlot i).wf F.grzLeft d with grz := { s.grz with count := 0 } }

/-- Make a buffer active at its slot 0. -/
def State.switchTo (s : State) (b : Nat) : State :=
  let s := ((s.wf F.grzActive b).wb F.grz256 (s.slotsOf b == 256)).wb F.grzPending false
  (s.enterSlot 0).raise pgGrz 1

/-- The checks of R364 that the image must pass: 0, or the status. -/
def State.imageBad (s : State) (n : Nat) (bs : List Byte) : Nat :=
  let ds := (List.range n).map (fun i => fldOf bs (32 * i) 2)
  if ds.any (fun d => d == 0) then 0x10
  else if (List.range n).any (fun i => (List.range 16).any (fun k =>
      let o := fldOf bs (32 * i + 4 + k) 1
      !bit o 7 && !s.rb (F.pValid (o % 64)))) then 0x11
  else if 1048576 < ds.sum then 0x11 else 0

/-- GRAZE_UPDATE (R364, R365), DISABLE clear. -/
def execGrazeUpdate (q : QNum) (s : State) : Host.Outcome State Fault Refusal :=
  match s.phase4 q.val 0x86 with
  | none => .next s
  | some c =>
    let n := c.fld 64 2
    if c.flag 66 0 then .next s
    else if c.target ≠ 0 then .next (s.setCmd (c.done 0x11))
    else if n = 0 then .next (s.setCmd (c.done 0x10))
    else if 256 < n then .next (s.setCmd (c.done 0x11))
    else match s.ctxRead 0 (c.fld 56 8 % 2 ^ 52 / 32 * 32) (32 * n) with
      | (.error e, s) => .next (s.setCmd (c.done e))
      | (.ok bs, s) =>
        match s.imageBad n bs with
        | 0 =>
          let b := 1 - s.rf F.grzActive
          let s := s.fillBuffer b n bs
          if s.rb F.grzEn then
            .next (((State.wb { s with grz := { s.grz with pend := some (c.qn, false) } } F.grzPending true)).setCmd { c with acted := true })
          else
            .next ((((s.wb F.grzEn true).wf F.grzCycles 0).switchTo b).setCmd (c.done 0x00)).boundaries
        | st => .next (s.setCmd (c.done st))

/-- GRAZE_DISABLE (R365): GRAZE_UPDATE with DISABLE set. -/
def execGrazeDisable (q : QNum) (s : State) : Host.Outcome State Fault Refusal :=
  match s.phase4 q.val 0x86 with
  | none => .next s
  | some c =>
    if ¬ c.flag 66 0 then .next s
    else if c.target ≠ 0 then .next (s.setCmd (c.done 0x11))
    else if s.rb F.grzEn then
      .next (State.setCmd { s with grz := { s.grz with pend := some (c.qn, true) } } { c with acted := true })
    else .next (s.setCmd (c.done 0x00))

/-- The end of a cycle: a pending image switches in, a pending disable clears EN, else slot 0 begins again (R361, R365). -/
def State.cycleEnd (s : State) : State :=
  let s := s.inc F.grzCycles 1
  match s.grz.pend with
  | some (_, false) =>
    let s := { s with grz := { s.grz with pend := none } }
    (s.switchTo (1 - s.rf F.grzActive)).finishWaiting 0x86 0x00 (fun c => !c.flag 66 0)
  | some (_, true) =>
    let s := { s with grz := { s.grz with pend := none, count := 0 } }
    (s.wb F.grzEn false).finishWaiting 0x86 0x00 (fun c => c.flag 66 0)
  | none => s.enterSlot 0

/-- GRAZING_SLOT_END (R361): the slot timer has reached DURATION; cores take their new owners at their boundaries. -/
def execGrazingSlotEnd (s : State) : Host.Outcome State Fault Refusal :=
  let d := bits (s.rf (F.grzWord (s.rf F.grzActive) (s.rf F.grzSlot) 0)) 0 16
  if ¬ s.isReady ∨ ¬ s.rb F.grzEn ∨ s.grz.count < d then .next s
  else
    let i := s.rf F.grzSlot + 1
    if i < s.slotsOf (s.rf F.grzActive) then .next (s.enterSlot i).boundaries else .next (s.cycleEnd).boundaries

/-! SLOWDOWN (R380). -/

/-- The ratio of stalled to active beats in unsigned 4.12, saturating. -/
def slowRatio (w : Slow) : Nat :=
  if w.stalled = 0 then 0 else if w.active = 0 then 0xFFFF else min 0xFFFF (w.stalled * 4096 / w.active)

/-- SLOWDOWN_WINDOW_CLOSE (R380): the EPOCH counter is at a multiple of 2^k of the context. -/
def execSlowdownWindowClose (ctx : CtxId) (s : State) : Host.Outcome State Fault Refusal :=
  let c := ctx.val
  let k := s.rf (F.slowK c)
  if s.isReady ∧ s.rf (F.ctxState c) ≠ 0 ∧ s.now % 2 ^ k = 0 ∧ (s.slowOf c).since ≠ s.now then
    .next (((s.wf (F.slowVal c) (slowRatio (s.slowOf c))).wf (F.slowWin c) k).setSlow c ⟨0, 0, s.now⟩)
  else .next s

end Sys2Proof.Machine
end

