-- ==== Sys2Proof/Machine/FwOps.lean ====
section
/-! DEFINITION. The firmware's shared operations: live updates, the mailbox, SPDM, and the host's liveness
(15_drover_and_shepherd_firmware.md, 14_trust_keys_and_tenants.md R492 to R494, 16_sheepdogs_resets_recovery.md R556 to R559). -/

namespace Sys2Proof.Machine

/-! The host's liveness (R556 to R559). -/

/-- A heartbeat; ignored while the host is lost. -/
def State.hostBeat (s : State) : State := if s.isReady ∧ s.rf F.hostState = 0 then s.startT .hostBeat else s

/-- Send one message for each pending vector, in ascending order, and clear the pending bits (R559). -/
def State.sendHeld (s : State) : State :=
  let held := s.rf F.irqHeld
  (forN 64 (fun v s => if bit held v then s.sendVec v else s) s).wf F.irqHeld 0

/-- A 64-bit write of ATTACH. -/
def State.attach (s : State) (token : Nat) : State :=
  if !s.isReady then s
  else if token ≠ s.rf F.attachToken then s.incSat F.badTokens 1
  else if s.rf F.hostState = 1 ∨ s.rf F.hostState = 3 then
    let was := s.rf F.hostState
    let s := (s.freshAttach).wf F.badTokens 0
    let s := (s.sendHeld).raise 0 4
    if was = 3 then (((s.supersede).wf F.holdState 0).unquiesceAll 1).boundaries else s
  else s

/-- A write of ATTACH_FRESH.GO. -/
def State.attachFresh (s : State) : State :=
  if s.isReady then (if s.newest.isSome then s.supersede else s).instanceReset 9 true else s

/-! Updates (R526 to R531). -/

/-- The checks of R526 that need no image: 0, or the status. -/
def Cmd.fwCheck (c : Cmd) : Nat :=
  let n := c.fld 64 4
  if c.target ≠ 0 ∨ c.fld 50 1 % 4 = 0 ∨ c.fld 50 1 % 4 = 3 then 0x11
  else if n = 0 then 0x10
  else if 524288 < n then 0x11
  else 0

/-- The image of a FW_STAGE that passes the checks of R526, or the status of the check that fails; a refusal by the last check
is logged. -/
def State.fwImage (s : State) (c : Cmd) : Except Nat (List Byte) × State :=
  let type := c.fld 50 1 % 4
  let n := c.fld 64 4
  if c.fwCheck ≠ 0 then (.error c.fwCheck, s)
  else match s.ctxRead 0 (c.fld 56 8 % 2 ^ 52 / 4096 * 4096) n with
    | (.error e, s) => (.error e, s)
    | (.ok bs, s) =>
      let floor := if type = 1 then Config.svnShepFloor else Config.svnDroverFloor
      let running := if type = 1 then s.shep.svnShep else s.rf (F.dvSvn 0)
      if checkImage bs type floor ≠ 0 ∨ n ≠ 512 + fldOf bs 8 4 ∨ imageSvn bs < running then
        (.error 0x11, s.logEv 4 0x11 0 c.qn (imageSvn bs))
      else (.ok bs, s)

/-- A firmware update has completed: log it, and change trust unless its digest was permitted (Table 14.4, Table 15.6). -/
def State.updateDone (s : State) (u : Update) : State :=
  let s := (s.logEv 3 0 0 0 u.svn).modCmd u.qn u.slot (fun c => c.done 0x00)
  let s := { s with shep := { s.shep with update := none } }
  if s.rf F.trust = 1 ∨ s.rf F.trust = 2 then
    if s.shep.permit = some u.digest then ({ s with shep := { s.shep with permit := none } }).wb F.permit false
    else (s.setTrust 3).wf F.trustCause 1
  else s

/-- Halt a Drover for its planned restart on the image of a slot (R527). -/
def State.droverPlan (s : State) (n : Nat) (b : Bool) : State :=
  ((s.wb (F.dvRunning n) false).wb (F.dvRestarting n) true).setDrover n { s.drover n with dog := 0, slotB := b, restart := s.now }

/-- The next step of a Drover update when Drover `n` has reached step 5 of Table 15.2 (R527). -/
def State.updateStep (s : State) (n : Nat) : State :=
  match s.shep.update with
  | none => s
  | some u =>
    if u.shepherd ∨ u.step ≠ n then s
    else
      let s := if n = 3 then ({ s with shep := { s.shep with svnDrover := u.svn } }).setMeas 3 (u.digest * 2 ^ 32 + u.svn) else s
      if n = 0 then s.updateDone u
      else
        let s := { s with shep := { s.shep with update := some { u with step := n - 1 } } }
        s.droverPlan (n - 1) (s.drover n).slotB

/-- Begin a Drover update (R527): the checked image goes into the slot that no Drover runs, and Drover 3 restarts first. -/
def State.droverUpdate (s : State) (c : Cmd) (bs : List Byte) : State :=
  let b := !s.rb (F.dvSlot 0)
  let img := (imageSvn bs, imageDigest bs)
  let u : Update := { qn := c.qn, slot := c.slot, shepherd := false, svn := img.1, digest := img.2, step := 3 }
  let s := { s with shep := (if b then { s.shep with slotB := some img, update := some u }
    else { s.shep with slotA := some img, update := some u }) }
  (s.setCmd { c with acted := true }).droverPlan 3 b

/-- Steps 1 and 2 of Table 15.4: once the mailbox request in progress has completed, the old image stops. -/
def State.shepPause (s : State) : State :=
  match s.shep.update with
  | none => s
  | some u =>
    if u.shepherd ∧ u.step = 1 ∧ ¬ s.rb F.mbBusy then
      (({ s with shep := { s.shep with update := some { u with step := 2 }, sessions := [] } }.wf F.sessions 0).wb F.mbPaused true).discardFrames
    else s

/-- Begin a Shepherd update (R529): every SPDM session ends. -/
def State.shepUpdate (s : State) (c : Cmd) (bs : List Byte) : State :=
  let u : Update := { qn := c.qn, slot := c.slot, shepherd := true, svn := imageSvn bs, digest := imageDigest bs, step := 1 }
  let s := { s with shep := { s.shep with update := some u, sessions := [] } }
  ((s.wf F.sessions 0).setCmd { c with acted := true }).shepPause

/-- Steps 3 and 4 of Table 15.4: the new image records measurement 2 and resumes from P00. -/
def State.shepResume (s : State) (u : Update) : State :=
  let s := s.setMeas 2 (u.digest * 2 ^ 32 + u.svn)
  let s := { s with shep := { s.shep with svnShep := u.svn }, boot := { s.boot with shepDog := 0 } }
  ((s.wb F.mbPaused false).raise pgShm 8).logWaiting.updateDone u

/-- What the Shepherd does for a FW_STAGE. -/
def State.fwAct (s : State) (c : Cmd) : State :=
  match s.fwImage c with
  | (.error e, s) => s.setCmd (c.done e)
  | (.ok bs, s) => if c.fld 50 1 % 4 = 1 then s.shepUpdate c bs else s.droverUpdate c bs

/-! The mailbox (R532 to R536). -/

/-- A write of SHM_MB_CMD with GO (R532, R534). -/
def State.mbGo (s : State) (op tag : Nat) : State :=
  if s.rb F.mbBusy ∨ s.rb F.mbPaused then s.raise pgShm 5
  else
    let r : MbReq := { op := op, tag := tag, len := s.rf F.mbLen, buf := s.rf F.mbBuf, arg := s.rf F.mbArg, answer := none }
    (({ s with shep := { s.shep with mb := some r } }).wb F.mbBusy true).wb F.mbDone false

/-- The Shepherd's image runs and serves. -/
def State.shepServes (s : State) : Bool :=
  s.shepUp && (s.boot.phase == .loaded || s.boot.phase == .ready) && s.rf F.holdState == 0

/-- The bytes of a log entry (Table 15.6). -/
def LogEntry.bytes (e : LogEntry) : List Byte :=
  natLe 8 e.number ++ natLe 8 e.epoch ++ natLe 1 e.code ++ natLe 1 e.a ++ natLe 2 e.b ++ natLe 2 e.c ++ natLe 2 0 ++ natLe 8 e.d

/-- A digest measurement as 48 bytes, without its SVN. -/
def State.measDigest (s : State) (i : Nat) : List Byte := ofNats (natB 48 (tblGet 0 s.shep.meas i / 2 ^ 32))

/-- A mailbox request's result and response (Table 15.5); none while an SPDM request has no answer yet. -/
def State.mbAnswer (s : State) (r : MbReq) : Option (Nat × List Byte) :=
  if r.op = 1 then
    some (0, natLe 4 (s.reg 0x1104).toNat ++ natLe 4 s.shep.svnShep ++ natLe 4 s.shep.svnDrover ++ natLe 4 0 ++ s.measDigest 2
      ++ s.measDigest 3)
  else if r.op = 2 then
    let n := bits r.arg 32 16
    if n = 0 ∨ 2048 < n then some (2, [])
    else
      let l := s.hsa.log.dropWhile (fun e => decide (e.number < r.arg % 2 ^ 32))
      some (0, (l.take n).flatMap LogEntry.bytes)
  else if r.op = 3 then
    if r.len < 4 ∨ 4096 < r.len then some (2, [])
    else match s.readHpa 1 r.buf r.len with
      | none => some (3, [])
      | some _ => r.answer.map (fun b => (0, b))
  else if r.op = 4 then
    some (0, match s.shep.update with
      | none => List.replicate 16 0
      | some u => natLe 4 (if u.shepherd then u.step else 3) ++ natLe 4 (if u.shepherd then 1 else 2)
          ++ natLe 4 (if u.shepherd then 0 else u.step) ++ natLe 4 u.svn)
  else some (1, [])

/-- The Shepherd has read an SPDM request from the buffer (R533). -/
def State.mbTook (s : State) (r : MbReq) : State := if r.op = 3 ∧ 4 ≤ r.len ∧ r.len ≤ 4096 then s.tookShep r.buf r.len else s

/-- Complete the mailbox request (R532). -/
def State.mbDone (s : State) (r : MbReq) (result : Nat) (rsp : List Byte) : State :=
  let rsp := rsp.take 65536
  let s := (s.mbTook r).instPut 1 r.buf rsp false true
  let s := { s with shep := { s.shep with mb := none } }
  let s := (((s.wb F.mbDone true).wf F.mbResult result).wf F.mbRlen rsp.length).wf F.mbTag r.tag
  ((s.wb F.mbBusy false).raise pgShm 4).shepPause

/-! SPDM (R492 to R494, Tables 14.5 to 14.7). Message layouts are those of DMTF SPDM 1.3, which the spec names and does not
give: a response's bytes are `Config.spdmBytes` of its code and its fields. -/

/-- The mailbox's SPDM request, when it waits for its answer. -/
def State.spdmReq (s : State) : Option MbReq :=
  match s.shep.mb with
  | some r => if s.shepServes ∧ r.op = 3 ∧ r.answer = none ∧ 4 ≤ r.len ∧ r.len ≤ 4096 ∧ (s.readHpa 1 r.buf r.len).isSome then some r else none
  | none => none

/-- Answer the waiting SPDM request with a response code and its fields. -/
def State.spdmSay (s : State) (r : MbReq) (code : Nat) (fields : List Nat) : State :=
  { s with shep := { s.shep with mb := some { r with answer := some (ofNats (Config.spdmBytes code fields)) } } }

/-- ERROR with an error code of SPDM 1.3. -/
def State.spdmError (s : State) (r : MbReq) (err : Nat) : State := s.spdmSay r 0x7F [err]

/-- The raw value of a measurement (Table 14.7). -/
def State.measValue (s : State) (i : Nat) : Nat :=
  if i = 4 then bNat (sha384 (Config.fieldBytes
    [Config.lifecycle, Config.svnShepFloor, Config.svnDroverFloor, Config.imgKeyHash, Config.caRootHash]))
  else if i = 5 then (if s.rf F.trust = 0 then 0 else s.shep.lockDigest)
  else if i = 6 then s.rf F.trust + 256 * s.rf F.wkSrc
  else tblGet 0 s.shep.meas i

/-- A signature of the alias key over a digest of fields; the alias key follows measurement 2 (R493). -/
def State.signed (s : State) (fields : List Nat) : Nat :=
  Config.aliasSign (s.measValue 2) (bNat (sha384 (Config.fieldBytes fields)))

/-- The first session that a host requester completes while the state is UNLOCKED makes the wrapping key SESSION (R499). -/
def State.sessionKey (s : State) (secret : Nat) : State :=
  if s.rf F.trust = 0 ∧ s.rf F.wkSrc = 0 then
    (s.setWk 2 (bNat ((hkdfExpand (natB 48 secret) (ascii "broxa wrap") 1 1 []).take 32))).newKey0
  else s

end Sys2Proof.Machine
end

