-- ==== Sys2Proof/Machine/Firmware.lean ====
section
/-! DEFINITION. The commands of the firmware: FW_STAGE, the mailbox and the SPDM requests that it carries
(15_drover_and_shepherd_firmware.md, 14_trust_keys_and_tenants.md). -/

namespace Sys2Proof.Machine

/-! FW_STAGE (R526, R527, R529). -/

/-- The FW_STAGE of a queue that is in phase 4, as a Shepherd update or as any other. -/
def State.fwStage (s : State) (q : Nat) (shepherd : Bool) : Option Cmd :=
  match s.phase4 q 0x89 with
  | none => none
  | some c => if decide (c.fld 50 1 % 4 = 1) = shepherd then some c else none

/-- FW_STAGE_DROVER (R527): TYPE is not 1. -/
def execFwStageDrover (q : QNum) (s : State) : Host.Outcome State Fault Refusal :=
  match s.fwStage q.val false with
  | none => .next s
  | some c => .next (s.shepCmd c c.fwCheck (fun s => s.fwAct c))

/-- FW_STAGE_SHEPHERD (R529): TYPE is 1. -/
def execFwStageShepherd (q : QNum) (s : State) : Host.Outcome State Fault Refusal :=
  match s.fwStage q.val true with
  | none => .next s
  | some c => .next (s.shepCmd c c.fwCheck (fun s => s.fwAct c))

/-- SHEPHERD_UPDATE_RESUME (R529, R531): the new image resumes from P00's state, and the command completes. While the hold-up
save or its wait runs, the update waits for the resume. -/
def execShepherdUpdateResume (s : State) : Host.Outcome State Fault Refusal :=
  match s.shep.update with
  | none => .next s
  | some u =>
    if u.shepherd ∧ u.step = 2 ∧ s.rf F.holdState = 0 then .next (s.shepResume u).taResume else .next s

/-! The mailbox (R532 to R536): GO with each OP of Table 15.5. -/

/-- A GO write reaches the Shepherd while POR_N is released. -/
def State.mbWrite (s : State) (op tag : Nat) : State := if s.pins.porN then s.mbGo op tag else s

/-- MB_INFO (R535). -/
def execMbInfo (tag : Byte) (s : State) : Host.Outcome State Fault Refusal := .next (s.mbWrite 1 tag.toNat)

/-- MB_LOG_READ (R535, R536). -/
def execMbLogRead (tag : Byte) (s : State) : Host.Outcome State Fault Refusal := .next (s.mbWrite 2 tag.toNat)

/-- MB_SPDM (R535). -/
def execMbSpdm (tag : Byte) (s : State) : Host.Outcome State Fault Refusal := .next (s.mbWrite 3 tag.toNat)

/-- MB_STAGE (R535). -/
def execMbStage (tag : Byte) (s : State) : Host.Outcome State Fault Refusal := .next (s.mbWrite 4 tag.toNat)

/-- MB_REQUEST_DONE (R532): the Shepherd writes the response of the request in service. -/
def execMbRequestDone (s : State) : Host.Outcome State Fault Refusal :=
  match s.shep.mb with
  | none => .next s
  | some r =>
    if !s.shepServes then .next s
    else match s.mbAnswer r with
      | none => .next s
      | some (res, rsp) => .next (s.mbDone r res rsp)

/-! SPDM (R492 to R494). A row is the Shepherd's service of that request from the mailbox; it carries the request's fields. -/

/-- Answer the waiting request, if one waits. -/
def State.spdm (s : State) (f : MbReq → State) : State :=
  match s.spdmReq with
  | none => s
  | some r => f r

/-- GET_VERSION: version 1.3 only. -/
def execGetVersion (s : State) : Host.Outcome State Fault Refusal := .next (s.spdm (fun r => s.spdmSay r 0x04 [0x13]))

/-- The capabilities of Table 14.5 as the flags of SPDM 1.3 (PRESUMED positions): CERT, CHAL, MEAS with signature, MEAS_FRESH,
ENCRYPT, MAC, KEY_EX. -/
def spdmCaps : Nat := 0x02 + 0x04 + 0x10 + 0x20 + 0x40 + 0x80 + 0x200

/-- GET_CAPABILITIES. -/
def execGetCapabilities (s : State) : Host.Outcome State Fault Refusal := .next (s.spdm (fun r => s.spdmSay r 0x61 [spdmCaps]))

/-- NEGOTIATE_ALGORITHMS: the one selection of Table 14.5, or ERROR when the request excludes a part of it. -/
def execNegotiateAlgorithms (offersAll : Bool) (s : State) : Host.Outcome State Fault Refusal :=
  .next (s.spdm (fun r => if offersAll then s.spdmSay r 0x63 [0x80, 0x02, 0x10, 0x02, 0x01] else s.spdmError r 0x01))

/-- The certificate chain now (R493). -/
def State.certs (s : State) : List Nat := Config.certChain (s.measValue 2)

/-- GET_DIGESTS: certificate slot 0 only. -/
def execGetDigests (s : State) : Host.Outcome State Fault Refusal :=
  .next (s.spdm (fun r => s.spdmSay r 0x01 [1, bNat (sha384 s.certs)]))

/-- GET_CERTIFICATE: a part of the chain of slot 0. -/
def execGetCertificate (slot : BitVec 4) (off len : BitVec 16) (s : State) : Host.Outcome State Fault Refusal :=
  .next (s.spdm (fun r =>
    if slot ≠ 0 ∨ s.certs.length ≤ off.toNat then s.spdmError r 0x01
    else
      let part := (s.certs.drop off.toNat).take len.toNat
      s.spdmSay r 0x02 ([part.length, s.certs.length - off.toNat - part.length] ++ part)))

/-- The digest of all measurements, which CHALLENGE summarises. -/
def State.measSummary (s : State) : Nat := bNat (sha384 (Config.fieldBytes ((List.range 6).map (fun i => s.measValue (i + 1)))))

/-- CHALLENGE: signed by the alias key, with the measurement summary. -/
def execChallenge (slot : BitVec 4) (nonce : BitVec 256) (s : State) : Host.Outcome State Fault Refusal :=
  .next (s.spdm (fun r =>
    if slot ≠ 0 then s.spdmError r 0x01
    else
      let (d, s) := s.takeDrbg
      let fs := [0x83, nonce.toNat, d % 2 ^ 256, bNat (sha384 s.certs), s.measSummary]
      s.spdmSay r 0x03 (fs ++ [s.signed fs])))

/-- GET_MEASUREMENTS (R494): an index of Table 14.7, all of them with 0xFF, or their number with 0; signed when asked. -/
def execGetMeasurements (index : Byte) (sign : Bool) (nonce : BitVec 256) (s : State) : Host.Outcome State Fault Refusal :=
  .next (s.spdm (fun r =>
    let i := index.toNat
    if i ≠ 0 ∧ i ≠ 0xFF ∧ 6 < i then s.spdmError r 0x01
    else
      let l := if i = 0 then [] else if i = 0xFF then (List.range 6).map (fun k => s.measValue (k + 1)) else [s.measValue i]
      let fs := [0xE0, (if i = 0 then 6 else l.length)] ++ l
      if sign then
        let (d, s) := s.takeDrbg
        let fs := fs ++ [nonce.toNat, d % 2 ^ 256]
        s.spdmSay r 0x60 (fs ++ [s.signed fs])
      else s.spdmSay r 0x60 fs))

/-- KEY_EXCHANGE: a new session, or SessionLimitExceeded beyond 8. -/
def execKeyExchange (req : BitVec 16) (pub : BitVec 768) (s : State) : Host.Outcome State Fault Refusal :=
  .next (s.spdm (fun r =>
    if 8 ≤ s.shep.sessions.length then s.spdmError r 0x0A
    else
      let (d, s) := s.takeDrbg
      let id := s.shep.nextSession % 65536 * 65536 + req.toNat
      let k : Spdm := { id := id, secret := Config.dhSecret (pub.toNat + 2 ^ 768 * d), established := false }
      let s := { s with shep := { s.shep with sessions := s.shep.sessions ++ [k], nextSession := s.shep.nextSession + 1 } }
      let s := s.wf F.sessions s.shep.sessions.length
      let fs := [0xE4, id, pub.toNat, d % 2 ^ 768, s.measSummary]
      s.spdmSay r 0x64 (fs ++ [s.signed fs])))

/-- Replace the list of sessions; SHM_BOOT shows their number. -/
def State.setSessions (s : State) (l : List Spdm) : State :=
  State.wf { s with shep := { s.shep with sessions := l } } F.sessions l.length

/-- FINISH: the requester's HMAC verifies and the session is complete, which may give the SESSION wrapping key (R499); or ERROR
and a log entry. -/
def execSpdmFinish (session : W32) (hmac : BitVec 384) (s : State) : Host.Outcome State Fault Refusal :=
  .next (s.spdm (fun r =>
    match s.shep.sessions.find? (fun k => k.id == session.toNat && !k.established) with
    | none => s.spdmError r 0x02
    | some k =>
      if Config.finishMac k.secret = hmac.toNat then
        let s := s.setSessions (s.shep.sessions.map (fun x => if x.id = k.id then { x with established := true } else x))
        (s.spdmSay r 0x65 []).sessionKey k.secret
      else
        let s := (s.setSessions (s.shep.sessions.filter (fun x => !(x.id == k.id)))).logEv 6 0 0 0 k.id
        s.spdmError r 0x06))

/-- END_SESSION. -/
def execEndSession (session : W32) (s : State) : Host.Outcome State Fault Refusal :=
  .next (s.spdm (fun r =>
    if s.shep.sessions.any (fun k => k.id == session.toNat) then
      (s.setSessions (s.shep.sessions.filter (fun x => !(x.id == session.toNat)))).spdmSay r 0x6C []
    else s.spdmError r 0x02))

/-- SPDM_UNSUPPORTED_REQUEST (R492): ERROR with UnsupportedRequest. -/
def execSpdmUnsupportedRequest (_code : Byte) (s : State) : Host.Outcome State Fault Refusal :=
  .next (s.spdm (fun r => s.spdmError r 0x07))

end Sys2Proof.Machine
end

