-- ==== Sys2Proof/Machine/SiOps.lean ====
section
/-! DEFINITION. Stream inlets: formats, the frame's storage, its completion, and enabling
(07_vector_engine_windows_and_inlets.md R265 to R274, R276). -/

namespace Sys2Proof.Machine

/-- Full size of a frame in bytes, by the format and the geometry (Table 7.7). -/
def State.siFrameBytes (s : State) (n : Nat) : Nat :=
  let w := s.rf (F.siW n)
  let h := s.rf (F.siH n)
  let ch := s.rf (F.siCh n)
  match s.rf (F.siFormat n) with
  | 0 => w * h
  | 1 => 2 * w * h
  | 2 => 2 * w * h
  | 3 => 2 * w * h
  | 4 => 3 * w * h
  | 5 => w * h + w * h / 2
  | 6 => 2 * w * ch
  | _ => 4 * w * ch

/-- The stored form of the byte at position `i` of a frame, after byte `prev` (Table 7.7): samples of 10 and 12 bits are
zero-extended, PCM24 is sign-extended. -/
def siStored (fmt i : Nat) (prev b : Byte) : Byte :=
  if fmt = 1 ∧ i % 2 = 1 then b &&& 0x03
  else if fmt = 2 ∧ i % 2 = 1 then b &&& 0x0F
  else if fmt = 7 ∧ i % 4 = 3 then (if bit prev.toNat 7 then 0xFF else 0x00)
  else b

/-- The inlet stops (Table 7.10): its open frame is discarded without a record or a command. -/
def State.siStop (s : State) (n status : Nat) : State :=
  (((s.inletDiscard n).setErr (pgSi n) status (s.rf (F.siFrame n) % 2 ^ 32) 0).wf (F.siState n) 3).raise (pgSi n) 0

/-- A quiesce for hold-up, reset or firmware update, or a preserved instance, drops new frames (Table 7.10). -/
def State.siQuiet (s : State) : Bool := s.rf F.holdState != 0 || s.rb (F.pgQuiesceReq 0) || s.rb F.mbPaused
    || decide (2 ≤ s.rf F.hostState) || s.pins.pwrWarn

/-- Whom the writes of inlet `n` serve: the inlet, for the slot that its present frame's command will take (R271). -/
def State.siClient (s : State) (n : Nat) : Client := .inlet n (s.rf (F.qTail (8 * s.rf (F.siCtx n) + s.rf (F.siQueue n))))

/-- Write bytes of a frame at an offset of its slot: 0, or the status of the failure. A CSB ring lies in the cluster's inlet
reserve (R268, R378). -/
def State.siWrite (s : State) (n off : Nat) (bs : List Byte) : Nat × State :=
  let ring := s.rf (F.siRing n)
  let f := s.rf (F.siFrame n)
  let o := f % max 1 (s.rf (F.siSlots n)) * s.rf (F.siSlotBytes n) + off
  if bits ring 52 4 = 1 then
    let cl := s.rf (F.siCluster n)
    let a := ring % 2 ^ 48 + o
    if a < (64 - s.rf (F.csbInlet cl)) * 2 ^ 18 ∨ 2 ^ 24 < a + bs.length then (0x22, s)
    else (0, forL (linePieces 3 (cl * 2 ^ 24 + a) bs) (fun p s => s.csbWrite p.1 (p.2.map (fun b => (b, false)))) s)
  else s.ctxWrite (s.rf (F.siCtx n)) (ring % 2 ^ 52 + o) bs (s.siClient n)

/-- Write out the present line of the frame. -/
def State.siFlush (s : State) (n : Nat) : State :=
  let k := s.inlet n
  if k.part.isEmpty then s
  else match s.siWrite n (k.bytes - k.part.length) k.part with
    | (0, s) => s.setInlet n { k with part := [] }
    | (e, s) => s.siStop n e

/-- Take one byte of a frame: beyond SLOT_BYTES it is discarded with TRUNC. -/
def State.siByte (s : State) (n : Nat) (b : Byte) : State :=
  let k := s.inlet n
  let v := siStored (s.rf (F.siFormat n)) k.got k.prev b
  if !k.inFrame ∨ bit k.flags 2 then s
  else if s.rf (F.siSlotBytes n) ≤ k.bytes then
    s.setInlet n { k with got := k.got + 1, prev := b, flags := setBits k.flags 1 1 1 }
  else
    let s := s.setInlet n { k with got := k.got + 1, prev := b, bytes := k.bytes + 1, part := k.part ++ [v] }
    if (k.bytes + 1) % 64 = 0 then s.siFlush n else s

/-- The frame record (Table 7.8). -/
def State.siRecord (s : State) (n : Nat) : List Byte :=
  let k := s.inlet n
  natLe 8 (s.rf (F.siFrame n) % 2 ^ 48 + k.flags % 32 * 2 ^ 48) ++ natLe 4 k.bytes ++ natLe 4 k.units ++ natLe 8 k.start
    ++ natLe 8 s.now

/-- Whether any line of a context's range is held poisoned. -/
def State.ctxPoison (s : State) (ctx addr n : Nat) : Bool :=
  match (s.xlateSpan ctx addr 1 (linePieces (n / 64 + 2) (addr % 2 ^ 48) (List.replicate n 0))).1 with
  | .ok ps => ps.any (fun p => s.linePoison p.1)
  | .error _ => false

/-- Stored data carries poison: a partial write leaves a poisoned line poisoned (R647). -/
def State.siPoisoned (s : State) (n : Nat) : Bool :=
  let ring := s.rf (F.siRing n)
  let o := s.rf (F.siFrame n) % max 1 (s.rf (F.siSlots n)) * s.rf (F.siSlotBytes n)
  let k := (s.inlet n).bytes
  if bits ring 52 4 = 0 then s.ctxPoison (s.rf (F.siCtx n)) (ring % 2 ^ 52 + o) k
  else
    let a := s.rf (F.siCluster n) * 2 ^ 24 + ring % 2 ^ 48 + o
    s.csbPoison.any (fun l => decide (a / 64 ≤ l) && decide (64 * l < a + k))

/-- Steps 4 to 6 of Table 7.9: the record, the template copy, the producer count. -/
def State.siPublish (s : State) (n : Nat) : State :=
  let ctx := s.rf (F.siCtx n)
  let q := 8 * ctx + s.rf (F.siQueue n)
  let i := s.rf (F.siFrame n) % max 1 (s.rf (F.siSlots n))
  match s.ctxWrite ctx (s.rf (F.siFrec n) + 32 * i) (s.siRecord n) (s.siClient n) with
  | (0, s) =>
    match s.ctxRead ctx (s.rf (F.siTmpl n) + 128 * i) 128 with
    | (.error e, s) => s.siStop n e
    | (.ok t, s) =>
      if fldOf t 4 1 ≠ 1 then s.siStop n 0x11
      else
        let p := s.rf (F.qTail q)
        match s.ctxWrite ctx (s.slotAddr q p) (t.take 2 ++ natLe 2 p ++ t.drop 4) (s.siClient n) with
        | (0, s) =>
          let s := if (s.inlet n).flags = 0 then s else s.raise (pgSi n) 2
          let s := (s.inc (F.siFrame n) 1).wf (F.siState n) 1
          let s := s.setInlet n { s.inlet n with inFrame := false, part := [] }
          s.doorbell q ((p + 1) % 2 ^ 32) true
        | (e, s) => s.siStop n e
  | (e, s) => s.siStop n e

/-- The open frame ends (step 3 of Table 7.9) with SHORT when it lacks bytes of its full size, and with further flags. -/
def State.siEnd (s : State) (n flags : Nat) : State :=
  let k := s.inlet n
  if !k.inFrame then s
  else
    let short : Bool := decide (k.got < s.siFrameBytes n)
    let s := (s.setInlet n { k with flags := k.flags ||| flags ||| b2n short }).siFlush n
    if !(s.inlet n).inFrame then s
    else
      let s := if s.siPoisoned n then s.setInlet n { s.inlet n with flags := (s.inlet n).flags ||| 16 } else s
      s.siPublish n

/-- Drop a whole frame (R269). -/
def State.siDrop (s : State) (n : Nat) : State := (s.inc (F.siDropped n) 1).raise (pgSi n) 1

/-- A frame-start marker (R269): the release counter and the queue's room are checked. A frame still open ends with SHORT. -/
def State.siStart (s : State) (n : Nat) : State :=
  let s := s.siEnd n 1
  let k := s.inlet n
  let f := s.rf (F.siFrame n)
  let q := 8 * s.rf (F.siCtx n) + s.rf (F.siQueue n)
  if s.rf (F.siState n) ≠ 1 then s
  else if s.siQuiet then s.siDrop n
  else
    let read := if f < k.release + s.rf (F.siSlots n) then (.ok (natLe 8 k.release), s) else s.ctxRead (s.rf (F.siCtx n)) (s.rf (F.siRel n)) 8
    match read with
    | (.error e, s) => s.siStop n e
    | (.ok bs, s) =>
      let s := s.setInlet n { k with release := leNat bs }
      if leNat bs + s.rf (F.siSlots n) ≤ f ∨ 2 ^ s.rf (F.qLog2 q) ≤ sub32 (s.rf (F.qTail q)) (s.rf (F.qHead q)) then s.siDrop n
      else
        (s.setInlet n { Inlet.init with inFrame := true, release := leNat bs, start := s.now, last := s.now }).wf (F.siState n) 2

/-- A valid word within a frame (R601): its bytes are stored, a unit end is counted, and a full frame ends. `full` tells that
the elastic buffer is full: the rest of the frame is discarded. -/
def State.siWord (s : State) (n : Nat) (bs : List Byte) (ue full : Bool) : State :=
  let k := s.inlet n
  if !k.inFrame then s
  else
    let k := { k with last := s.now, units := k.units + b2n ue, flags := if full then k.flags ||| 4 else k.flags }
    let s := forL bs (fun b s => s.siByte n b) (s.setInlet n k)
    if s.siFrameBytes n ≤ (s.inlet n).got then s.siEnd n 0 else s

/-- The bytes of a port word. -/
def siBytes (data : W32) (be : Fin 5) : List Byte := (natLe 4 data.toNat).take be.val

/-- Words reach an inlet while its crossing carries traffic and the instance runs (R610). -/
def State.siOpen (s : State) (n : InletId) : Bool := s.isReady && s.xing (.si n) && s.rb (F.siEn n.val)

/-! Enabling (R273, R274, R276). -/

/-- The status of a refused enable: 0 when it is accepted. -/
def State.siRefuse (s : State) (n : Nat) : Nat :=
  let f := s.rf (F.siFormat n)
  let w := s.rf (F.siW n)
  let h := s.rf (F.siH n)
  let ch := s.rf (F.siCh n)
  let video : Bool := decide (f ≤ 5)
  let q := 8 * s.rf (F.siCtx n) + s.rf (F.siQueue n)
  if w = 0 ∨ (video ∧ h = 0) ∨ (¬ video ∧ ch = 0) ∨ s.rf (F.siSlots n) = 0 ∨ s.rf (F.siSlotBytes n) = 0 then 0x10
  else if s.rf (F.siQueue n) = 0 ∨ 9 ≤ f ∨ (f = 5 ∧ (w % 2 = 1 ∨ h % 2 = 1)) ∨ (¬ video ∧ 8 < ch)
      ∨ 2 ≤ bits (s.rf (F.siRing n)) 52 4 ∨ (s.driver q).isSome then 0x11
  else 0

/-- EN rises: the inlet is enabled with its counts zero, or the enable is refused. -/
def State.siEnable (s : State) (n : Nat) : State :=
  match s.siRefuse n with
  | 0 =>
    let s := ((s.wb (F.siEn n) true).wf (F.siFrame n) 0).wf (F.siDropped n) 0
    (s.wf (F.siState n) 1).setInlet n Inlet.init
  | e => (s.setErr (pgSi n) e (s.rf (F.siFrame n) % 2 ^ 32) 0).raise (pgSi n) 4

/-- EN falls: the inlet is DISABLED, its open frame discarded. -/
def State.siDisable (s : State) (n : Nat) : State :=
  (((s.inletDiscard n).wb (F.siEn n) false).wf (F.siState n) 0).setInlet n Inlet.init

end Sys2Proof.Machine
end

