-- ==== Sys2Proof/Machine/Inlets.lean ====
section
/-! DEFINITION. The events of the stream inlets (07_vector_engine_windows_and_inlets.md, 18_integration_ports_and_crossings.md
R601 and R602). -/

namespace Sys2Proof.Machine

/-- SI_FRAME_START (R269): a word with SIn_FS set; it is the frame's first word, and its last one when SIn_FE is set too. -/
def execSiFrameStart (n : InletId) (data : W32) (be : Fin 5) (fe ue full : Bool) (s : State) : Host.Outcome State Fault Refusal :=
  if !s.siOpen n then .next s
  else
    let s := (s.siStart n.val).siWord n.val (siBytes data be) ue full
    .next (if fe then s.siEnd n.val 0 else s)

/-- SI_DATA_WORD (R601): a word with neither marker. -/
def execSiDataWord (n : InletId) (data : W32) (be : Fin 5) (ue full : Bool) (s : State) : Host.Outcome State Fault Refusal :=
  if !s.siOpen n then .next s else .next (s.siWord n.val (siBytes data be) ue full)

/-- SI_FRAME_END (R271): a word with SIn_FE set; the frame ends after its data. -/
def execSiFrameEnd (n : InletId) (data : W32) (be : Fin 5) (ue full : Bool) (s : State) : Host.Outcome State Fault Refusal :=
  if !s.siOpen n then .next s else .next ((s.siWord n.val (siBytes data be) ue full).siEnd n.val 0)

/-- SI_RST_N_ASSERT (R602): the open frame is discarded and counted, the inlet stays enabled, and the crossing
resynchronises. -/
def execSiRstNAssert (n : InletId) (s : State) : Host.Outcome State Fault Refusal :=
  let s := s.inletDiscard n.val
  .next { s with pins := { s.pins with resync := if s.pins.resync.contains (.si n) then s.pins.resync else .si n :: s.pins.resync } }

/-- SI_FRAME_TIMEOUT (R272): an open frame without data for SI_TIMEOUT EPOCHs ends with SHORT and TIMEOUT. -/
def execSiFrameTimeout (n : InletId) (s : State) : Host.Outcome State Fault Refusal :=
  let k := s.inlet n.val
  let t := s.rf (F.siTimeout n.val)
  if s.isReady ∧ k.inFrame ∧ t ≠ 0 ∧ t ≤ s.now - k.last then .next (s.siEnd n.val 9) else .next s

end Sys2Proof.Machine
end

