-- ==== Sys2Proof/Machine/PoolOps.lean ====
section
/-! DEFINITION. The shared pools and their guarantees (10_grazing_and_preemption.md R375, Table 10.6). -/

namespace Sys2Proof.Machine

/-- A pool whose grants follow R375: the read budget, the KV free blocks, the CSB of a cluster. -/
inductive Pool where
  | reads | kv | csb (c : Nat)
  deriving DecidableEq, Repr

/-- The number of a pool in the line of waiters. -/
def Pool.code : Pool → Nat
  | .reads => 0
  | .kv => 1
  | .csb c => 2 + c

/-- CSB granules that a partition's contexts have bound in a cluster. -/
def State.csbUsed (s : State) (c p : Nat) : Nat :=
  (s.csbMap.filter (fun e => e.1 / 64 == c && s.rf (F.ctxPart ((e.2 - 1) / 64)) == p)).length

/-- MIN of a partition: zero while the partition is not valid. -/
def State.poolMin (s : State) (l : Pool) (p : Nat) : Nat :=
  if !s.rb (F.pValid p) then 0
  else match l with
    | .reads => s.rf (F.pMinReads p)
    | .kv => s.rf (F.pMinKv p)
    | .csb _ => s.rf (F.pMinCsb p)

/-- Units of a pool that a partition uses. -/
def State.poolUsed (s : State) (l : Pool) (p : Nat) : Nat :=
  match l with
  | .reads => s.rf (F.pReads p)
  | .kv => s.rf (F.pKv p)
  | .csb c => s.csbUsed c p

/-- The pool's free amount. -/
def State.poolFree (s : State) : Pool → Nat
  | .reads => 8192 - ((List.range 64).map (fun p => s.rf (F.pReads p))).sum
  | .kv => s.kvd.fifo.length
  | .csb c => s.rf (F.clCsbFree c)

/-- Guarantees of the other partitions that nobody uses. -/
def State.poolOwed (s : State) (l : Pool) (p : Nat) : Nat :=
  ((List.range 64).map (fun q => if q = p then 0 else s.poolMin l q - s.poolUsed l q)).sum

/-- The first waiter of a pool's line, if any. -/
def State.firstWaiter (s : State) (l : Pool) : Option (Nat × Nat × Nat) :=
  (s.grz.waiters.find? (fun w => w.1 == l.code)).map (fun w => w.2)

/-- R375: `r` units are granted to a requester of a partition, from its guarantee or, in its turn, from the excess. KV blocks are
granted from the free FIFO, which must hold them (R213). -/
def State.poolGrants (s : State) (l : Pool) (p r : Nat) (who : Nat × Nat × Nat) : Bool :=
  (decide (s.poolUsed l p + r ≤ s.poolMin l p) && (l != .kv || decide (r ≤ s.kvd.fifo.length))) ||
    ((match s.firstWaiter l with
      | none => true
      | some w => w == who) && decide (r + s.poolOwed l p ≤ s.poolFree l))

/-- A requester that needs excess and is not granted takes its place in the line. -/
def State.poolWait (s : State) (l : Pool) (who : Nat × Nat × Nat) : State :=
  if s.grz.waiters.contains (l.code, who) then s
  else { s with grz := { s.grz with waiters := s.grz.waiters ++ [(l.code, who)] } }

/-- A requester leaves every line. -/
def State.poolLeave (s : State) (who : Nat × Nat × Nat) : State :=
  { s with grz := { s.grz with waiters := s.grz.waiters.filter (fun w => !(w.2 == who)) } }

end Sys2Proof.Machine
end

