-- ==== Sys2Proof/Machine/TileRun.lean ====
section
/-! DEFINITION. A tile on its core: how it asks for its lines, stops on an error or on a fault, and how its context is switched
out (08_commands_and_tiles.md R294, R297, 11_segments_and_translation.md R388, R408, R409, 06_kv_block_directory.md R204, R216). -/

namespace Sys2Proof.Machine

/-! Switch-out (Table 11.11). -/

/-- A started command with tiles left, which no core runs now. -/
def State.mayPark (s : State) (c : Cmd) : Bool :=
  c.phase == 4 && c.acted && !c.parked && !c.failed && decide (c.resumePoint < c.tiles) && !s.hasTile c.qn c.slot

/-- When the last tile of a switched-out context has ended, its started commands park (step 3). -/
def State.parkSwitched (s : State) (ctx : Nat) : State :=
  if s.rf (F.ctxState ctx) = 2 ∧ ¬ s.ctxRuns ctx then
    forL (s.cmds.filter (fun c => c.ctx == ctx)) (fun c s => if s.mayPark c then s.parkCmd c else s) s
  else s

/-- What follows a tile's end on its core: the parking of a switched-out context, the boundary's actions. -/
def State.afterTile (s : State) (n ctx : Nat) : State := (s.parkSwitched ctx).boundary n

/-- The lowest of the faulted tiles of a command (R412). -/
def Cmd.withFault (c : Cmd) (v : TileFault) : Cmd :=
  match c.faulted with
  | none => { c with faulted := some v }
  | some w => if v.index < w.index then { c with faulted := some v } else c

/-- A tile's access meets a fault: the context becomes SWITCHED_OUT, the fault is reported, the tile is to run again (R408). -/
def State.switchOut (s : State) (q slot i seg off right kind stage level ipa : Nat) : State :=
  let ctx := q / 8
  let s := if s.rf (F.ctxState ctx) = 1 then s.wf (F.ctxState ctx) 2 else s
  let eva := (s.rf (F.segBase ctx seg) + off) % 2 ^ 48
  let s := s.modCmd q slot (fun c => { c.withFault ⟨i, kind, stage, eva⟩ with next := min c.next i })
  s.report ⟨eva, seg, ipa, ctx, kind, stage, level, false, right, q, slot, s.now⟩

/-! Stops (R294, R297). -/

/-- A running tile stops on an error with a status, shown on a page when one is named. -/
def State.stopErr (s : State) (n : Nat) (t : Tile) (st page reason : Nat) : State :=
  match s.stopTile n t with
  | .error s => s
  | .ok s =>
    let s := if page = 0 then s else s.setErr page st (reason + 16 * t.ctx) 0
    (s.tileFails t.qn t.slot t.index st).afterTile n t.ctx

/-- A running tile stops on a fault. -/
def State.stopFault (s : State) (n : Nat) (t : Tile) (a : Access) (kind stage level ipa : Nat) : State :=
  match s.stopTile n t with
  | .error s => s
  | .ok s => (s.switchOut t.qn t.slot t.index a.seg a.off a.right kind stage level ipa).afterTile n t.ctx

/-! Reads. -/

/-- Issue the read of a line for a tile, under its context's slot (R19). -/
def State.issueRead (s : State) (n : Nat) (t : Tile) (a : Access) (hpa : Nat) : State :=
  match s.ctxSlot t.ctx with
  | none => (s.slotRefused t.ctx hpa).stopErr n t 0x52 0 0
  | some slot =>
    (s.request (readReq hpa t.ctx slot (.tile n a))).putTile n { t with waits := t.waits.filter (fun w => w.1 != a) ++ [(a, false)] }

/-- A walk of the cluster of core `n` already fetches a page (R400). -/
def State.walkRuns (s : State) (n ctx page : Nat) : Bool :=
  (List.range 4).any (fun i => match s.tileOn (n / 4 * 4 + i) with
    | some t => t.waits.any (fun w => w.2 && t.ctx == ctx && s.pageOf ctx w.1 == page)
    | none => false)

/-- Ask for a line: through the segment and the cached translations, else it waits for a walk, one that runs for its page or a new one
(R384, R388, R400). -/
def State.askLine (s : State) (n : Nat) (t : Tile) (a : Access) : State :=
  if a.direct then s.issueRead n t a a.off
  else match segMap s t.ctx a.seg a.off a.right with
    | .error st => s.stopErr n t st 0 0
    | .ok eva =>
      match s.cached (some n) t.ctx eva with
      | (none, s) =>
        let s := if s.walkRuns n t.ctx (s.pageOf t.ctx a) then s else s.inc (F.clWalks (n / 4)) 1
        s.putTile n { t with waits := t.waits ++ [(a, true)] }
      | (some e, s) =>
        match e.use eva a.right with
        | .fault k st l ipa => s.stopFault n t a k st l ipa
        | .ok h => s.issueRead n t a h
        | .seg _ | .poison => s

/-! Blocks (R204, R216, R181). -/

/-- A bad reference stops the tile (R182, R222). -/
def State.stopBlock (s : State) (n : Nat) (t : Tile) (id : Nat) : State :=
  let s := s.badRef id
  if t.kind = 1 then (s.raise (pgAte n) 2).stopErr n t 0x33 (pgAte n) 11 else s.stopErr n t 0x33 0 0

/-- Take a pin for the tile. -/
def State.tilePin (s : State) (n : Nat) (t : Tile) (id : Nat) : State × Tile :=
  let s := s.pin id
  let s := if t.kind = 1 then s.wf (F.atePins n) (t.pins.length + 1) else s
  (s, { t with pins := t.pins ++ [id] })

/-- A step of the directory for a tile: the machine and the tile, or the machine when the tile no longer runs. -/
abbrev BlkR := Except State (State × Tile)

/-- The tile learns of the block that a word names. -/
def State.learnBlock (s : State) (n : Nat) (t : Tile) (key word kind fmt dcode : Nat) (pin : Bool) : BlkR :=
  let id := word % 2 ^ 24
  if id = 0 ∨ s.rf F.dirCount ≤ id then .error (s.stopBlock n t id)
  else match s.dirLookup (n / 4) t.part id with
    | .error s => .error s
    | .ok (e, s) =>
      if !s.usable t.ctx word kind fmt dcode e then .error (s.stopBlock n t id)
      else
        let was : Bool := decide (s.pinsOf id ≠ 0)
        let r := if pin then s.tilePin n t id else (s, t)
        let s := if t.kind = 1 then (r.1.wf (F.atePhase n) 2).wf (F.ateBlock n) (key / 2) else r.1
        .ok (s, { r.2 with blocks := r.2.blocks ++ [⟨key, id, e, was, if pin then 1 else 0⟩] })

/-- Mark what a tile holds of a learnt block. -/
def Tile.markBlock (t : Tile) (key hold : Nat) : Tile :=
  { t with blocks := t.blocks.map (fun g => if g.key = key then { g with hold := hold } else g) }

/-- An entry still names the block that a tile has learnt of (R204). -/
def DirEnt.same (e d : DirEnt) : Bool :=
  e.st == 3 && e.gen == d.gen && e.owner == d.owner && e.kind == d.kind && e.fmt == d.fmt && e.dcode == d.dcode

/-- The tile takes its pin on a learnt block; a block that the word no longer names takes none (R216). -/
def State.holdBlock (s : State) (n : Nat) (t : Tile) (key : Nat) : BlkR :=
  match t.blocks.find? (fun g => g.key == key) with
  | none => .ok (s, t)
  | some g =>
    match s.dirGet (some (n / 4)) g.id with
    | .error s => .error s
    | .ok (e, s) =>
      if !e.same g.ent then .error (s.stopBlock n t g.id)
      else
        let r := s.tilePin n t g.id
        .ok (r.1, r.2.markBlock key 1)

/-- The tile drops its pin after the block's last read. -/
def State.dropBlock (s : State) (n : Nat) (t : Tile) (key : Nat) : BlkR :=
  match t.blocks.find? (fun g => g.key == key) with
  | none => .ok (s, t)
  | some g =>
    match s.unpin (some (n / 4)) g.id with
    | .error s => .error s
    | .ok s =>
      let t := { t with pins := t.pins.erase g.id }
      .ok (if t.kind = 1 then s.wf (F.atePins n) t.pins.length else s, t.markBlock key 2)

/-! Reads ahead (R120). -/

/-- A delivered line of zeros at an access. -/
def Access.blank (a : Access) : Staged := ⟨a.direct, a.seg, a.off, 0, 0, false⟩

/-- A tile with its outstanding lines taken as delivered. Where a weight stream or a codebook image goes on does not depend on them. -/
def Tile.beyond (t : Tile) : Tile := { t with staged := t.staged ++ t.waits.map (fun w => w.1.blank) }

/-- The lines that a computation of a tile asks for, in order, when nothing has been delivered. -/
def Tx.needs (f : Tx → TM Unit) : Nat → Tx → List Access
  | 0, _ => []
  | k + 1, x => match f x with
    | .error (.need a) => a :: Tx.needs f k { x with t := { x.t with staged := x.t.staged ++ [a.blank] } }
    | _ => []

/-- Lines of the weight stream buffer that are free (R120): those delivered that no entered column has used, and those on their way,
occupy it. -/
def State.wsbRoom (s : State) (n : Nat) (t : Tile) : Bool :=
  if t.staged.length + t.waits.length < 1024 then true
  else
    let bare : Tx := ⟨s, n, { t with staged := [] }⟩
    let used := (List.range (s.core n).arr.beats).flatMap (fun i => Tx.needs (fun x => (x.beatCols i).map (fun _ => ())) 64 bare)
    let held := t.staged.filter (fun g => !used.any (fun a => a.direct == g.direct && a.seg == g.seg && a.off == g.off))
    decide (held.length + t.waits.length < 1024)

/-! Run-on (R138 to R141). -/

/-- The weight lines of an MXE tile, in the order in which its columns need them. -/
def Tx.weightLines (x : Tx) : TM Unit := x.stream.map (fun _ => ())

/-- The run-on reads of core `n` that are outstanding. -/
def State.runOnOut (s : State) (n : Nat) : List Access :=
  let acc (c : Client) : Option Access := match c with
    | .runOn m a => if m = n then some a else none
    | _ => none
  s.txns.filterMap (fun t => acc t.client) ++ s.waiting.filterMap (fun r => acc r.client)

/-- The next tile of the command of an MXE tile, as run-on sees it: an MXE tile that passes its checks and whose codebooks are
resident. -/
def State.runOnTile (s : State) (n : Nat) (t : Tile) : Option Tile :=
  match s.cmd t.qn t.slot with
  | none => none
  | some c =>
    if c.phase ≠ 4 ∨ c.parked ∨ c.failed ∨ c.tiles ≤ t.index + 1 then none
    else match s.peekEntry c (t.index + 1) with
      | none => none
      | some e =>
        let u := { t with index := t.index + 1, entry := e, waits := [],
                          staged := (if (s.core n).runOn = 0 then [] else (s.core n).ahead) ++ (s.runOnOut n).map Access.blank }
        let x : Tx := ⟨s, n, u⟩
        if Hd.kind x ≠ 0 ∨ (x.checks none).isSome ∨ x.cbMissing.isSome ∨ x.isEmpty then none else some u

/-- Run-on may read: the running MXE tile has issued every weight read, and within its read budget and the buffer there is room. -/
def State.runOnMay (s : State) (n : Nat) (t : Tile) : Bool :=
  let out := (s.runOnOut n).length
  t.kind == 0 && t.skipEn && decide (t.waits.length + out < min t.reads 1024) && decide ((s.core n).runOn / 64 + out + t.waits.length < 1024)
    && (Tx.weightLines ⟨s, n, t.beyond⟩).toOption.isSome

/-- Issue run-on reads while there is room, only where a cached translation with the R right and a VALID slot serve them (R140). -/
def State.runOnNext (n : Nat) : Nat → State → Tile → State
  | 0, s, _ => s
  | f + 1, s, t =>
    if !s.runOnMay n t then s
    else match s.runOnTile n t with
      | none => s
      | some u =>
        match Tx.weightLines ⟨s, n, u⟩ with
        | .error (.need a) =>
          match segMap s t.ctx a.seg a.off 1, s.ctxSlot t.ctx with
          | .ok eva, some slot =>
            match s.cached (some n) t.ctx eva with
            | (none, _) => s
            | (some e, s) =>
            match e.use eva 1 with
            | .ok h =>
              let s := s.request (readReq h t.ctx slot (.runOn n a))
              let s := (s.wf (F.wduPhase n) 3).modCore n (fun k => { k with runFor := some (t.qn, t.slot, t.index + 1) })
              State.runOnNext n f s t
            | _ => s
          | _, _ => s
        | .ok _ | .error _ => s

/-! The computation goes on. -/

/-- What a codebook tile still needs: its image's lines are asked for in order. -/
def Tx.cbNext (x : Tx) : TM Unit :=
  let a := x.cbImage x.t.half
  if aSrc a ≠ 0 then x.cbTile.map (fun _ => ())
  else
    let k := x.t.staged.length
    if k < ceilDiv (aOff a % 64 + 0x80000) 64 then .error (.need ⟨false, aSeg a, aOff a / 64 * 64 + 64 * k, 1⟩) else .ok ()

/-- What a tile does: a codebook tile reads its image, another kind computes its result. -/
def Tx.runs (x : Tx) : TM Unit := if x.t.kind = 4 then x.cbNext else x.result.map (fun _ => ())

/-- Every input of the tile has been delivered; each block of an ATE tile has then been processed for its last row group (R164). -/
def State.tileReady (s : State) (n : Nat) (t : Tile) : State :=
  let s := s.putTile n { t with ready := true, waits := [] }
  match t.kind with
  | 1 => (s.wf (F.atePhase n) 3).wf (F.ateGroup n) (Ate.groups ⟨s, n, t⟩ - 1)
  | 2 => s.wf (F.vxePhase n) 3
  | _ => s

/-- A weight stream or a codebook image is read ahead: line by line while the read budget and the buffer have room and no walk is
awaited (R120). -/
def State.readAhead (n : Nat) : Nat → State → State
  | 0, s => s
  | f + 1, s =>
    match s.tileOn n with
    | none => s
    | some t =>
      if t.waits.any (fun w => w.2) ∨ min t.reads 1024 ≤ t.waits.length ∨ !s.wsbRoom n t then s
      else match Tx.runs ⟨s, n, t.beyond⟩ with
        | .error (.need a) => State.readAhead n f (s.askLine n t a)
        | .ok _ | .error _ => s

/-- An MXE tile goes on: its columns enter, it reads ahead, then run-on does. -/
def State.mxeGo (s : State) (n : Nat) (t : Tile) : State :=
  let s := State.readAhead n 1024 (s.stream n t)
  match s.tileOn n with
  | none => s
  | some t => State.runOnNext n 1024 s t

/-- A tile that lacks a line asks for it, and the WDU for more. -/
def State.askMore (s : State) (n : Nat) (t : Tile) (a : Access) : State :=
  match t.kind with
  | 0 => s.mxeGo n t
  | 4 => State.readAhead n 1024 s
  | _ => s.askLine n t a

/-- Run a tile until it waits, stops or has every input. -/
def State.advanceGo (n : Nat) : Nat → State → Tile → State
  | 0, s, _ => s
  | f + 1, s, t =>
    let go (r : BlkR) : State :=
      match r with
      | .error s => s
      | .ok (s, t) => State.advanceGo n f (s.putTile n t) t
    match Tx.runs ⟨s, n, t⟩ with
    | .ok _ => if t.kind = 0 then (s.tileReady n t).mxeGo n { t with ready := true, waits := [] } else s.tileReady n t
    | .error (.need a) => s.askMore n t a
    | .error (.err st page reason) => s.stopErr n t st page reason
    | .error (.block key word kind fmt dcode pin) => go (s.learnBlock n t key word kind fmt dcode pin)
    | .error (.hold key) => go (s.holdBlock n t key)
    | .error (.drop key) => go (s.dropBlock n t key)

/-- The tile of core `n` goes on. A tile makes fewer directory steps than the bound: at most three on each of 4,096 blocks. -/
def State.advance (s : State) (n : Nat) : State :=
  match s.tileOn n with
  | none => s
  | some t => State.advanceGo n 65536 s t

/-! What arrives for a tile. -/

/-- The plain line that a read delivers: no ciphertext, and no data of a failed read, passes as plain text (R435, R444). -/
def State.delivered (s : State) (slot hpa : Nat) (raw : List Byte) (ok bad : Bool) : Line × State :=
  if bad ∧ (!ok ∨ s.encrypts slot) then
    let (v, s) := s.takeFree
    (BitVec.ofNat 512 v, s)
  else (BitVec.ofNat 512 (leNat (s.plainOf slot (hpa / 64 * 64) raw)), s)

/-- A tile of the WDU goes on after a walk: more of its lines may be asked for. -/
def State.advanceMore (s : State) (n : Nat) : State :=
  match s.tileOn n with
  | none => s
  | some t => match t.kind with
    | 0 => s.mxeGo n t
    | 4 => State.readAhead n 1024 s
    | _ => s

/-- A delivered weight line is progress of the WDU, a load transfer progress of the ATE and the VXE (Table 16.1, R192, R275). -/
def State.lineProgress (s : State) (n : Nat) (t : Tile) : State :=
  match t.kind with
  | 0 => s.progress n 3
  | 1 => s.progress n 2
  | 2 => s.progress n 1
  | 4 => s.progress n 3
  | _ => s

/-- A line reaches the tile of core `n` that waits on it. -/
def State.giveLine (s : State) (n : Nat) (a : Access) (hpa : Nat) (v : Line) (bad : Bool) : State :=
  match s.tileOn n with
  | none => s
  | some t =>
    if t.waits.contains (a, false) then
      ((s.lineProgress n t).putTile n { t with waits := t.waits.filter (fun w => w.1 != a),
                                               staged := t.staged ++ [⟨a.direct, a.seg, a.off, hpa, v, bad⟩] }).advance n
    else s

/-- A run-on line arrives: it is held for the next tile, and more are asked for while the same tile runs. -/
def State.deliverAhead (s : State) (n : Nat) (a : Access) (hpa : Nat) (v : Line) (bad : Bool) : State :=
  let g : Staged := ⟨a.direct, a.seg, a.off, hpa, v, bad⟩
  let s := s.modCore n (fun k => { k with runOn := k.runOn + 64, ahead := (if k.runOn = 0 then [] else k.ahead) ++ [g] })
  match s.tileOn n with
  | some t => if (s.core n).runFor = some (t.qn, t.slot, t.index + 1) then State.runOnNext n 1024 s t else s
  | none => s

end Sys2Proof.Machine
end

