-- ==== Sys2Proof/Machine/TileEnd.lean ====
section
/-! DEFINITION. The end of a tile: its outputs are translated and written, its directory steps are committed, its reservation is
released, its command may finish (08_commands_and_tiles.md R294, R301, 06_kv_block_directory.md R222 to R229,
12_memory_ports_ordering_integrity.md R437 to R440, R658). -/

namespace Sys2Proof.Machine

/-! Writing. -/

/-- Hand one piece to its destination: memory through the ports, which accept it or let it wait (R420, R422), the CSB at once. -/
def State.doWr (s : State) (n : Nat) (t : Tile) (slot : Nat) : Wr → State
  | .mem h bs =>
    s.request { writeReq h t.ctx slot (.command t.qn t.slot) (bs.map (fun b => b.1)) (bs.any (fun b => b.2)) with core := some n }
  | .csb a bs => s.csbWrite a bs
  | .addMem h add => s.request { atomicReq 4 h t.ctx slot (.command t.qn t.slot) add with core := some n }
  | .addCsb a add =>
    if s.csbPoison.contains (a / 64) then s.markBad (some n)
    else { s with csb := memPut s.csb a (natLe 4 (satAdd32 (leNat (memBytes s.csb a 4)) add)) }

/-! The commit of directory steps. -/

/-- The request that writes bytes of the commit step. -/
def wordReq (n : Nat) (t : Tile) (slot h : Nat) (bs : List Byte) : Req :=
  { writeReq h t.ctx slot (.command t.qn t.slot) bs false with core := some n }

/-- Write a block-table word. -/
def State.putWord (s : State) (n : Nat) (t : Tile) (slot h w : Nat) : State := s.putNow (wordReq n t slot h (natLe 4 w))

/-- Whether the block that a word names is usable, with its entry; the machine after the lookup. -/
def State.namedBlock (s : State) (n : Nat) (t : Tile) (word kind fmt dcode : Nat) : Except State (Option DirEnt × State) :=
  let id := word % 2 ^ 24
  if id = 0 ∨ s.rf F.dirCount ≤ id then .ok (none, s.badRef id)
  else match s.dirLookup (n / 4) t.part id with
    | .error s => .error s
    | .ok (e, s) => if s.usable t.ctx word kind fmt dcode e then .ok (some e, s) else .ok (none, s.badRef id)

/-- One directory step (R199, R222, R226 to R228). -/
def State.doKv (s : State) (n : Nat) (t : Tile) (slot : Nat) (o : KvOp × Nat) : KvR :=
  let cl := some (n / 4)
  match o.1 with
  | .take i kind fmt dcode valid _ _ =>
    let id := t.kv.getD i 0
    match s.dirGet cl id with
    | .error s => .error s
    | .ok (e, s) =>
      let g := (e.gen + 1) % 256
      let s := s.dirPut cl id { e with gen := g, owner := t.ctx, fmt := fmt, kind := kind, dcode := dcode, valid := valid, ref := 1, st := 3 }
      .ok (s.putWord n t slot o.2 (id + g * 2 ^ 24))
  | .valid id v =>
    match s.dirGet cl id with
    | .error s => .error s
    | .ok (e, s) => .ok (s.dirPut cl id { e with valid := v })
  | .release id => s.refDown cl id
  | .copied => .ok (s.inc F.kvCopies 1)
  | .fork w kind fmt dcode _ _ =>
    match s.namedBlock n t w kind fmt dcode with
    | .error s => .error s
    | .ok (none, s) => .ok (s.putWord n t slot o.2 0)
    | .ok (some _, s) =>
      match s.refUp cl (w % 2 ^ 24) with
      | .error s => .error s
      | .ok s => .ok (s.putWord n t slot o.2 w)
  | .free w kind fmt dcode _ _ =>
    match s.namedBlock n t w kind fmt dcode with
    | .error s => .error s
    | .ok (none, s) => .ok (s.putWord n t slot o.2 0)
    | .ok (some _, s) =>
      match s.refDown cl (w % 2 ^ 24) with
      | .error s => .error s
      | .ok s => .ok (s.putWord n t slot o.2 0)
  | .trim w kind fmt dcode v =>
    match s.namedBlock n t w kind fmt dcode with
    | .error s => .error s
    | .ok (none, s) => .ok s
    | .ok (some e, s) => .ok (if e.ref = 1 then s.dirPut cl (w % 2 ^ 24) { e with valid := v } else s)
  | .high v _ _ => .ok (s.putNow (wordReq n t slot o.2 (natLe 2 v)))

/-- Directory steps in order. -/
def State.doKvs (s : State) (n : Nat) (t : Tile) (slot : Nat) : List (KvOp × Nat) → KvR
  | [] => .ok s
  | o :: l =>
    match s.doKv n t slot o with
    | .error s => .error s
    | .ok s => s.doKvs n t slot l

/-- Reserved blocks that a result takes. -/
def takes (l : List KvOp) : Nat := (l.filter (fun o => match o with
  | .take _ _ _ _ _ _ _ => true
  | _ => false)).length

/-! The end of a command's tiles. -/

/-- The new LENGTH and HIGH that a directory command leaves, and the record that takes them (R225 to R228); none where the record
stays as it is. -/
def recordEnd (op : Nat) (ops : List Byte) (r : Seq) : Option (Nat × Nat × Nat) :=
  let at0 := bits (fldOf ops 0 8) 0 52
  let arg := dirArg op ops
  match op with
  | 3 => if bit (fldOf ops 32 1) 2 then some (at0, r.length + fldOf ops 30 2, r.high) else none
  | 4 => some (bits (fldOf ops 8 8) 0 52, arg, ceilDiv arg 64)
  | 5 => some (at0, 0, 0)
  | _ => some (at0, r.length - arg, ceilDiv (r.length - arg) 64)

/-- After its last tile a directory command writes its record: the status. -/
def State.recordDone (s : State) (c : Cmd) : Nat × State :=
  let ops := c.bytes.drop 48
  match s.ctxRead c.ctx (bits (fldOf ops 0 8) 0 52) 64 with
  | (.error e, s) => (e, s)
  | (.ok b, s) =>
    match recordEnd c.opcode ops (seqOf b) with
    | none => (0, s)
    | some (a, len, high) => s.ctxWrite c.ctx (a + 16) (natLe 4 len ++ natLe 2 high) (.command c.qn c.slot)

/-- A directory command ends, with a status of its own. -/
def State.dirDone (s : State) (c : Cmd) : State :=
  let (st, s) := s.recordDone c
  s.setCmd (c.done st)

/-- Every tile of a command has ended normally: its phase 4 ends (R301, R225). -/
def State.tilesEnd (s : State) (c : Cmd) : State :=
  if c.phase = 4 ∧ ¬ c.failed ∧ c.ended.length = c.tiles then
    let s := s.qProgress c.qn
    if 3 ≤ c.opcode ∧ c.opcode ≤ 6 then s.dirDone c else s.setCmd (c.done (if c.moved then 0x00 else 0x01))
  else s

/-- A tile index has ended. -/
def Cmd.endTile (c : Cmd) (i : Nat) (moved : Bool) : Cmd :=
  let e := if c.ended.contains i then c.ended else i :: c.ended
  { c with ended := e, tilesDone := e.length, moved := c.moved || moved }

/-- A codebook half becomes VALID with its contents and its tag (R130). -/
def State.cbsLoad (s : State) (n : Nat) (t : Tile) (bs : List MB) : State :=
  let x : Tx := ⟨s, n, t⟩
  let h := t.half
  let bad := (((chunksOf 64 (bs.length / 64) bs).zipIdx).filter (fun l => l.1.any (fun b => b.2))).map (fun l => l.2)
  let s := s.modCore n (fun k =>
    let v : CbsHalf := { k.half h with image := x.cbImage h, data := bs.map (fun b => b.1), bad := bad,
                                       loaded := some (t.qn, t.slot, t.index) }
    if h = 0 then { k with h0 := v } else { k with h1 := v })
  let s := ((s.wf (F.cbsRole n h) x.cbRole).wf (F.cbsCtx n h) t.ctx).wf (F.cbsId n h) (Mxe.cbId x)
  (s.wb (F.cbsValid n h) true).inc (F.wduCbLoads n) 1

/-! The tile ends. -/

/-- The events that a result raises and the counts that it advances. -/
def State.tell (s : State) (r : TRes) : State :=
  forL r.counts (fun e s => s.inc e.1 e.2) (forL r.events (fun e s => s.raise e.1 e.2) s)

/-- A tile has ended normally: it releases its reservation, its counts rise, its command may end. `used` of its reserved blocks have
left for the context; a codebook tile ends no index of the table. -/
def State.endNormal (s : State) (n : Nat) (t : Tile) (r : TRes) : State :=
  let used := takes r.kv
  let s := (s.tell r).inc (F.tsqTiles n) 1
  let s := s.wf (F.pKv t.part) (s.rf (F.pKv t.part) - used)
  match s.leaveCore n { t with kv := t.kv.drop used } true with
  | .error s => s
  | .ok s =>
    let s := s.qProgress t.qn
    if t.kind = 4 then s.afterTile n t.ctx
    else
      let s := s.modCmd t.qn t.slot (fun c => c.endTile t.index (!r.empty))
      let s := match s.cmd t.qn t.slot with
        | some c => s.tilesEnd c
        | none => s
      s.afterTile n t.ctx

/-- A codebook tile's last byte is written. -/
def State.endCodebook (s : State) (n : Nat) (t : Tile) (bs : List MB) : State :=
  (s.cbsLoad n t bs).endNormal n t (TRes.ofOuts [] false)

/-- A tile that has consumed poison, or whose write was refused, stops with 0x30 (Table 12.3, R440, R658): what it has written is
undefined (R294), and its fresh blocks go back (R224). It has done its work. -/
def State.endPoisoned (s : State) (n : Nat) (t : Tile) (r : TRes) : State :=
  let s := ((s.spoilTile n t).tell r).dropAhead n
  match s.leaveCore n t true with
  | .error s => s
  | .ok s => (s.tileFails t.qn t.slot t.index 0x30).afterTile n t.ctx

/-- A piece that goes to memory. -/
def Wr.isMem : Wr → Bool
  | .mem _ _ => true
  | .addMem _ _ => true
  | .csb _ _ => false
  | .addCsb _ _ => false

/-- The bytes of the word that a directory step writes. -/
def KvOp.wordBytes : KvOp → Nat
  | .high _ _ _ => 2
  | .take _ _ _ _ _ _ _ | .valid _ _ | .release _ | .copied | .fork _ _ _ _ _ _ | .free _ _ _ _ _ _ | .trim _ _ _ _ _ => 4

/-- A word of the commit step whose line the port would write back poisoned, and so refuse (R647, R440). -/
def State.wordRefused (s : State) (slot : Nat) (l : List (KvOp × Nat)) : Option (KvOp × Nat) :=
  if s.encrypts slot ∧ ¬ s.rb F.poisonStore then l.find? (fun k => k.1.word.isSome && s.linePoison k.2) else none

/-- The commit step: the directory steps and the words that they write, none of it where poison or a refused write stops the tile
(R222, R224). -/
def State.commitKv (s : State) (n : Nat) (t : Tile) (f : TileFin) : State :=
  let slot := (s.ctxSlot t.ctx).getD 0
  if f.bad ∨ f.res.poison then s.endPoisoned n t f.res
  else match s.wordRefused slot f.kv with
    | some k => (s.refuseWrite (wordReq n t slot k.2 (List.replicate k.1.wordBytes 0))).endPoisoned n t f.res
    | none => match s.doKvs n t slot f.kv with
      | .error s => s
      | .ok s => if s.waiting.any (fun r => r.core == some n) then s.putTile n { t with fin := some { f with done := true } }
          else s.endNormal n t f.res

/-- A tile whose outputs have been handed over ends when the ports have accepted the last of them (R99, R294). -/
def State.finish (s : State) (n : Nat) : State :=
  match s.tileOn n with
  | none => s
  | some t =>
    match t.fin with
    | none => s
    | some f =>
      if s.waiting.any (fun r => r.core == some n) then s
      else if f.done then s.endNormal n t f.res else s.commitKv n t f

/-- Hand a tile's outputs over; memory is written only under the context's VALID slot (R19). -/
def State.endWith (s : State) (n : Nat) (t : Tile) (r : TRes) : State :=
  match s.placeRes n t r with
  | (.error (.fault a k st l ipa), s) => s.stopFault n t a k st l ipa
  | (.error (.err st), s) => s.stopErr n t st 0 0
  | (.ok p, s) =>
    if (s.ctxSlot t.ctx).isNone && (p.1.any Wr.isMem || p.2.any (fun k => k.1.word.isSome)) then s.stopErr n t 0x52 0 0
    else
      let s := s.putTile n { t with fin := some ⟨{ r with outs := [] }, p.1, p.2, false, false⟩ }
      (forL p.1 (fun w s => s.doWr n t ((s.ctxSlot t.ctx).getD 0) w) s).finish n

/-- What an append tile has learnt of the blocks that it writes in place is tested again before it writes (R206, R223): a block that
has been pinned or shared meanwhile is copied, one that the word no longer names stops the tile. -/
def State.blockNow (s : State) (n : Nat) (g : BlockGot) : Except State (Option BlockGot × State) :=
  if g.hold ≠ 0 then .ok (some g, s)
  else match s.dirGet (some (n / 4)) g.id with
    | .error s => .error s
    | .ok (e, s) => .ok (if e.same g.ent then some { g with ent := e, pinned := decide (s.pinsOf g.id ≠ 0) } else none, s)

/-- The blocks of a tile as they stand now: the machine where the tile no longer runs, else the tile. -/
def State.blocksNow (s : State) (n : Nat) (t : Tile) : List BlockGot → List BlockGot → Except State (Tile × State)
  | [], out => .ok ({ t with blocks := out }, s)
  | g :: l, out =>
    match s.blockNow n g with
    | .error s => .error s
    | .ok (none, s) => .error (s.stopBlock n t g.id)
    | .ok (some g, s) => s.blocksNow n t l (out ++ [g])

/-- Poison in the directory entry of a reserved block is poison in shared metadata (R208). -/
def State.kvPoisoned (s : State) (t : Tile) : Bool := t.kv.any (fun id => (s.dirRaw id).isNone)

/-- A tile whose every input has been delivered computes its result and hands it over. -/
def State.endTile (s : State) (n : Nat) (t : Tile) : State :=
  if t.fin.isSome then s.finish n
  else if s.kvPoisoned t then s.sharedPoison false
  else if t.kind = 4 then
    match (⟨s, n, t⟩ : Tx).cbTile with
    | .ok bs => s.endCodebook n t bs
    | .error _ => s.advance n
  else match (if t.kind = 5 then s.blocksNow n t t.blocks [] else .ok (t, s)) with
    | .error s => s
    | .ok (u, s) => match (⟨s, n, u⟩ : Tx).result with
      | .ok r => s.endWith n u r
      | .error _ => (s.putTile n { u with ready := false }).advance n

end Sys2Proof.Machine
end

