-- ==== Sys2Proof/Machine/AdmitRun.lean ====
section
/-! DEFINITION. Admission: which tile of a queue is next, its checks, its wait, the choice that a core makes among the tiles that
wait, the grant and the start (08_commands_and_tiles.md R290 to R303, 10_grazing_and_preemption.md R356, R363 to R372, R375, R376). -/

namespace Sys2Proof.Machine

/-! Reads in the control plane for a tile that is not admitted yet. -/

/-- What such a read gives: bytes, a fault at an offset, or a status. -/
inductive Fetch where
  | ok (bs : List Byte)
  | fault (seg off kind stage level ipa : Nat)
  | err (status : Nat)
  deriving DecidableEq, Repr

/-- Translate the lines of a read. -/
def State.fetchLines (s : State) (ctx seg : Nat) : List (Nat × List Byte) → Except Fetch (List (Nat × List Byte)) × State
  | [] => (.ok [], s)
  | (o, bs) :: rest =>
    match s.xlateAt none ctx seg o 1 with
    | (.ok h, s) =>
      match s.fetchLines ctx seg rest with
      | (.ok l, s) => (.ok ((h, bs) :: l), s)
      | (.error e, s) => (.error e, s)
    | (.fault k st l ipa, s) => (.error (.fault seg o k st l ipa), s)
    | (r, s) => (.error (.err r.status), s)

/-- Read bytes at an address of the R159 layout in memory. -/
def State.tileRead (s : State) (ctx a n : Nat) : Fetch × State :=
  match s.fetchLines ctx (aSeg a) (linePieces (n / 64 + 2) (aOff a) (List.replicate n 0)) with
  | (.error e, s) => (e, s)
  | (.ok ps, s) =>
    match s.ctxSlot ctx with
    | none => (.err 0x52, s.spanRefused ctx ps)
    | some slot =>
      let s := s.tookPieces ctx slot ps
      match s.readPieces slot ps with
      | .ok bs => (.ok bs, s)
      | .error e => (.err e, s)

/-! The lines of those that wait for a part of their reservation (R375, R220). -/

/-- The line of tiles that wait for directory locks. -/
def lockLine : Nat := 10

/-- A waiter still stands for the next tile of a command. -/
def State.waiterLives (s : State) (w : Nat × Nat × Nat × Nat) : Bool :=
  match s.cmd w.2.1 w.2.2.1 with
  | some c => c.phase == 4 && !c.parked && !c.failed && c.faulted.isNone && c.next == w.2.2.2
  | none => false
def State.pruneWaiters (s : State) : State :=
  { s with grz := { s.grz with waiters := s.grz.waiters.filter s.waiterLives } }
/-- Take a place in a line. -/
def State.joinLine (s : State) (line : Nat) (who : Nat × Nat × Nat) : State :=
  if s.grz.waiters.contains (line, who) then s else { s with grz := { s.grz with waiters := s.grz.waiters ++ [(line, who)] } }

/-! The reservation (R292, R220, R221, R376). -/

/-- What a tile asks for. -/
structure Ask where
  reads : Nat
  kv : Nat
  gran : Nat
  locks : List Nat
  deriving DecidableEq, Repr

/-- The lock identities of a directory command: the context and the records' addresses. -/
def Cmd.lockIds (c : Cmd) : List Nat :=
  let a (o : Nat) : Nat := c.ctx * 2 ^ 52 + bits (c.fld (48 + o) 8) 0 52
  if c.opcode = 4 then [a 0, a 8].eraseDups else if 3 ≤ c.opcode ∧ c.opcode ≤ 6 then [a 0] else []

/-- What the next tile of a command asks for on core `n`; its codebook tile, which goes first, asks for its reads alone (R129). -/
def State.askOf (s : State) (n : Nat) (c : Cmd) (x : Tx) : Ask :=
  if c.opcode = 1 ∧ Hd.kind x = 0 ∧ x.cbMissing.isSome then ⟨Hd.reads x, 0, 0, []⟩
  else
  let held := s.kvd.locks.any (fun l => l.1 == c.qn && l.2.1 == c.slot)
  { reads := if c.opcode = 1 then Hd.reads x else 1
    kv := if c.opcode = 3 then App.blocks (fldOf c.ops 30 2) else 0
    gran := if c.opcode = 1 ∧ Hd.csbKib x ≠ 0 ∧ ¬ bit (s.rf (F.csbBound c.ctx)) (n / 4) then s.rf (F.csbGran c.ctx) else 0
    locks := if held then [] else c.lockIds }

/-- The pools that do not grant a request. -/
def State.poolsLacking (s : State) (n p : Nat) (a : Ask) (who : Nat × Nat × Nat) : List Pool :=
  ([(Pool.reads, a.reads), (Pool.kv, a.kv), (Pool.csb (n / 4), a.gran)].filter
    (fun e => e.2 != 0 && !s.poolGrants e.1 p e.2 who)).map (fun e => e.1)

/-- The locks that a request needs are free, and the lock table has room. -/
def State.locksFree (s : State) (a : Ask) : Bool :=
  a.locks.all (fun i => !s.kvd.locks.any (fun l => l.2.2 == i)) && decide (s.kvd.locks.length + a.locks.length ≤ 256)

/-- Leave the line for locks. -/
def State.leaveLocks (s : State) (who : Nat × Nat × Nat) : State :=
  { s with grz := { s.grz with waiters := s.grz.waiters.filter (fun w => !(w.2 == who && w.1 == lockLine)) } }
/-- Leave the lines of pools that now grant. -/
def State.leavePools (s : State) (lacking : List Pool) (who : Nat × Nat × Nat) : State :=
  { s with grz := { s.grz with waiters := s.grz.waiters.filter (fun w =>
      !(w.2 == who && decide (w.1 < 6) && !lacking.any (fun l => l.code == w.1))) } }

/-- Ask for a reservation: whether every part of it can be granted now; a request that cannot takes its places in the lines. -/
def State.tryAsk (s : State) (n p : Nat) (a : Ask) (who : Nat × Nat × Nat) : Bool × State :=
  let lacking := s.poolsLacking n p a who
  let s := s.leaveLocks who
  let s := forL lacking (fun l s => s.poolWait l who) s
  let s := s.leavePools lacking who
  let s := if s.locksFree a then s else s.joinLine lockLine who
  (lacking.isEmpty && s.locksFree a, s)

/-! The core's choice (R356, R363, R366, R367). -/

/-- A core may take a tile: it holds none, no reset, quiesce, retirement or gating holds it. -/
def State.coreFree (s : State) (n : Nat) : Bool :=
  let k := s.core n
  k.tile.isNone && k.engRst == 0 && !k.powering && k.quiesceReq == 0 && !s.rb (F.tsqQuiesced n) && !k.retirePend
    && !bit s.hsa.retired n && !(s.cluster (n / 4)).resetting

def State.isParked (s : State) (q slot : Nat) : Bool := s.cmds.any (fun c => c.qn == q && c.slot == slot && c.parked)

/-- Queues with a parked command that could be served (R370). -/
def State.parkedQueues (s : State) : List Nat :=
  (s.cmds.filter (fun c => c.parked && c.phase == 4 && !c.failed && c.faulted.isNone && s.ctxMayRun c.ctx)).map (fun c => c.qn)

/-- A core is granted to a partition now: it owns the core, or it borrows lent time (R360, R363). -/
def State.coreGrants (s : State) (n p : Nat) : Bool :=
  let own := (s.core n).own
  (!bit own 7 && own % 64 == p) || (bit own 6 && s.rb (F.pValid p) && s.rf (F.pClass p) == 3 && s.rb (F.pBorrow p))

/-- The command whose tile a queue admits next, parked or not (R379). -/
def State.nextCmd (s : State) (q : Nat) : Option Cmd :=
  if s.ctxMayRun (q / 8) ∧ s.rf F.holdState = 0 then frontOf [] ((s.cmdsOf q).map (fun c => { c with parked := false })) else none

/-- The queues that hold a command. -/
def State.busyQueues (s : State) : List Nat := (s.cmds.map (fun c => c.qn)).eraseDups

/-- A checked tile of a command that may run on core `n` and is not empty. -/
def State.checkedTile (s : State) (n : Nat) (c : Cmd) : Option Tx :=
  match s.nextLook n c with
  | some (x, none) => if c.opcode = 1 ∧ x.isEmpty then none else some x
  | _ => none

/-- The tile waits for a core, a reservation or directory locks: its order conditions hold (R379). -/
def State.waitTile (s : State) (n : Nat) (c : Cmd) : Option Tx := (s.checkedTile n c).filter (fun x => s.orderMet c x c.next)

/-- The tile waits only for a core: the rest of its reservation could be granted (R356). -/
def State.waitsForCore (s : State) (n : Nat) (c : Cmd) : Bool :=
  match s.waitTile n c with
  | none => false
  | some x =>
    let a := s.askOf n c x
    (s.poolsLacking n (s.rf (F.ctxPart c.ctx)) a (c.qn, c.slot, c.next)).isEmpty && s.locksFree a

/-- Queues whose next tile waits only for a core of the cluster of core `n`, and queues with a parked command. -/
def State.waitingQueues (s : State) (n : Nat) : List Nat :=
  s.busyQueues.filter (fun q => match s.frontCmd q with
    | some c => s.ctxMayRun (q / 8) && s.rf F.holdState == 0 && s.waitsForCore n c
    | none => false) ++ s.parkedQueues

/-- A tile waits in a cluster: in the one that it names; one that names none, where a core is granted to its partition, and in every
cluster while no core is. -/
def State.waitsIn (s : State) (cl : Nat) (c : Cmd) : Bool :=
  match s.waitTile (4 * cl) c with
  | none => false
  | some x =>
    let p := s.rf (F.ctxPart c.ctx)
    (c.opcode == 1 && decide (Hd.cluster x < 4)) || (List.range 4).any (fun i => s.coreGrants (4 * cl + i) p)
      || !(List.range 16).any (fun n => s.coreGrants n p)

/-- The commands whose checked tiles wait in a cluster. -/
def State.cmdsIn (s : State) (cl : Nat) : List Cmd := (s.busyQueues.filterMap s.nextCmd).filter (fun c => s.waitsIn cl c)

/-- The contexts of which a checked tile waits in a cluster: a context's waits there count once (R379). -/
def State.waitingCtxs (s : State) (cl : Nat) : List Nat := ((s.cmdsIn cl).map (fun c => c.ctx)).eraseDups

/-- Checked tiles of a partition that wait (Table 10.9, R379). -/
def State.waitTiles (s : State) (p : Nat) : Nat :=
  ((s.busyQueues.filterMap s.nextCmd).filter (fun c => s.rf (F.ctxPart c.ctx) == p && (List.range 4).any (fun cl => s.waitsIn cl c))).length

/-- A checked tile waits for admission on core `n` (R293, Table 19.9). -/
def State.waitsAt (s : State) (n : Nat) : Bool := (s.busyQueues.filterMap s.nextCmd).any (fun c => (s.checkedTile n c).isSome)

/-- The partition that a core serves next, among those with a waiting queue: its owner, else, on lent time, the next borrower. -/
def State.servePart (s : State) (n : Nat) (qs : List Nat) : Option Nat :=
  let own := (s.core n).own
  let has (p : Nat) : Bool := qs.any (fun q => s.rf (F.ctxPart (q / 8)) == p)
  if !bit own 7 && has (own % 64) then some (own % 64)
  else if bit own 6 then
    ((List.range 64).map (fun i => ((s.core n).lastLent + 1 + i) % 64)).find? (fun p =>
      s.rb (F.pValid p) && s.rf (F.pClass p) == 3 && s.rb (F.pBorrow p) && has p)
  else none

/-- The context that a core serves in a partition: the highest PRIO; among equals the served one, else the next ascending, wrapping. -/
def State.serveCtx (s : State) (n p : Nat) (qs : List Nat) : Option Nat :=
  let cs := (qs.map (fun q => q / 8)).filter (fun c => s.rf (F.ctxPart c) == p)
  let top := cs.foldl (fun a c => max a (s.rf (F.prio c))) 0
  let best := cs.filter (fun c => s.rf (F.prio c) == top)
  match (s.core n).served with
  | some c0 =>
    if best.contains c0 then some c0
    else best.foldl (fun a c => match a with
      | none => some c
      | some b => if (c + 4096 - (c0 + 1)) % 4096 < (b + 4096 - (c0 + 1)) % 4096 then some c else some b) none
  | none => best.foldl (fun a c => match a with
      | none => some c
      | some b => if c < b then some c else some b) none

/-- The queue of the served context whose turn it is. -/
def State.serveQueue (s : State) (n ctx : Nat) (qs : List Nat) : Option Nat :=
  let t := if (s.core n).served = some ctx then (s.core n).turn else 0
  let mine := (List.range 8).filter (fun i => qs.contains (8 * ctx + i))
  ((mine.find? (fun i => decide (t ≤ i))).or (mine.head?)).map (fun i => 8 * ctx + i)

/-- The queue whose tile core `n` admits next. -/
def State.pick (s : State) (n : Nat) : Option Nat :=
  let qs := s.waitingQueues n
  match s.servePart n qs with
  | none => none
  | some p => match s.serveCtx n p qs with
    | none => none
    | some c => s.serveQueue n c qs

/-- A parked command goes on with its slots as re-read: from phase 3 where it had only met its wait. -/
def State.goesOn (s : State) (c : Cmd) : State := if c.phase = 3 then s.enter4 c else s.setCmd c

/-- Resume a parked command whose resume point was held in a hold-up save instead of the save table (R582). -/
def State.resumeKept (s : State) (c : Cmd) : State :=
  match s.reread c with
  | (.error st, s) => s.setCmd (c.cannotResume st)
  | (.ok b, s) => s.goesOn { c with bytes := b, parked := false, next := c.resume }

/-- A queue's parked commands may go on: those with tiles when a core would serve them next, others, which need no core, in a context
that is ACTIVE or SWITCHED_OUT. -/
def State.mayResume (s : State) (q : Nat) (l : List Cmd) : Bool :=
  s.rf F.holdState == 0 &&
    (if l.all (fun c => c.tiles == 0) then s.isReady && s.ctxLive (q / 8)
    else s.ctxMayRun (q / 8) && (List.range 16).any (fun n => s.coreFree n && s.pick n == some q))

/-- PARKED_RESUME (R370): a core would serve a queue next; the save record of its parked commands is checked. -/
def execParkedResume (q : QNum) (s : State) : Host.Outcome State Fault Refusal :=
  let q := q.val
  let l := (s.cmdsOf q).filter (fun c => c.parked)
  if l.isEmpty ∨ !s.mayResume q l then .next s
  else if (s.queue q).save.isEmpty then .next (forL l (fun c s => s.resumeKept c) s)
  else
    let t : State := match s.saveRecord q with
      | none => forL l (fun c s => s.setCmd (c.cannotResume 0x40)) s
      | some bs => forL l (fun c s => s.resumeOne bs c) s
    .next (t.tookInst 0 (s.rf F.grzSaveBase + 64 * q) 64)

/-! Pre-emption at admission (R371, R372). -/

/-- The core parks the commands of one context that it serves. -/
def State.parkServed (s : State) (n ctx : Nat) : State :=
  let k := s.core n
  let s := s.modCore n (fun c => { c with serving := k.serving.filter (fun p => p.1 / 8 == ctx) })
  (s.parkCore n).modCore n (fun c => { c with serving := k.serving.filter (fun p => p.1 / 8 != ctx), served := k.served })

/-- A served context has a started command with tiles left. -/
def State.servesWork (s : State) (n ctx : Nat) : Bool :=
  (s.core n).serving.any (fun p => p.1 / 8 == ctx && (match s.cmd p.1 p.2 with
    | some c => s.mayPark c
    | none => false))

/-- A tile of a context pre-empts what core `n` serves: it has a higher PRIO in the same partition. -/
def State.outranks (s : State) (n ctx : Nat) : Bool :=
  match (s.core n).served with
  | none => false
  | some c0 => c0 != ctx && s.rf (F.ctxPart c0) == s.rf (F.ctxPart ctx) && decide (s.rf (F.prio c0) < s.rf (F.prio ctx))

/-- Before core `n` admits a tile of a context: a change of partition parks what it served; a higher PRIO pre-empts. -/
def State.takeOver (s : State) (n ctx : Nat) : State :=
  match (s.core n).served with
  | none => s
  | some c0 =>
    if c0 = ctx then s
    else if s.rf (F.ctxPart c0) ≠ s.rf (F.ctxPart ctx) then s.parkCore n
    else if s.outranks n ctx ∧ s.servesWork n c0 then (s.parkServed n c0).inc (F.tsqPreempts n) 1
    else s

/-- A save record of the context that core `n` served waits for its memory port (R371). -/
def State.savesWait (s : State) (n : Nat) : Bool :=
  match (s.core n).served with
  | none => false
  | some c0 =>
    let a := s.rf F.grzSaveBase + 512 * c0
    s.waiting.any (fun r => r.op == 5 && r.inst && decide (a ≤ r.hpa) && decide (r.hpa < a + 512))

/-! The grant. -/

/-- Bind a context's window in a cluster: CSB_GRAN granules, the lowest free ones below the inlet reserve (R376, R378). -/
def State.bindCsb (s : State) (ctx cl gran : Nat) : State :=
  let free := (List.range (64 - s.rf (F.csbInlet cl))).filter (fun g => (tblFind s.csbMap (cl * 64 + g)).isNone)
  let mine := free.take gran
  let pairs : List (Nat × Nat) := (List.range mine.length).zip mine
  let m := pairs.foldl (fun m e => tblIns m (cl * 64 + e.2) (ctx * 64 + e.1 + 1)) s.csbMap
  let s : State := { s with csbMap := m }
  let s := s.wf (F.clCsbFree cl) (s.rf (F.clCsbFree cl) - mine.length)
  s.wf (F.csbBound ctx) (setBits (s.rf (F.csbBound ctx)) cl 1 1)

/-- Grant a reservation at once: budget, blocks from the FIFO, window, locks. The blocks answer. -/
def State.grant (s : State) (n p : Nat) (c : Cmd) (a : Ask) : List Nat × State :=
  let ids := s.kvd.fifo.take a.kv
  let s := { s with kvd := { s.kvd with fifo := s.kvd.fifo.drop a.kv, locks := s.kvd.locks ++ a.locks.map (fun i => (c.qn, c.slot, i)) } }
  let s := (s.wf (F.pReads p) (s.rf (F.pReads p) + a.reads)).wf (F.pKv p) (s.rf (F.pKv p) + ids.length)
  let s := if a.gran = 0 then s else s.bindCsb c.ctx (n / 4) a.gran
  (ids, s.poolLeave (c.qn, c.slot, c.next))

/-! The start. -/

/-- The TSQ page shows the tile (Table 19.9). -/
def State.showTile (s : State) (n : Nat) (t : Tile) : State :=
  ((((s.wf (F.tsqCtx n) t.ctx).wb (F.tsqActive n) true).wf (F.tsqKind n) t.kind).wf (F.tsqQueue n) t.qn).wf (F.tsqIndex n) t.index

/-- The engine's pages show the tile. -/
def State.showEngine (s : State) (n : Nat) (t : Tile) : State :=
  let x : Tx := ⟨s, n, t⟩
  match t.kind with
  | 0 =>
    let s := (((s.wb (F.mxeActive n) true).wf (F.mxeCtx n) t.ctx).wf (F.mxeRate n) (Mxe.rate x)).wb (F.mxeAccMode n) (!Mxe.isInt x)
    let s := (((s.wf (F.mxePass n) 0).wf (F.mxeLoadGen n) 0).wf (F.mxeStreamGen n) 0).showArr n x ⟨0, 0, 0, 0⟩
    let s := ((s.wf (F.wduPhase n) 1).wf (F.wduSource n) (Mxe.wsrc x)).wf (F.wduFormat n) (Mxe.wfmt x)
    let s := s.modCore n (fun k => { k with fq := 0 })
    if (s.core n).act = 1 ∨ (s.core n).act = 2 then s else s.mxeStart n
  | 1 =>
    let s := ((s.wb (F.ateActive n) true).wf (F.atePhase n) 1).wf (F.atePins n) 0
    (((s.wf (F.ateGroup n) 0).wf (F.ateCtx n) t.ctx).wf (F.ateOp n) (Ate.op x)).wf (F.ateBlock n) (Ate.blk0 x)
  | 2 =>
    let s := ((s.wb (F.vxeActive n) true).wf (F.vxePhase n) (if Vxe.op x = 3 then 1 else 2)).wb (F.vxeMode16 n) (Vxe.mode16 x)
    (s.wf (F.vxeCtx n) t.ctx).wf (F.vxeOp n) (Vxe.op x)
  | 4 => ((s.wf (F.wduPhase n) 2).wb (F.cbsValid n t.half) false).wb (F.cbsLoading n t.half) true
  | _ => s

/-- A run-on read of core `n` serves the tile that its core now runs. -/
def Client.taken (n : Nat) : Client → Client
  | .runOn m a => if m = n then .tile n a else .runOn m a
  | c => c

/-- Run-on data, held or on their way, serve the tile that they were read for, and are discarded otherwise (R139, R141): the lines held
and the lines awaited. -/
def State.takeAhead (s : State) (n : Nat) (t : Tile) : (List Staged × List (Access × Bool)) × State :=
  let k := s.core n
  if t.kind == 0 && k.runFor == some (t.qn, t.slot, t.index) then
    let out := (s.runOnOut n).map (fun a => (a, false))
    let s : State := { s with txns := s.txns.map (fun x => { x with client := x.client.taken n }),
                              waiting := s.waiting.map (fun r => { r with client := r.client.taken n }) }
    ((if k.runOn = 0 then [] else k.ahead, out), s.modCore n (fun k => { k with runOn := 0, ahead := [], runFor := none }))
  else (([], []), s.dropAhead n)

/-- A half that has been loaded for a tile no longer waits for it. -/
def CbsHalf.unstamp (h : CbsHalf) (drop : Bool) : CbsHalf := if drop then { h with loaded := none } else h

/-- What was loaded for a tile by its codebook tiles stands until that tile, or another one on the core, is admitted (R129). -/
def State.unstamp (s : State) (n : Nat) (t : Tile) : State :=
  let mine (h : CbsHalf) : Bool := h.loaded == some (t.qn, t.slot, t.index)
  let drop (m : Nat) (h : CbsHalf) : Bool := if m = n then t.kind != 4 || !mine h else t.kind == 0 && mine h
  forN 16 (fun m s => s.modCore m (fun k => { k with h0 := k.h0.unstamp (drop m k.h0), h1 := k.h1.unstamp (drop m k.h1) })) s

/-- The tile uses its codebook halves: the stamp of their last use (R131). -/
def State.useHalves (s : State) (n : Nat) (x : Tx) : State :=
  forL x.cbHalves (fun h s => s.modCore n (fun k =>
    if h.1 = 0 then { k with h0 := { k.h0 with used := s.free + 1 } } else { k with h1 := { k.h1 with used := s.free + 1 } })) s

/-- A tile is placed on core `n`: the core's pages and its command show it. -/
def State.placeTile (s : State) (n : Nat) (t : Tile) : State :=
  let (ahead, s) := s.takeAhead n t
  let s := s.unstamp n t
  let x : Tx := ⟨s, n, t⟩
  let half := if t.kind = 0 then ((x.cbHalves.head?).map (fun h => h.1)).getD 0 else t.half
  let s := if t.kind = 0 then s.useHalves n x else s
  let en : Bool := if t.kind = 0 then s.rb (F.runOnEn n) else s.rb (F.skipEn n)
  let t : Tile := { t with staged := ahead.1, waits := ahead.2, half := half, seed := s.free, skipEn := en }
  let s : State := { s with free := s.free + 1 }
  let s := ((s.showTile n t).showEngine n t).progress n 4
  let who := (t.qn, t.slot)
  let s := s.modCore n (fun k => { k with
    tile := some t, idle := 0, serving := if k.serving.contains who then k.serving else k.serving ++ [who], served := some t.ctx,
    turn := t.qn % 8 + 1, lastLent := if !bit k.own 7 && k.own % 64 == t.part then k.lastLent else t.part })
  if t.kind = 4 then s else s.modCmd t.qn t.slot (fun c =>
    let e := c.ended.filter (fun j => j != t.index)
    { c with next := t.index + 1, ended := e, tilesDone := e.length })

end Sys2Proof.Machine
end

