-- ==== Sys2Proof/Machine/Tiles.lean ====
section
/-! DEFINITION. The commands of tiles: admission, the end of a walk, a read response, the normal end (08_commands_and_tiles.md,
11_segments_and_translation.md, 12_memory_ports_ordering_integrity.md). -/

namespace Sys2Proof.Machine

/-! TILE_ADMISSION. -/

/-- A tile that is not admitted meets a failed read of its entry, window block or record: a fault switches the context out, and
another failure stops the tile on an error. -/
def State.fetchFails (s : State) (c : Cmd) : Fetch → State
  | .ok _ => s
  | .err st => s.tileFails c.qn c.slot c.next st
  | .fault seg off k st l ipa => ((s.switchOut c.qn c.slot c.next seg off 1 k st l ipa).parkSwitched c.ctx).boundaries

/-- An empty tile is skipped (R299). -/
def State.skipTile (s : State) (c : Cmd) : State :=
  let c := { c.endTile c.next false with next := c.next + 1 }
  (s.setCmd c).tilesEnd c

/-- The window block of a VXE tile that needs one, as the admission checks read it (Table 7.3): from memory, from the context's window,
or from the CSP, whose bytes are dead at a tile's start. -/
def State.auxBlock (s : State) (x : Tx) : Except Fetch (Option Win) × State :=
  let a := Vxe.aux x
  if !x.needsAux then (.ok none, s)
  else if aSrc a = 0 then
    match s.tileRead x.t.ctx a 48 with
    | (.ok b, s) => (.ok (some (winOf b)), s)
    | (f, s) => (.error f, s)
  else match x.ctl a 0 48 with
    | .ok b => (.ok (some (winOf b)), s)
    | .error (.err st _ _) => (.error (.err st), s)
    | .error _ => (.error (.err 0x11), s)

/-- What the checks leave of the next tile: a tile to be admitted, or the machine after a rejection, a skip or a failed read. -/
abbrev Checked := Except State (Tile × State)

/-- A tile of a TDT whose window block, if it takes one, has been read (R653, R299). -/
def State.checkBody (s : State) (n : Nat) (c : Cmd) (x : Tx) (w : Option Win) : Checked :=
  match x.checks w with
  | some r => .error (s.rejectTile n c r)
  | none =>
    if x.isEmpty then .error (s.skipTile c)
    else .ok ({ x.t with kind := Hd.kind x, reads := Hd.reads x, csbKib := Hd.csbKib x, beats := x.workBeats w }, s)

/-- Check a tile of a TDT (R653, R241, R299). -/
def State.checkTdt (s : State) (n : Nat) (c : Cmd) : Checked :=
  match s.tileRead c.ctx (c.fld 48 8 % 2 ^ 52 / 256 * 256 + 256 * c.next) 256 with
  | (.ok e, s) =>
    let x := s.tdtTx n c e
    match x.preChecks with
    | some r => .error (s.rejectTile n c r)
    | none =>
      match s.auxBlock x with
      | (.error f, s) => .error (s.fetchFails c f)
      | (.ok w, s) => s.checkBody n c { x with s := s } w
  | (f, s) => .error (s.fetchFails c f)

/-- A tile that Broxa generates for a directory command: its work beats follow from the sequence record (R221, R229). -/
def State.dirTile (s : State) (n : Nat) (c : Cmd) (r : Seq) : Checked :=
  let ops := c.bytes.drop 48
  let p := s.rf (F.ctxPart c.ctx)
  if c.opcode = 3 then
    let beats := App.beats (fldOf ops 30 2) r.dim
    if 16384 < beats then .error (s.rejectTile n c ⟨0x11, pgTsq n, c.ctx⟩)
    else .ok (newTile c p 5 1 0 0 beats ops, s)
  else
    let k := (dirPlan c.opcode (dirArg c.opcode ops) r).count c.next
    .ok (newTile c p 6 1 0 0 (4 * k + 96) (ops.take 79 ++ [BitVec.ofNat 8 c.opcode]), s)

/-- The command takes its locks with its first tile (R220): it does not hold them yet, and they are free. -/
def State.locksNow (s : State) (c : Cmd) : Bool :=
  c.next == 0 && !s.kvd.locks.any (fun l => l.1 == c.qn && l.2.1 == c.slot) && c.lockIds.all (fun i => !s.kvd.locks.any (fun l => l.2.2 == i))

/-- The child's record of a fork; of another command the record itself. -/
def State.childRecord (s : State) (c : Cmd) (r : Seq) : Except Fetch Seq × State :=
  if c.opcode ≠ 4 then (.ok r, s)
  else match s.tileRead c.ctx (c.record 8) 64 with
    | (.ok b, s) => (.ok (seqOf b), s)
    | (f, s) => (.error f, s)

/-- Check a tile of a directory command. Before the first one, once no other command holds its records, the checks of Table 6.8 are made
on the records as they now stand (R176, R219). -/
def State.checkDir (s : State) (n : Nat) (c : Cmd) : Checked :=
  match s.tileRead c.ctx (c.record 0) 64 with
  | (.ok b, s) =>
    let r := seqOf b
    if !s.locksNow c then s.dirTile n c r
    else match s.childRecord c r with
      | (.error f, s) => .error (s.fetchFails c f)
      | (.ok ch, s) =>
        let st := c.dirStatus (s.rf F.slotBytes) r ch
        if st ≠ 0 then .error (s.setCmd (c.done st))
        else if c.dirCount r = 0 then .error (s.dirDone { c with tiles := 0 })
        else (s.setCmd { c with tiles := c.dirCount r }).dirTile n { c with tiles := c.dirCount r } r
  | (f, s) => .error (s.fetchFails c f)

/-- The Drover of a cluster hands it work: while it does not run, the cluster's cores go on only with commands that they serve
(Table 1.5). -/
def State.droverHands (s : State) (n : Nat) (c : Cmd) : Bool :=
  s.rb (F.dvRunning (n / 4))
    || (List.range 4).any (fun i => (s.core (n / 4 * 4 + i)).serving.contains (c.qn, c.slot))

/-- Grant a tile its reservation and place it on core `n`; a codebook tile goes before an MXE tile whose codebook is not resident (R129). -/
def State.grantPlace (s : State) (n : Nat) (c : Cmd) (t : Tile) (a : Ask) : State :=
  match (if t.kind = 0 then (⟨s, n, t⟩ : Tx).cbMissing else none) with
  | some h =>
    let (_, s) := s.grant n t.part c a
    s.placeTile n { t with kind := 4, half := h, cspKib := 0, csbKib := 0, beats := 2048 }
  | none =>
    let (ids, s) := s.grant n t.part c a
    s.placeTile n { t with kv := ids }

/-- Core `n` leaves what it served and takes a tile; one that pre-empts waits until the memory port has accepted the save records
(R371). -/
def State.admitPlace (s : State) (n : Nat) (c : Cmd) (t : Tile) (a : Ask) : State :=
  let u := s.takeOver n c.ctx
  if s.outranks n c.ctx ∧ u.savesWait n then u else u.grantPlace n c t a

/-- Admit a tile that is core `n`'s choice: a gated core switches on first (R565), another one starts it. -/
def State.admitTile (s : State) (n : Nat) (c : Cmd) (t : Tile) (a : Ask) : State :=
  if !s.domOn (coreDom n) then (if s.rb (F.gated n) then s.modCore n (fun k => { k with powering := true }) else s)
  else (s.admitPlace n c t a).advance n

/-- A checked tile waits, or is admitted when it is the core's choice and its whole reservation is granted. -/
def State.waitOrAdmit (s : State) (n : Nat) (c : Cmd) (t : Tile) : State :=
  let x : Tx := ⟨s, n, t⟩
  if !s.orderMet c x c.next then s
  else
    let a := s.askOf n c x
    let (granted, s) := s.tryAsk n t.part a (c.qn, c.slot, c.next)
    if granted ∧ s.droverHands n c ∧ s.coreFree n ∧ s.pick n = some c.qn then s.admitTile n c t a else s

/-- A core checks a tile that may run on it: a core granted to the partition where there is one, else any core (R290, R379). -/
def State.mayTry (s : State) (n p : Nat) (c : Cmd) : Bool :=
  !s.otherCluster n c && (s.coreGrants n p
    || !(List.range 16).any (fun m => s.coreGrants m p && !s.otherCluster m c))

/-- The checks of a command's next tile: of a table's entry, or of the descriptor that the command holds. -/
def State.checkTile (s : State) (n : Nat) (c : Cmd) : Checked := if c.opcode = 1 then s.checkTdt n c else s.checkDir n c

/-- The core's TSQ acts at its boundary no further than a quiesce that is pending or in force (R21). -/
def State.quiesces (s : State) (n : Nat) : Bool := (s.core n).tile.isNone && ((s.core n).quiesceReq != 0 || s.rb (F.tsqQuiesced n))

/-- TILE_ADMISSION (R290 to R293): the next tile of a queue is checked, and is admitted on a core when it may be. -/
def execTileAdmission (q : QNum) (core : CoreId) (s : State) : Host.Outcome State Fault Refusal :=
  let n := core.val
  if !s.ctxMayRun (q.val / 8) ∨ s.rf F.holdState ≠ 0 ∨ s.quiesces n then .next s
  else
    let s := s.pruneWaiters
    match s.frontCmd q.val with
    | none => .next s
    | some c =>
      if !s.mayTry n (s.rf (F.ctxPart c.ctx)) c then .next s
      else match s.checkTile n c with
        | .error s => .next s
        | .ok (t, s) => .next (s.waitOrAdmit n ((s.cmd c.qn c.slot).getD c) t)

/-! The other commands. -/

/-- The engines of a core go on: no reset freezes it. -/
def State.coreRuns (s : State) (n : Nat) : Bool := (s.core n).engRst == 0 && !(s.cluster (n / 4)).resetting

/-- An awaited access of core `n`'s tile gets the answer of the walk that it has joined (R400). -/
def State.walkGive (s : State) (n : Nat) (r : Combined) (a : Access) : State :=
  match s.tileOn n with
  | none => s
  | some t =>
    if !t.waits.contains (a, true) then s
    else match r.use ((s.rf (F.segBase t.ctx a.seg) + a.off) % 2 ^ 48) a.right with
      | .ok h => (s.takeWalk (some n) r).issueRead n t a h
      | .fault k st lv ipa => s.stopFault n t a k st lv ipa
      | .seg st => s.stopErr n t st 0 0
      | .poison => s.stopErr n t 0x30 0 0

/-- The accesses of a cluster that have joined the walk for a page, by core; a reset freezes its core's. -/
def State.joined (s : State) (cl ctx page : Nat) : List (Nat × Access) :=
  (List.range 4).flatMap (fun i => match s.tileOn (4 * cl + i) with
    | some t => if t.ctx = ctx ∧ s.coreRuns (4 * cl + i) then
        (t.waits.filter (fun w => w.2 && s.pageOf ctx w.1 == page)).map (fun w => (4 * cl + i, w.1)) else []
    | none => [])

/-- TRANSLATION_WALK_DONE (R397, R399 to R401, R408): the oldest walk that core `n`'s tile awaits ends, for every access of the cluster
that has joined it. -/
def execTranslationWalkDone (core : CoreId) (s : State) : Host.Outcome State Fault Refusal :=
  let n := core.val
  match s.tileOn n with
  | none => .next s
  | some t =>
    match t.waits.find? (fun w => w.2) with
    | none => .next s
    | some w =>
      if !s.coreRuns n then .next s
      else
        let l := s.joined (n / 4) t.ctx (s.pageOf t.ctx w.1)
        match s.walkFill (some (n / 4)) t.ctx ((s.rf (F.segBase t.ctx w.1.seg) + w.1.off) % 2 ^ 48) with
        | (r, s) =>
          let s := forL l (fun e s => s.walkGive e.1 r e.2) s
          .next (forL ((l.map (fun e => e.1)).eraseDups) (fun m s => s.advanceMore m) s)

/-- What a read's response tells of its line: the bytes, with what its port had sent to the line and what it has accepted since, and
whether they are bad (R420, R435). -/
def Txn.readLine (t : Txn) (data : Line) (ok poison : Bool) : List Byte × Bool :=
  let r := t.before.foldl (laySent (t.hpa / 64 * 64)) (natLe 64 data.toNat, poison)
  (r.1, !ok || r.2)

/-- Memory's line after a response that carries data. -/
def State.storeLine (s : State) (t : Txn) (data : Line) (ok poison : Bool) : State :=
  if !ok then s
  else
    let r := t.after.foldl (laySent (t.hpa / 64 * 64)) (t.before.foldl (laySent (t.hpa / 64 * 64)) (natLe 64 data.toNat, poison))
    ({ s with mem := memPut s.mem (t.hpa / 64 * 64) r.1 }).setPoison t.hpa r.2

/-- MP_READ_RESPONSE (R420, R435, R596): the fabric answers a read with a line, poisoned or not, or with an error; the line goes to the
tile or the run-on buffer that asked for it. -/
def execMpReadResponse (port : PortId) (id : Fin 2048) (data : Line) (ok poison : Bool) (s : State) : Host.Outcome State Fault Refusal :=
  match s.txn port.val id.val with
  | none => .next (s.dropOwed port.val id.val)
  | some t =>
    if t.op ≠ 0 then .next s
    else if s.flightBreaks t then .next (s.consistencyFail false)
    else
      let (raw, bad) := t.readLine data ok poison
      let s := ((s.retireTxn t).storeLine t data ok poison).inc (F.mpReadBytes t.port) 64
      let s := if !ok || poison then (s.inc (F.mpFabErr t.port) 1).raise (pgMp t.port) 0 else s
      let s := if bad then s.mpErr t.port 0x30 t.ctx t.slot 1 t.inst t.hpa else s
      let s := s.serveWaiting
      let v := s.delivered t.slot t.hpa raw ok bad
      match t.client with
      | .tile n a => .next (v.2.giveLine n a t.hpa v.1 bad)
      | .runOn n a => .next (v.2.deliverAhead n a t.hpa v.1 bad)
      | .runDrop n => .next (s.inc (F.wduDrop n) 1)
      | .command _ _ | .record _ _ | .signal _ _ | .inlet _ _ | .nobody => .next s

/-- TILE_END_NORMAL (R294): the last output of a core's tile is accepted, and the core reaches a tile boundary. -/
def execTileEndNormal (core : CoreId) (s : State) : Host.Outcome State Fault Refusal :=
  let n := core.val
  match s.tileOn n with
  | none => .next s
  | some t => if t.ready ∧ ¬ t.aborting ∧ s.coreRuns n then .next (s.endTile n t) else .next s

end Sys2Proof.Machine
end

