-- ==== Sys2Proof/Machine/KvCmds.lean ====
section
/-! DEFINITION. The directory commands, the allocator's duties and WEIGHT_HINT (06_kv_block_directory.md R200, R213, R214, R219, R226 to
R231, 04_weight_streams_and_codebooks.md R142 to R146). -/

namespace Sys2Proof.Machine

/-! Phase 4 of the directory commands. -/

/-- The directory command of a queue whose checks are still to be made, unless its context is not ACTIVE, is held, or waits for a
resume. -/
def State.dirCmd (s : State) (q op : Nat) : Option Cmd :=
  match s.phase4 q op with
  | some c =>
    if s.isReady ∧ s.rf (F.ctxState c.ctx) = 1 ∧ ¬ s.xlt.holds.any (fun h => h.1 == c.ctx) ∧ c.faulted.isNone ∧ s.rf F.holdState = 0
        ∧ ¬ (s.rf F.trust = 3 ∧ s.rb (F.confid c.ctx)) then some c else none
  | none => none

/-- A check ends a directory command. -/
def State.dirEnds (s : State) (c : Cmd) (st : Nat) : State :=
  s.setCmd (c.done st)

/-- The command goes on to its tiles; one without entries has only its record left to write. -/
def State.dirTiles (s : State) (c : Cmd) (n : Nat) : State :=
  let c := { c with tiles := n, acted := true }
  if n = 0 then s.dirDone c else s.setCmd c

/-- Read a record and go on with it; a failed read ends the command, a fault switches the context out (R208, R408). -/
def State.withRecord (s : State) (c : Cmd) (o : Nat) (act : State → Seq → State) : State :=
  match s.tileRead c.ctx (c.record o) 64 with
  | (.ok b, s) => act s (seqOf b)
  | (f, s) => s.fetchFails c f

/-- End with a status that is not 0, or go on to the tiles of a plan over the record. -/
def State.dirPlanned (s : State) (c : Cmd) (st : Nat) (r : Seq) : State :=
  if st ≠ 0 then s.dirEnds c st else s.dirTiles c (c.dirCount r)

/-- KV_APPEND (R219, R221, R196): its checks, then one tile per KV head. -/
def execKvAppend (q : QNum) (s : State) : Host.Outcome State Fault Refusal :=
  match s.dirCmd q.val 0x03 with
  | none => .next s
  | some c => .next (s.withRecord c 0 (fun s r => s.dirPlanned c (appendCheck (s.rf F.slotBytes) c r) r))

/-- KV_FORK (R219, R226, R229). -/
def execKvFork (q : QNum) (s : State) : Host.Outcome State Fault Refusal :=
  match s.dirCmd q.val 0x04 with
  | none => .next s
  | some c => .next (s.withRecord c 0 (fun s p => s.withRecord c 8 (fun s ch => s.dirPlanned c (forkCheck (dirArg 4 c.ops) c.dirReserved p ch) p)))

/-- KV_FREE (R219, R227, R229). -/
def execKvFree (q : QNum) (s : State) : Host.Outcome State Fault Refusal :=
  match s.dirCmd q.val 0x05 with
  | none => .next s
  | some c => .next (s.withRecord c 0 (fun s r => s.dirPlanned c (freeCheck c.dirReserved r) r))

/-- KV_TRIM (R219, R228, R229). -/
def execKvTrim (q : QNum) (s : State) : Host.Outcome State Fault Refusal :=
  match s.dirCmd q.val 0x06 with
  | none => .next s
  | some c => .next (s.withRecord c 0 (fun s r => s.dirPlanned c (trimCheck (dirArg 6 c.ops) c.dirReserved r) r))

/-! The allocator (R213, R214) and the reclaim scan (R231). -/

/-- Blocks in the pinfold. -/
def State.pinfold (s : State) : Nat :=
  (s.kvd.pins.filter (fun p => match s.dirRaw p.1 with
    | some e => e.st == 4
    | none => false)).length

/-- KV_FULL (R213): a waiting append whose reservation is more than the FIFO, the ring and the pinfold hold together completes. -/
def execKvFull (q : QNum) (s : State) : Host.Outcome State Fault Refusal :=
  match s.frontCmd q.val with
  | none => .next s
  | some c =>
    let who := (c.qn, c.slot, c.next)
    let need := App.blocks (fldOf c.ops 30 2)
    if s.isReady ∧ s.rb (F.dvRunning 2) ∧ c.opcode = 3 ∧ s.grz.waiters.contains (Pool.kv.code, who)
        ∧ s.kvd.fifo.length + s.ringCount + s.pinfold < need then
      .next ((((s.duty 2).raise pgKvd 2).tileFails c.qn c.slot c.next 0x32).poolLeave who)
    else .next s

/-- KV_FIFO_REFILL (R213, R214): while Drover 2 runs, the oldest ID of the free ring goes to the free FIFO and is QUEUED; one
that is QUEUED already fails a consistency check (R545). -/
def execKvFifoRefill (s : State) : Host.Outcome State Fault Refusal :=
  if s.isReady ∧ s.rb (F.dvRunning 2) ∧ s.ringCount ≠ 0 ∧ s.kvd.fifo.length < 4096 then
    match s.readHpa 0 (s.ringAddr s.kvd.ringHead) 4 with
    | none => .next ((s.tookInst 0 (s.ringAddr s.kvd.ringHead) 4).sharedPoison false)
    | some b =>
      let id := leNat b
      let s := s.tookInst 0 (s.ringAddr s.kvd.ringHead) 4
      let s : State := { s with kvd := { s.kvd with ringHead := (s.kvd.ringHead + 1) % 2 ^ 32 } }
      match s.dirGet none id with
      | .error s => .next s
      | .ok (e, s) =>
        if e.st = 2 then .next (s.consistencyFail false)
        else
        let s := s.dirPut none id { e with st := 2 }
        .next ({ s with kvd := { s.kvd with fifo := s.kvd.fifo ++ [id] } }.duty 2)
  else .next s

/-- Release a context's blocks among the IDs of a list. -/
def State.reclaimAll (s : State) (ctx : Nat) : List Nat → KvR
  | [] => .ok s
  | id :: l =>
    match s.reclaimOne ctx id with
    | .error s => .error s
    | .ok s => s.reclaimAll ctx l

/-- KV_RECLAIM_DONE (R231): the scan of the torn-down context ends, and that of the next one starts. -/
def execKvReclaimDone (s : State) : Host.Outcome State Fault Refusal :=
  match s.kvd.reclaims with
  | [] => .next s
  | ctx :: rest =>
    if !s.rb F.reclaimBusy then .next s
    else match s.reclaimAll ctx (List.range (s.rf F.dirCount)) with
      | .error s => .next s
      | .ok s =>
        let s : State := { s.wb F.reclaimBusy false with kvd := { s.kvd with reclaims := rest } }
        .next (s.raise pgKvd 5).reclaimNext

/-! WEIGHT_HINT (R142 to R146). -/

/-- Probe the pages of a range in ascending order: a page with the R right is cached, a page without a translation is reported. The
second part tells that a walk met poison, after which no page is probed. -/
def State.hintProbe (s : State) (c : Cmd) (seg : Nat) : List Nat → State × Bool
  | [] => (s, false)
  | o :: l =>
    let eva := (s.rf (F.segBase c.ctx seg) + o) % 2 ^ 48
    let (hit, s) := match s.cached none c.ctx eva with
      | (some t, s) => (t.use eva 1, s)
      | (none, s) =>
        let r := walk s [] c.ctx eva
        let s := s.walked none r.1 r.2
        (r.1.use eva 1, match r.1, r.1.use eva 1 with
          | .ok t, .ok _ => s.tlbFill t
          | _, _ => s)
    match hit with
    | .poison => (s, true)
    | .fault k st lv i =>
      if k = 3 then s.hintProbe c seg l
      else (s.queueReport ⟨eva, seg, i, c.ctx, k, st, lv, true, 1, c.qn, c.slot, s.now⟩).hintProbe c seg l
    | .ok _ => s.hintProbe c seg l
    | .seg _ => s.hintProbe c seg l

/-- WEIGHT_HINT (R142 to R145): the probe, and the end once no report of the command waits to be posted. -/
def execWeightHint (q : QNum) (s : State) : Host.Outcome State Fault Refusal :=
  match s.phase4 q.val 0x02 with
  | none => .next (s.hintEnds q.val)
  | some c =>
    let a := c.fld 48 8
    let seg := bits a 48 4
    let o := a % 2 ^ 48 / 2 ^ 21 * 2 ^ 21
    let n := c.fld 56 4
    let lim := s.rf (F.segLimit c.ctx seg)
    if n = 0 then .next (s.setCmd (c.done 0x01))
    else if 4096 < n then .next (s.setCmd (c.done 0x11))
    else if lim * 2 ^ 21 < o + n * 2 ^ 21 then .next (s.setCmd (c.done 0x22))
    else
      let (s, bad) := s.hintProbe c seg ((List.range n).map (fun i => o + i * 2 ^ 21))
      .next ((s.setCmd { c with acted := true, status := if bad then 0x30 else 0x00 }).hintEnds q.val)

end Sys2Proof.Machine
end

