-- ==== Sys2Proof/Machine/LinkOps.lean ====
section
/-! DEFINITION. Coachway ports: flits, their protection, credits, replay, and the arrival of a flit
(13_coachway_and_flock.md R447 to R462). -/

namespace Sys2Proof.Machine

/-! Flits (Table 13.2). -/

/-- The 16 bytes of a header, with the fields of the hop: LSEQ, ACK_SEQ, CR_Q and CR_COUNT. -/
def Hdr.bytes (h : Hdr) (lseq ack crq crn : Nat) : List Nat :=
  [h.dst % 64 + h.cls % 4 * 64, h.src % 64 + h.dl % 2 * 64, h.typ % 16, h.flock % 256] ++ natL 2 (h.ctx % 4096) ++ [h.key % 128]
    ++ natL 2 (h.gen % 65536) ++ [lseq % 256, ack % 256, crq % 8 + crn % 32 * 8, h.len % 256, h.step % 128]
    ++ natL 2 (h.opId % 1024 + h.group % 64 * 1024)

/-- The header that a flit's bits spell. -/
def hdrOf (x : Nat) : Hdr :=
  { dst := bits x 0 6, cls := bits x 6 2, src := bits x 8 6, dl := bits x 14 1, typ := bits x 16 4, flock := bits x 24 8,
    ctx := bits x 32 12, key := bits x 48 7, gen := bits x 56 16, len := bits x 96 8, step := bits x 104 7, opId := bits x 112 10,
    group := bits x 122 6 }

/-- The fields of the hop. -/
def flitLseq (x : Nat) : Nat := bits x 72 8
def flitAck (x : Nat) : Nat := bits x 80 8
def flitCrq (x : Nat) : Nat := bits x 88 3
def flitCrn (x : Nat) : Nat := bits x 91 5

/-- The bytes of a flit. -/
def flitBytes (f : Flit) : List Nat := natL 256 f.toNat

/-- The class in which a type belongs: 0 REQ, 1 RSP, 2 MGMT (Table 13.3); none for a reserved type. IDLE and NAK are hop
only. -/
def typeClass (t : Nat) : Option Nat :=
  if t = 7 ∨ t = 9 ∨ t = 10 ∨ t = 12 then some 0
  else if t = 8 ∨ t = 11 then some 1
  else if t = 2 ∨ t = 3 ∨ t = 4 ∨ t = 5 ∨ t = 6 ∨ t = 13 then some 2
  else none

/-- The receive queue of a flit (R460). -/
def Hdr.queue (h : Hdr) : Nat := (2 * h.cls + h.dl) % 6

/-! Protection (R450 to R452). -/

/-- The nonce of a port's flit: the member's number, the port, the count. -/
def flitNonce (member port count : Nat) : List Nat := [member % 64, port % 4, 0, 0] ++ natL 8 count

/-- The 32-byte key of a flit on a port: the session key, all zero while the port is KEYING (R495), or the slot's key. -/
def State.flitKey (s : State) (p key : Nat) : List Nat :=
  if key = 127 then natB 32 (if s.rf (F.lkState p) = 3 then (s.link p).key.getD 0 else 0)
  else natB 32 (tblGet 0 s.keys key)

/-- The count under a key, and the link with the count one higher (R452). -/
def Link.nextCount (k : Link) (key : Nat) : Nat × Link :=
  if key = 127 then (k.count, { k with count := k.count + 1 })
  else (tblGet 0 k.slotCount key, { k with slotCount := tblPut 0 k.slotCount key (tblGet 0 k.slotCount key + 1) })

/-- Seal a flit for a port: the bits sent, and the state with the count used (R448, R450). -/
def State.sealFlit (s : State) (p : Nat) (h : Hdr) (pay : List Byte) (lseq crq crn : Nat) : Flit × State :=
  let k := s.link p
  let hb := h.bytes lseq k.rxSeq crq crn
  let (n, k') := k.nextCount h.key
  let (ct, tag) := gcmSeal (s.flitKey p h.key) (flitNonce (s.rf F.flkMember) p n) hb (toNats ((pay ++ List.replicate 224 0).take 224))
  (BitVec.ofNat 2048 (lNat (hb ++ ct ++ tag)), s.setLink p k')

/-- Open a flit's payload under a key and the nonce it was sealed with. -/
def openFlit (key nonce : List Nat) (f : Flit) : Option (List Byte) :=
  let b := flitBytes f
  (gcmOpen key nonce (b.take 16) ((b.drop 16).take 224) (b.drop 240)).map ofNats

/-! Sending (R447, R454 to R456). -/

/-- Show HELD and the credits of a port (Table 13.10): each field follows the credits held up and down and stops at 31; the table does not say
whether a saturated one falls again (DESIGN CHOICE, assumption 120). -/
def State.showLink (s : State) (p : Nat) : State :=
  let k := s.link p
  (forN 6 (fun q s => s.wf (F.lkCredit p q) (min 31 (k.cred.getD q 0))) s).wf (F.lkHeld p) k.held.length

/-- The credits that the next flit of a port returns: CR_Q, CR_COUNT, and the link without them. -/
def Link.takeOwed (k : Link) : Nat × Nat × Link :=
  match (List.range 6).find? (fun q => k.owe.getD q 0 != 0) with
  | none => (7, 0, k)
  | some q => let n := min 31 (k.owe.getD q 0); (q, n, { k with owe := k.owe.set q (k.owe.getD q 0 - n) })

/-- A flit has left receive queue `q` of port `p`: its credit is owed to the peer (R454). -/
def State.oweCredit (s : State) (p q : Nat) : State :=
  let k := s.link p
  s.setLink p { k with owe := k.owe.set q (k.owe.getD q 0 + 1) }

/-- A flit leaves port `p`: its queue's credit is owed; a flit of the reserved CLASS occupies none of the six queues (R449). -/
def State.oweFor (s : State) (p : Nat) (h : Hdr) : State := if h.cls < 3 then s.oweCredit p h.queue else s

/-- Whether a port may send a sequenced flit of a type into a queue now: UP, or KEYING for SPDM (R495). -/
def State.canSend (s : State) (p q typ : Nat) : Bool :=
  let k := s.link p
  (s.rf (F.lkState p) == 3 || (s.rf (F.lkState p) == 2 && typ == 13)) && decide (k.held.length < 64)
    && decide (0 < k.cred.getD q 0)

/-- The receive queue that a routed flit came through gets its place back. -/
def State.returnPlace (s : State) : Option (Nat × Nat) → State
  | some (i, iq) => s.oweCredit i iq
  | none => s

/-- Send one sequenced flit: it takes a credit and the next LSEQ, and it is held for resend. -/
def State.transmit (s : State) (p : Nat) (w : Waiting) : State :=
  let (crq, crn, k) := (s.link p).takeOwed
  let lseq := k.txSeq
  let (f, s) := (s.setLink p k).sealFlit p w.hdr w.pay lseq crq crn
  let k := s.link p
  let q := w.hdr.queue
  let s := s.setLink p { k with
    txSeq := (lseq + 1) % 256, held := k.held ++ [⟨0, w.hdr.key, lseq, f⟩], sent := f :: k.sent,
    cred := k.cred.set q (k.cred.getD q 0 - 1), ackStart := if k.held.isEmpty then s.now else k.ackStart }
  let s := if w.hdr.key = 127 then s else s.flightUp w.hdr.key
  let s := s.returnPlace w.via
  (s.inc (F.lkTx p) 1).showLink p

/-- Send what may be sent of the flits that wait, in order within each queue; the rest is answered. -/
def State.flushGo (s : State) (p : Nat) : List Waiting → List Nat → State × List Waiting
  | [], _ => (s, [])
  | w :: ws, blocked =>
    if blocked.contains w.hdr.queue || !s.canSend p w.hdr.queue w.hdr.typ then
      let (s, r) := s.flushGo p ws (w.hdr.queue :: blocked)
      (s, w :: r)
    else (s.transmit p w).flushGo p ws blocked

def State.flush (s : State) (p : Nat) : State :=
  let (s, r) := s.flushGo p (s.link p).waitQ []
  let k := s.link p
  s.setLink p { k with waitQ := r }

/-- Give a port a sequenced flit to send; a FAILED port discards and counts it (R457). -/
def State.linkSend (s : State) (p : Nat) (w : Waiting) : State :=
  if s.rf (F.lkState p) = 6 then
    let s := s.inc (F.lkDrops p) 1
    s.returnPlace w.via
  else
    let k := s.link p
    (s.setLink p { k with waitQ := k.waitQ ++ [w] }).flush p

/-- Send a NAK of the expected LSEQ, which is not held and takes no credit (R456). -/
def State.sendNak (s : State) (p : Nat) : State :=
  let (crq, crn, k) := (s.link p).takeOwed
  let h : Hdr := { dst := s.rf (F.lkPeer p), cls := 2, src := s.rf F.flkMember, dl := 0, typ := 1, flock := s.rf F.flockId, ctx := 0,
                   key := 127, gen := 0, len := 0, step := 0, opId := 0, group := 0 }
  let (f, s) := (s.setLink p k).sealFlit p h [] k.txSeq crq crn
  let k := s.link p
  (s.setLink p { k with sent := f :: k.sent }).inc (F.lkTx p) 1

/-! Failure and replay (R455, R457). -/

/-- A flit leaves the replay buffer: it is no longer in flight under its slot (R501). -/
def State.releaseHeld (s : State) (l : List Held) : State :=
  forL l (fun e s => if e.key = 127 then s else s.flightDown e.key) s

/-- Discard a flit that waits at a port. -/
def State.discardWaiting (s : State) (p : Nat) (count : Bool) (w : Waiting) : State :=
  (if count then s.inc (F.lkDrops p) 1 else s).returnPlace w.via

/-- The flits of port `p`'s receive queues that wait at port `o` are discarded (R457). -/
def State.dropVia (s : State) (p o : Nat) (count : Bool) : State :=
  let k := s.link o
  let mine (w : Waiting) : Bool := w.via.any (fun v => v.1 == p)
  let s := s.setLink o { k with waitQ := k.waitQ.filter (fun w => !mine w) }
  if count then s.inc (F.lkDrops p) (k.waitQ.filter mine).length else s

/-- Empty a port's buffers: the replay buffer, the flits that wait for it, whose receive queues' places are given back, and its receive
queues. Each discarded routed flit is counted. -/
def State.dropLink (s : State) (p : Nat) (count : Bool) : State :=
  let k := s.link p
  let s := s.releaseHeld k.held
  let s := forL k.waitQ (fun w s => s.discardWaiting p count w) s
  let k := s.link p
  let s := s.setLink p { k with held := [], waitQ := [], rejects := 0 }
  (forN 4 (fun o s => s.dropVia p o count) s).showLink p

/-- A port takes itself to FAILED (R457). -/
def State.linkFail (s : State) (p : Nat) : State := ((s.wf (F.lkState p) 6).dropLink p true).raise (pgLk p) 0

/-- Resend every held flit from the oldest; a fifth resend of one fails the port (R455, R457). -/
def State.resend (s : State) (p : Nat) : State :=
  let k := s.link p
  if k.held.any (fun e => decide (4 ≤ e.resent)) then s.linkFail p
  else
    let s := s.setLink p { k with held := k.held.map (fun e => { e with resent := e.resent + 1 }),
                                  sent := (k.held.map (fun e => e.flit)).reverse ++ k.sent, ackStart := s.now }
    (s.inc (F.lkRetries p) k.held.length).inc (F.lkTx p) k.held.length

/-! Arrival (R453). -/

/-- Take the ACK_SEQ and the credits of a flit. -/
def State.takeAck (s : State) (p : Nat) (f : Flit) : State :=
  let k := s.link p
  let x := f.toNat
  let n := match k.held with
    | [] => 0
    | e :: _ => (flitAck x + 256 - e.lseq) % 256
  let n := if k.held.length < n then 0 else n
  let s := s.releaseHeld (k.held.take n)
  let q := flitCrq x
  let cred := if q < 6 then k.cred.set q (k.cred.getD q 0 + flitCrn x) else k.cred
  let k := s.link p
  (((s.setLink p { k with held := k.held.drop n, cred := cred, ackStart := if n = 0 then k.ackStart else s.now }).flush p)).showLink p

/-- A flit passed R453: it counts as accepted, and the silence of R457 ends. -/
def State.accepted (s : State) (p : Nat) (f : Flit) : State :=
  let k := s.link p
  ((s.setLink p { k with lastRx := s.now }).inc (F.lkRx p) 1).takeAck p f

/-- Drop an accepted flit: it is counted, and its queue's place is given back. -/
def State.dropFlit (s : State) (p : Nat) (h : Hdr) : State := (s.inc (F.lkDrops p) 1).oweFor p h

/-- The port on which a flit to a member leaves, 4 LOCAL, 7 UNREACHABLE (R459). -/
def State.routeTo (s : State) (m : Nat) : Nat := s.rf (F.routePort m)

/-- Whether the link of port `p` is its dimension's wrap link at this member (R458). -/
def State.wrapPort (s : State) (p : Nat) : Bool :=
  let x := s.rf F.flkX
  let y := s.rf F.flkY
  if p = 0 then x + 1 == s.flock.w && decide (1 < s.flock.w)
  else if p = 1 then x == 0 && decide (1 < s.flock.w)
  else if p = 2 then y + 1 == s.flock.h && decide (1 < s.flock.h)
  else y == 0 && decide (1 < s.flock.h)

/-- DL on the outbound port: clear when a dimension is entered, set when its wrap link is crossed (R460). -/
def State.nextDl (s : State) (h : Hdr) (inPort : Option Nat) (p : Nat) : Nat :=
  let kept := match inPort with
    | some i => if i / 2 = p / 2 then h.dl else 0
    | none => 0
  if s.wrapPort p then 1 else kept

/-- Send a flit of this member's own by its route; to an UNREACHABLE member nothing is sent (R462). A flit to this member
itself does not leave it. -/
def State.sendTo (s : State) (h : Hdr) (pay : List Byte) : State :=
  let p := s.routeTo h.dst
  if p < 4 then s.linkSend p ⟨{ h with dl := s.nextDl h none p }, pay, none⟩ else s

/-- Forward an accepted flit: opened, it is sealed again for its outbound hop (R451, R459). -/
def State.forward (s : State) (inPort : Nat) (h : Hdr) (pay : List Byte) : State :=
  let p := s.routeTo h.dst
  if p < 4 then s.linkSend p ⟨{ h with dl := s.nextDl h (some inPort) p }, pay, some (inPort, h.queue)⟩ else s.dropFlit inPort h

/-- What a member does with an accepted flit that ends here. -/
abbrev Local := Nat → Hdr → List Byte → State → State

/-- A flit of the start-up, or of a port's keying, which is not routed by the table and carries no flock identity yet. -/
def State.early (s : State) (p : Nat) (h : Hdr) : Bool := h.typ == 2 || h.typ == 3 || (h.typ == 13 && s.rf (F.lkState p) == 2)

/-- Deliver an accepted flit, forward it by its route, or drop it (R449, R459, R462). -/
def State.deliver (s : State) (p : Nat) (h : Hdr) (pay : List Byte) (act : Local) : State :=
  if typeClass h.typ ≠ some h.cls then s.dropFlit p h
  else if s.early p h || (h.typ == 4 && !s.flock.joined) then (act p h pay s).oweCredit p h.queue
  else if h.flock ≠ s.rf F.flockId then s.dropFlit p h
  else if s.routeTo h.dst ≠ 4 then s.forward p h pay
  else if h.cls < 2 ∧ (s.rf (F.ctxState h.ctx) = 0 ∨ s.rf (F.ctxState h.ctx) = 3) then s.dropFlit p h
  else (act p h pay s).oweCredit p h.queue

/-- A flit outside the sequence whose tag was checked: IDLE or NAK (R453, R455). -/
def State.unseqOpened (s : State) (p : Nat) (f : Flit) (nak : Bool) : Option (List Byte) → State
  | none => s
  | some _ =>
    let s := s.accepted p f
    if nak then s.resend p else s

/-- An unsequenced flit (R453, R456): when its tag verifies its ACK_SEQ and credits are taken; a NAK asks for a resend. -/
def State.arriveUnseq (s : State) (p : Nat) (nonce : List Nat) (f : Flit) (nak : Bool) : State :=
  s.unseqOpened p f nak (openFlit (s.flitKey p 127) nonce f)

/-- A sequenced flit whose tag was checked: a bad tag is answered with NAK and counted, a good one delivered (R453, R455). -/
def State.seqOpened (s : State) (p : Nat) (f : Flit) (act : Local) : Option (List Byte) → State
  | none =>
    let k := s.link p
    let s := (s.setLink p { k with rejects := k.rejects + 1 }).sendNak p
    if 4 < k.rejects + 1 then s.linkFail p else s
  | some pay =>
    let h := hdrOf f.toNat
    let k := s.link p
    let s := (s.setLink p { k with rxSeq := (k.rxSeq + 1) % 256, rejects := 0 }).accepted p f
    s.deliver p h (pay.take (min 224 h.len)) act

/-- A sequenced flit (R453). -/
def State.arriveSeq (s : State) (p : Nat) (nonce : List Nat) (f : Flit) (act : Local) : State :=
  let h := hdrOf f.toNat
  let k := s.link p
  if flitLseq f.toNat ≠ k.rxSeq then s
  else if h.key ≠ 127 ∧ (s.rf (F.slState (h.key % 64)) ≠ 1 ∨ 64 ≤ h.key ∨ s.rf (F.slGen (h.key % 64)) ≠ h.gen) then
    let s := (s.setLink p { k with rxSeq := (k.rxSeq + 1) % 256, rejects := 0 }).takeAck p f
    ((s.inc (F.lkStale p) 1).raise (pgLk p) 1).oweFor p h
  else s.seqOpened p f act (openFlit (s.flitKey p h.key) nonce f)

/-- A flit arrives on a port of the block: an UP port takes every flit, a KEYING port only IDLE and SPDM flits (R495), and the
others none. -/
def State.arrive (s : State) (p : Nat) (nonce : List Nat) (f : Flit) (act : Local) : State :=
  let t := (hdrOf f.toNat).typ
  let st := s.rf (F.lkState p)
  if !s.isReady ∨ ¬ (st = 3 ∨ (st = 2 ∧ (t = 0 ∨ t = 13))) then s
  else if t ≤ 1 then s.arriveUnseq p nonce f (t == 1)
  else s.arriveSeq p nonce f act

/-- The row of a flit type takes a flit of its own type; one of a reserved type (R449) comes in any row. -/
def flitRow (f : Flit) (t : Nat) : Bool := let u := (hdrOf f.toNat).typ; u == t || decide (14 ≤ u)

/-- A header of this member's own. -/
def State.mkHdr (s : State) (dst cls typ ctx len : Nat) : Hdr :=
  { dst := dst, cls := cls, src := s.rf F.flkMember, dl := 0, typ := typ, flock := s.rf F.flockId, ctx := ctx, key := 127, gen := 0,
    len := len, step := 0, opId := 0, group := 0 }

end Sys2Proof.Machine
end

