-- ==== Sys2Proof/Machine/FlockOps.lean ====
section
/-! DEFINITION. Flock start-up: discovery, numbering, coordinates, route tables and rejoin (13_coachway_and_flock.md R458 to
R467, R483). The spec names the parts of the MGMT payloads and not their places; the places here are the model's (assumption
61). -/

namespace Sys2Proof.Machine

/-! Source routes. -/

/-- Pack up to 16 ports of two bits each. -/
def portsNat : List Nat → Nat
  | [] => 0
  | p :: ps => p % 4 + 4 * portsNat ps

/-- A DISCOVER payload: hops, hops taken, the ports out, the ports back. -/
def discBody (n k out back : Nat) : List Byte := natLe 1 n ++ natLe 1 k ++ natLe 4 out ++ natLe 4 back

/-- Port of hop `k` in a packed route. -/
def hopPort (r k : Nat) : Nat := bits r (2 * k) 2

/-- Send a MGMT flit on a port, without a route table. -/
def State.sendOn (s : State) (p typ : Nat) (body : List Byte) : State :=
  s.linkSend p ⟨s.mkHdr 0 2 typ 0 body.length, body, none⟩

/-- Every port is UP, SILENT, DOWN or MISWIRED, or has FAILED (step 5 of Table 13.5). -/
def State.settled (s : State) : Bool :=
  (List.range 4).all (fun n => s.rf (F.lkState n) != 1 && s.rf (F.lkState n) != 2)

/-- This member's own answer: its serial, and each port's state, neighbour and neighbour's port. -/
def State.ownNode (s : State) : Node :=
  ⟨Config.serial % 2 ^ 64, (List.range 4).map (fun n => (s.rf (F.lkState n), (s.link n).peer, s.rf (F.lkPeerPort n)))⟩

/-- A DISCOVER_REPLY payload. -/
def State.replyBody (s : State) (n k out back : Nat) (refused : Bool) : List Byte :=
  let me := s.ownNode
  discBody n k out back ++ natLe 1 (b2n refused) ++ List.replicate 5 0 ++ natLe 8 me.serial
    ++ me.ports.flatMap (fun x => natLe 1 x.1 ++ natLe 1 x.2.2 ++ natLe 2 0 ++ natLe 8 x.2.1)

/-- What a DISCOVER_REPLY says. -/
def nodeOf (pay : List Byte) : Node :=
  ⟨fldOf pay 16 8, (List.range 4).map (fun i => (fldOf pay (24 + 12 * i) 1, fldOf pay (28 + 12 * i) 8, fldOf pay (25 + 12 * i) 1))⟩

/-- Answer the DISCOVER that is due, once every port is settled (step 5 of Table 13.5). -/
def State.tryReply (s : State) : State :=
  match s.flock.due with
  | none => s
  | some (p, pay) =>
    if s.settled then
      let n := fldOf pay 0 1
      ({ s with flock := { s.flock with due := none } }).sendOn p 3 (s.replyBody n (n - 1) (fldOf pay 2 4) (fldOf pay 6 4) false)
    else s

/-- A DISCOVER arrives (R463, R464): a Bellwether refuses it, its last hop answers it, another hop passes it on. -/
def State.discover (s : State) (p : Nat) (pay : List Byte) : State :=
  let n := fldOf pay 0 1
  let k := fldOf pay 1 1
  let out := fldOf pay 2 4
  let back := setBits (fldOf pay 6 4) (2 * k) 2 p
  if s.rb F.flkBw then
    (s.sendOn p 3 (s.replyBody (k + 1) k out back true)).wf (F.lkState p) 5
  else if n ≤ k + 1 then
    State.tryReply { s with flock := { s.flock with due := some (p, discBody n (k + 1) out back) } }
  else s.sendOn (hopPort out (k + 1)) 2 (discBody n (k + 1) out back)

/-! The map that the Bellwether builds (R458, R465). -/

/-- A member's place: its serial, the source route to it, its coordinates with 64 for the Bellwether's. -/
structure Spot where
  serial : Nat
  route : List Nat
  x : Nat
  y : Nat
  deriving DecidableEq, Repr

/-- The port at the other end of a well-wired link. -/
def mate (p : Nat) : Nat := if p % 2 = 0 then p + 1 else p - 1

/-- The ports that a member has answered. -/
def nodePorts (nodes : List Node) (serial : Nat) : List (Nat × Nat × Nat) :=
  match nodes.find? (fun n => n.serial == serial) with
  | some n => n.ports
  | none => []

/-- The next level: by the port through which a member is first reached, then by its parent's number (R465). -/
def bfsNext (nodes : List Node) (level seen : List Spot) : List Spot :=
  ((List.range 4).flatMap (fun p => level.map (fun a => (p, a)))).foldl (fun acc e =>
    match (nodePorts nodes e.2.serial)[e.1]? with
    | some (st, ser, _) =>
      if st = 3 ∧ ¬ (seen.any (fun z => z.serial == ser) ∨ acc.any (fun z => z.serial == ser)) then
        let a := e.2
        acc ++ [⟨ser, a.route ++ [e.1], (if e.1 = 0 then a.x + 1 else if e.1 = 1 then a.x - 1 else a.x),
          (if e.1 = 2 then a.y + 1 else if e.1 = 3 then a.y - 1 else a.y)⟩]
      else acc
    | none => acc) []

/-- Breadth-first order from the Bellwether. -/
def bfs (nodes : List Node) : Nat → List Spot → List Spot → List Spot
  | 0, _, acc => acc
  | f + 1, level, acc =>
    let nx := bfsNext nodes level acc
    if nx.isEmpty then acc else bfs nodes f nx (acc ++ nx)

/-- The map: every member's place with the least coordinates 0, the size, and what each member has answered. -/
structure Map where
  spots : List Spot
  w : Nat
  h : Nat
  nodes : List Node
  deriving DecidableEq, Repr

def mapOf (nodes : List Node) (me : Nat) : Map :=
  let root : Spot := ⟨me, [], 64, 64⟩
  let l := (bfs nodes 64 [root] [root]).take 64
  let x0 := l.foldl (fun a z => min a z.x) 64
  let y0 := l.foldl (fun a z => min a z.y) 64
  let l := l.map (fun z => { z with x := z.x - x0, y := z.y - y0 })
  ⟨l, l.foldl (fun a z => max a z.x) 0 + 1, l.foldl (fun a z => max a z.y) 0 + 1, nodes⟩

def Map.spot (m : Map) (i : Nat) : Spot := (m.spots[i]?).getD ⟨0, [], 0, 0⟩
def Map.known (m : Map) (i : Nat) : Bool := m.nodes.any (fun n => n.serial == (m.spot i).serial)

/-- One step along a dimension of size `n`. -/
def stepDim (n x : Nat) (plus : Bool) : Nat := if plus then (if x + 1 = n then 0 else x + 1) else (if x = 0 then n - 1 else x - 1)

/-- The member at the other end of port `p` of member `i`: the link is UP and both ends agree on coordinates (R465). -/
def Map.peer (m : Map) (i p : Nat) : Option Nat :=
  match (nodePorts m.nodes (m.spot i).serial)[p]? with
  | none => none
  | some (st, ser, q) =>
    if st ≠ 3 ∨ q ≠ mate p then none
    else match m.spots.findIdx? (fun z => z.serial == ser) with
      | none => none
      | some j =>
        let a := m.spot i
        let b := m.spot j
        let good : Bool := if p < 2 then b.y == a.y && b.x == stepDim m.w a.x (p == 0) else b.x == a.x && b.y == stepDim m.h a.y (p == 2)
        if good && m.known j then some j else none

/-- A link of member `i` whose two ends would disagree (R465). -/
def Map.miswired (m : Map) (i p : Nat) : Bool :=
  match (nodePorts m.nodes (m.spot i).serial)[p]? with
  | none => false
  | some (st, ser, _) => st == 3 && (m.peer i p).isNone && m.nodes.any (fun n => n.serial == ser)

/-- A dimension is a torus when a wrap link of it is UP. -/
def Map.torusX (m : Map) : Bool :=
  decide (1 < m.w) && (List.range m.spots.length).any (fun i => decide ((m.spot i).x + 1 = m.w) && (m.peer i 0).isSome)
def Map.torusY (m : Map) : Bool :=
  decide (1 < m.h) && (List.range m.spots.length).any (fun i => decide ((m.spot i).y + 1 = m.h) && (m.peer i 2).isSome)

/-- Walk from member `i` through port `p` until a coordinate matches: the member reached, and whether the wrap link was
crossed. Only included members pass traffic. -/
def Map.goDim (m : Map) (inc : List Nat) (coord : Nat → Nat) (n p target : Nat) : Nat → Nat → Bool → Option (Nat × Bool)
  | 0, _, _ => none
  | f + 1, i, wr =>
    if coord i = target then some (i, wr)
    else match m.peer i p with
      | none => none
      | some j =>
        let edge : Bool := if p % 2 = 0 then coord i + 1 == n else coord i == 0
        if inc.contains j then m.goDim inc coord n p target f j (wr || edge) else none

/-- The direction of R459: the shorter way in a torus, plus on a tie. -/
def goesPlus (torus : Bool) (n a b : Nat) : Bool :=
  if torus then decide ((b + n - a) % n ≤ n - (b + n - a) % n) else decide (a < b)

/-- The ROUTE byte of member `a` for member `b` (R459, Table 13.12): PORT, WRAP_X, WRAP_Y. -/
def Map.routeByte (m : Map) (inc : List Nat) (a b : Nat) : Nat :=
  if a = b then 4
  else if ¬ (inc.contains a ∧ inc.contains b) then 7
  else
    let za := m.spot a
    let zb := m.spot b
    let px := if goesPlus m.torusX m.w za.x zb.x then 0 else 1
    let py := if goesPlus m.torusY m.h za.y zb.y then 2 else 3
    match m.goDim inc (fun i => (m.spot i).x) m.w px zb.x 9 a false with
    | none => 7
    | some (i, wx) =>
      match m.goDim inc (fun i => (m.spot i).y) m.h py zb.y 9 i false with
      | none => 7
      | some (j, wy) => if j = b then (if za.x = zb.x then py else px) + 8 * b2n wx + 16 * b2n wy else 7

/-- The members that are not excluded (R466): those that have answered and that the Bellwether reaches and hears by the routes
of the members included. -/
def Map.included (m : Map) : Nat → List Nat → List Nat
  | 0, inc => inc
  | f + 1, inc =>
    let next := inc.filter (fun i => i == 0 || (m.routeByte inc 0 i % 8 != 7 && m.routeByte inc i 0 % 8 != 7))
    if next.length = inc.length then inc else m.included f next

/-! Numbers and routes (steps 6 and 7). -/

/-- The ROUTE payload of member `i`. -/
def Map.body (m : Map) (inc : List Nat) (i state holes : Nat) : List Byte :=
  let z := m.spot i
  let mis := (List.range 4).foldl (fun a p => a + b2n (m.miswired i p) * 2 ^ p) 0
  let mask := inc.foldl (fun a k => a + 2 ^ k) 0
  [i, z.x, z.y, m.w, m.h, inc.length, state + 8 * holes, mis].map (BitVec.ofNat 8)
    ++ (List.range 4).map (fun p => BitVec.ofNat 8 ((m.peer i p).getD 0)) ++ natLe 4 0 ++ natLe 8 mask
    ++ (List.range 64).map (fun b => BitVec.ofNat 8 (if b < m.spots.length then m.routeByte inc i b else 7))

/-- A member takes its number, its coordinates and its route table (step 6). -/
def State.takeRoute (s : State) (body : List Byte) : State :=
  let b (i : Nat) : Nat := fldOf body i 1
  let s := ((((s.wf F.flkMember (b 0)).wf F.flkX (b 1)).wf F.flkY (b 2)).wf F.flkCount (b 5)).wf F.flkHoles (b 6 / 8)
  let s := forN 64 (fun m s => s.wf (F.route m) (b (24 + m))) s
  let s := forN 4 (fun p s => if bit (b 7) p then s.wf (F.lkState p) 5 else s.wf (F.lkPeer p) (b (12 + p))) s
  { s with flock := { s.flock with joined := true, w := b 3, h := b 4, hbAck := s.now, hbSent := s.now, bwLost := false } }

/-- A ROUTE flit reaches its member (R464): the member adopts the flock identity and acknowledges. -/
def State.routeArrive (s : State) (h : Hdr) (body : List Byte) : State :=
  let s := (s.wf F.flockId h.flock).takeRoute body
  let s := (s.wf F.flkState (fldOf body 6 1 % 8)).wf F.flkMembers (fldOf body 16 8)
  s.sendTo (s.mkHdr 0 2 4 0 1) (natLe 1 (s.rf F.flkMember))

/-- Every ROUTE has been acknowledged: the flock is ready (step 7). -/
def State.tryReady (s : State) : State :=
  if s.flock.acks.isEmpty ∧ s.rf F.flkState = 2 ∧ s.flock.joined then
    State.flockReady { s with flock := { s.flock with hb := s.flock.plans.map (fun p => (p.num, s.now)) } } s.flock.degraded
  else s

/-- Step 6: number the members, give each its ROUTE flit, and await the acknowledgements. -/
def State.assignRoutes (s : State) : State :=
  let m := mapOf s.flock.nodes s.ownNode.serial
  let n := m.spots.length
  let inc := m.included 64 ((List.range n).filter (fun i => m.known i))
  let bad := (List.range n).any (fun i => (List.range 4).any (fun p => m.miswired i p))
    || s.flock.nodes.any (fun k => k.ports.any (fun x => x.1 == 4 || x.1 == 5))
  let degraded : Bool := decide (inc.length < n) || !s.flock.silent.isEmpty || bad || decide (inc.length < s.rf F.expect)
  let holes := b2n (inc.any (fun a => inc.any (fun b => m.routeByte inc a b % 8 == 7)))
  let st := if degraded then 4 else 3
  let plans := (inc.filter (fun i => i != 0)).map (fun i => (⟨i, (m.spot i).route, m.body inc i st holes⟩ : Plan))
  let s := s.takeRoute (m.body inc 0 2 holes)
  let s := s.wf F.flkMembers (inc.foldl (fun a k => a + 2 ^ k) 0)
  let s := { s with flock := { s.flock with plans := plans, degraded := degraded, acks := plans.map (fun p => p.num) } }
  (forL plans (fun p s => s.sendTo (s.mkHdr p.num 2 4 0 88) p.body) s).tryReady

/-- Send DISCOVER along a source route. -/
def State.sendDiscover (s : State) (r : List Nat) : State :=
  match r with
  | [] => s
  | p :: _ => s.sendOn p 2 (discBody r.length 0 (portsNat r) 0)

/-- The next level of the discovery, when no answer is awaited; when there is none, step 6 (R464). -/
def State.discStep (s : State) : State :=
  if ¬ s.flock.asked.isEmpty then s
  else
    let m := mapOf s.flock.nodes s.ownNode.serial
    let new := m.spots.filter (fun z => !(s.flock.nodes.any (fun n => n.serial == z.serial)) && !s.flock.silent.contains z.serial)
    if new.isEmpty then s.assignRoutes
    else
      let s := { s with flock := { s.flock with asked := new.map (fun z => (z.route, z.serial)), discStart := s.now } }
      forL new (fun z s => s.sendDiscover z.route) s

/-- The Bellwether's discovery begins (step 5). -/
def State.discStart (s : State) : State :=
  if s.rb F.flkBw ∧ s.rf F.flkState = 1 ∧ s.settled ∧ s.rb (F.dvRunning 0) then
    State.discStep { s.wf F.flkState 2 with flock := { s.flock with nodes := [s.ownNode], asked := [], silent := [] } }
  else s

/-- A DISCOVER_REPLY arrives: at the Bellwether it is taken, elsewhere it goes on by its return route; the member next to a
refusing Bellwether marks the link MISWIRED (R463). -/
def State.reply (s : State) (p : Nat) (pay : List Byte) : State :=
  let n := fldOf pay 0 1
  let j := fldOf pay 1 1
  let refused := bit (fldOf pay 10 1) 0
  let s := if refused && j + 1 == n then s.wf (F.lkState p) 5 else s
  if j ≠ 0 then s.sendOn (hopPort (fldOf pay 6 4) (j - 1)) 3 (pay.take 1 ++ natLe 1 (j - 1) ++ pay.drop 2)
  else if !s.rb F.flkBw then s
  else
    let k := nodeOf pay
    match s.flock.rejoin with
    | some m =>
      match s.flock.plans.find? (fun q => q.num == m) with
      | some q => s.sendTo (s.mkHdr m 2 4 0 88) q.body
      | none => s
    | none =>
      if s.rf F.flkState ≠ 2 then s
      else
        let route := fldOf pay 2 4
        let asked := s.flock.asked.filter (fun a => !(a.1.length == n && portsNat a.1 == route))
        let gone := (s.flock.asked.filter (fun a => a.1.length == n && portsNat a.1 == route)).map (fun a => a.2)
        let f := if refused then { s.flock with asked := asked, silent := s.flock.silent ++ gone }
          else { s.flock with asked := asked, nodes := s.flock.nodes ++ [k] }
        State.discStep { s with flock := f }

/-- An acknowledgement of ROUTE reaches the Bellwether; a rejoined member is in the flock again (R483). -/
def State.routeAck (s : State) (h : Hdr) : State :=
  if s.flock.rejoin = some h.src then
    let s := s.wf F.flkMembers (setBits (s.rf F.flkMembers) h.src 1 1)
    { s with flock := { s.flock with rejoin := none, lost := setDel s.flock.lost h.src, hb := tblIns s.flock.hb h.src s.now } }
  else State.tryReady { s with flock := { s.flock with acks := setDel s.flock.acks h.src } }

/-- FLK_REJOIN (R483): steps 5 and 6 run again for a LOST member; for another it is ignored (R484). -/
def State.rejoin (s : State) (m : Nat) : State :=
  if s.flock.lost.contains m then
    match s.flock.plans.find? (fun q => q.num == m) with
    | some q => ({ s with flock := { s.flock with rejoin := some m } }).sendDiscover q.route
    | none => s
  else s

/-- What follows a change of a port's state: a DISCOVER that is due is answered. -/
def State.portMoved (s : State) : State := s.tryReply

/-! The rows' shared parts. -/

/-- EN of LK_CTRL falls: the port is DOWN (Table 13.10). -/
def State.lkDown (s : State) (p : Nat) : State :=
  (((s.wb (F.lkEn p) false).wf (F.lkState p) 0).dropLink p false).portMoved

/-- EN of LK_CTRL rises: the port trains again with a new session key (R457). -/
def State.lkUp (s : State) (p : Nat) : State := ((s.wb (F.lkEn p) true).trainPort p)

/-- Send a DOORBELL flit (R471); to this member itself the write is applied at once. -/
def State.fwdDb (s : State) (v : Nat) : State :=
  let m := bits v 48 6
  let q := bits v 32 15
  let val := bits v 0 32
  let cq := bit v 47
  if s.routeTo m = 4 then (if cq then s.cqHeadWrite q val else s.doorbell q val false)
  else s.sendTo (s.mkHdr m 0 9 (q / 8) 7) (natLe 2 q ++ natLe 1 (b2n cq) ++ natLe 4 val)

/-- A remote access completes with a status and, for a read, its data (R469, R470). -/
def State.rraDone (s : State) (status : Nat) (data : Nat) : State :=
  let s := if s.rb F.rraWrite then s else s.wf F.rraData data
  let s := (s.wb F.rraBusy false).wf F.rraStatus status
  State.raise { s with flock := { s.flock with rra := none } } (pgLk 0) 5

/-- All-ones. -/
def ones64 : Nat := 2 ^ 64 - 1

/-- FLK_RRA_CTRL.GO for another member (R469): the request is sent, or the member is UNREACHABLE (R470). -/
def State.rraSend (s : State) : State :=
  let m := s.rf F.rraMember
  if s.routeTo m = 7 then s.rraDone 0x61 ones64
  else
    let tag := (s.flock.rraTag + 1) % 1024
    let s := { s with flock := { s.flock with rra := some (s.now, tag), rraTag := tag } }
    let body := natLe 4 (s.rf F.rraOffset) ++ natLe 1 (s.rf F.rraWrite + 2 * s.rf F.rraSize) ++ natLe 8 (s.rf F.rraData)
    s.sendTo { s.mkHdr m 0 7 0 13 with opId := tag } body

/-- Answer a remote access (REG_RSP): its data and its status. -/
def State.rraAnswer (s : State) (m tag data : Nat) : State :=
  s.sendTo { s.mkHdr m 1 8 0 9 with opId := tag } (natLe 8 data ++ natLe 1 0)

end Sys2Proof.Machine
end

