-- ==== Sys2Proof/Machine/CollOps.lean ====
section
/-! DEFINITION. Flock groups and the collective engine (13_coachway_and_flock.md R472 to R480). -/

namespace Sys2Proof.Machine

/-! Operands (Table 13.7). -/

def Cmd.coGroup (c : Cmd) : Nat := c.fld 48 1 % 64
def Cmd.coOp (c : Cmd) : Nat := c.fld 49 1 % 4
def Cmd.coBf16 (c : Cmd) : Bool := c.flag 49 2
def Cmd.coRev (c : Cmd) : Bool := c.flag 49 3
def Cmd.coCount (c : Cmd) : Nat := c.fld 52 4
def Cmd.coTimeout (c : Cmd) : Nat := c.fld 72 4
/-- Bytes of a chunk, flits of a chunk. -/
def Cmd.coBytes (c : Cmd) : Nat := c.coCount * (if c.coBf16 then 2 else 4)
def Cmd.coFlits (c : Cmd) : Nat := ceilDiv c.coBytes 224
/-- SRC and DST: the segment and the offset (R159). -/
def Cmd.coSrc (c : Cmd) : Nat := c.fld 56 8
def Cmd.coDst (c : Cmd) : Nat := c.fld 64 8

/-! The ring (R476). -/

/-- The chunk `k` places before rank `r` in the direction of the ring. -/
def ringBack (rev : Bool) (n r k : Nat) : Nat := if rev then (r + k) % n else (r + (n - k % n)) % n

/-- Successor and predecessor of a rank. -/
def ringNext (rev : Bool) (n r : Nat) : Nat := ringBack (!rev) n r 1
def ringPrev (rev : Bool) (n r : Nat) : Nat := ringBack rev n r 1

/-- Steps in which each rank sends: the reduce-scatter's, and all. -/
def rsSteps (op n : Nat) : Nat := if op = 1 then 0 else n - 1
def allSteps (op n : Nat) : Nat := if op = 2 then 2 * (n - 1) else n - 1

/-- The chunk that rank `r` receives in step `t`. -/
def recvChunk (rev : Bool) (op n r t : Nat) : Nat :=
  if t < rsSteps op n then ringBack rev n r (t + 2) else ringBack rev n r (t - rsSteps op n + 1)

/-- Add two payloads element by element in FP32; a BF16 sum is rounded to BF16 (R476). -/
def addElems (bf : Bool) : Nat → List Byte → List Byte → List Byte
  | 0, _, _ => []
  | f + 1, a, b =>
    let w := if bf then 2 else 4
    if a.length < w then []
    else
      let x := leNat (a.take w)
      let y := leNat (b.take w)
      let v := if bf then bf16.enc .ieee (rnd32 ((bf16.dec x).add (bf16.dec y))) else f32add x y
      natLe w v ++ addElems bf f (a.drop w) (b.drop w)

/-! State of a collective. -/

def State.group (s : State) (idx ctx : Nat) : Option Group := s.flock.groups.find? (fun g => g.idx == idx && g.ctx == ctx)
def State.setGroup (s : State) (g : Group) : State :=
  { s with flock := { s.flock with groups := s.flock.groups.map (fun x => if x.idx = g.idx ∧ x.ctx = g.ctx then g else x) } }
def State.setColl (s : State) (k : Coll) : State :=
  { s with flock := { s.flock with colls := s.flock.colls.map (fun x => if x.qn = k.qn ∧ x.slot = k.slot then k else x) } }
def State.coll (s : State) (qn slot : Nat) : Option Coll := s.flock.colls.find? (fun k => k.qn == qn && k.slot == slot)

/-- The member and the context of a rank. -/
def Group.at (g : Group) (r : Nat) : Nat × Nat := (g.ranks[r]?).getD (0, 0)

/-- Two ranges of one segment overlap. -/
def overlaps (a la b lb : Nat) : Bool :=
  bits a 48 4 == bits b 48 4 && decide (a % 2 ^ 48 < b % 2 ^ 48 + lb) && decide (b % 2 ^ 48 < a % 2 ^ 48 + la)

/-- An overlap of DST with SRC that leaves the output unspecified (R475). -/
def Cmd.coUnspec (c : Cmd) (n : Nat) : Bool :=
  let src := (if c.coOp = 1 then 1 else n) * c.coBytes
  let dst := (if c.coOp = 0 then 1 else n) * c.coBytes
  overlaps c.coSrc src c.coDst dst && !(c.coOp == 2 && c.coSrc % 2 ^ 52 == c.coDst % 2 ^ 52)

/-- Write output of a collective at an offset of DST. -/
def State.collWrite (s : State) (c : Cmd) (n off : Nat) (bs : List Byte) : Nat × State :=
  if c.coUnspec n then
    let (v, s) := s.takeFree
    s.ctxWrite c.ctx (c.coDst + off) (natLe bs.length v) (.command c.qn c.slot)
  else s.ctxWrite c.ctx (c.coDst + off) bs (.command c.qn c.slot)

/-- A flit of a collective's group to a rank. -/
def State.collHdr (s : State) (g : Group) (k : Coll) (r cls typ len step : Nat) : Hdr :=
  { s.mkHdr (g.at r).1 cls typ (g.at r).2 len with
    key := g.key, gen := s.rf (F.slGen g.key), step := step, opId := k.opId, group := g.idx }

/-! Running (R476, R477, R480). -/

/-- The next payload to send, if there is one: own data in step 0, else the oldest that waits to be forwarded. -/
def State.collNext (s : State) (c : Cmd) (g : Group) (k : Coll) : Option (Except Nat (List Byte)) × State :=
  let n := g.ranks.length
  let fl := c.coFlits
  let j := k.sent % fl
  if allSteps c.coOp n * fl ≤ k.sent then (none, s)
  else if k.sent / fl = 0 then
    let chunk := if c.coOp = 1 then 0 else ringBack c.coRev n g.rank 1
    let (r, s) := s.ctxRead c.ctx (c.coSrc + chunk * c.coBytes + 224 * j) (min 224 (c.coBytes - 224 * j))
    (some r, s)
  else match k.fwd with
    | [] => (none, s)
    | b :: _ => (some (.ok b), s)

/-- The lines of a collective's DST that can be reached; the look changes nothing. -/
def State.collDst (s : State) (c : Cmd) (n : Nat) : List Wr :=
  let len := (if c.coOp = 0 then 1 else n) * c.coBytes
  (linePieces (len / 64 + 2) (aOff c.coDst) (List.replicate len 0)).filterMap (fun p =>
    match (s.xlateAt none c.ctx (aSeg c.coDst) p.1 2).1 with
    | .ok h => some (.mem h (p.2.map (fun b => (b, false))))
    | _ => none)

/-- A collective ends because it cannot go on (R480): what its DST holds is undefined. -/
def State.collLost (s : State) (k : Coll) (c : Cmd) (n status : Nat) : State :=
  match s.ctxSlot k.ctx with
  | none => s.endColl k status
  | some slot => (s.spoil slot (s.collDst c n)).endColl k status

/-- A rank's route to its successor or to its predecessor is UNREACHABLE (R480). -/
def State.collCut (s : State) (c : Cmd) (g : Group) : Bool :=
  let n := g.ranks.length
  s.routeTo (g.at (ringNext c.coRev n g.rank)).1 == 7 || s.routeTo (g.at (ringPrev c.coRev n g.rank)).1 == 7

/-- The collective has sent and received everything. -/
def State.collEnd (s : State) (c : Cmd) (g : Group) (k : Coll) : State :=
  let all := allSteps c.coOp g.ranks.length * c.coFlits
  if k.sent = all ∧ k.got = all then s.endColl k 0x00 else s

/-- Whether the next flit to the successor may leave now: a port that is UP, a credit, room for replay, none before it. -/
def State.collPort (s : State) (p : Nat) (h : Hdr) : Bool :=
  let q := { h with dl := s.nextDl h none p }.queue
  decide (p < 4) && s.canSend p q h.typ && !(s.link p).waitQ.any (fun w => w.hdr.queue == q)

/-- Send flits of a collective while the successor is ready and the port takes them. -/
def State.collPump (s : State) (qn slot : Nat) : Nat → State
  | 0 => s
  | f + 1 =>
    match s.coll qn slot, s.cmd qn slot with
    | some k, some c =>
      match s.group k.group k.ctx with
      | none => s
      | some g =>
        let nxt := ringNext c.coRev g.ranks.length g.rank
        let p := s.routeTo (g.at nxt).1
        if s.collCut c g then s.collLost k c g.ranks.length 0x61
        else if !k.ready ∨ s.rf (F.ctxState k.ctx) = 3 then s
        else if !s.collPort p (s.collHdr g k nxt 0 12 0 0) then s
        else match s.collNext c g k with
          | (none, s) => s
          | (some (.error e), s) => s.endColl k e
          | (some (.ok b), s) =>
            let step := k.sent / c.coFlits
            let s := s.sendTo (s.collHdr g k nxt 0 12 b.length step) b
            let k := { k with sent := k.sent + 1, fwd := if step = 0 then k.fwd else k.fwd.drop 1, last := s.now }
            ((s.setColl k).collEnd c g k).collPump qn slot f
    | _, _ => s

/-- Every collective sends what it can. -/
def State.collPumpAll (s : State) : State := forL s.flock.colls (fun k s => s.collPump k.qn k.slot 128) s

/-- One arriving payload of a collective (R476). -/
def State.collTake (s : State) (k : Coll) (c : Cmd) (g : Group) (b : List Byte) : State :=
  let n := g.ranks.length
  let fl := c.coFlits
  let t := k.got / fl
  let off := 224 * (k.got % fl)
  let chunk := recvChunk c.coRev c.coOp n g.rank t
  let rs := rsSteps c.coOp n
  if allSteps c.coOp n * fl ≤ k.got then s
  else
    let own := if t < rs then s.ctxRead c.ctx (c.coSrc + chunk * c.coBytes + off) b.length else (.ok [], s)
    match own with
    | (.error e, s) => s.endColl k e
    | (.ok mine, s) =>
      let v := if t < rs then addElems c.coBf16 112 b mine else b
      let out := if t < rs then (if t + 1 = rs then some (if c.coOp = 0 then off else chunk * c.coBytes + off) else none)
        else some (chunk * c.coBytes + off)
      let (st, s) := match out with
        | some o => s.collWrite c n o v
        | none => (0, s)
      if st ≠ 0 then s.endColl k st
      else
        let k := { k with got := k.got + 1, last := s.now, fwd := if t + 1 < allSteps c.coOp n then k.fwd ++ [v] else k.fwd }
        ((s.setColl k).collEnd c g k).collPump k.qn k.slot 128

/-- The collective of a group that runs. -/
def State.collOf (s : State) (g : Group) : Option Coll := s.flock.colls.find? (fun k => k.group == g.idx && k.ctx == g.ctx)

/-- The current OP_ID of a group (R479): that of the collective that runs, else the next one's. -/
def State.curOp (s : State) (g : Group) : Nat :=
  match s.collOf g with
  | some k => k.opId
  | none => g.counter % 1024

/-- COLL_READY or COLL_DATA reaches a rank (R477, R479). -/
def State.collFlit (s : State) (p : Nat) (h : Hdr) (pay : List Byte) : State :=
  match s.group h.group h.ctx with
  | none => s.inc (F.lkDrops p) 1
  | some g =>
    if h.opId ≠ s.curOp g then s.inc (F.lkDrops p) 1
    else match s.collOf g with
      | none => if h.typ = 11 then s.setGroup { g with early := g.early ++ [h.src] } else s.inc (F.lkDrops p) 1
      | some k =>
        match s.cmd k.qn k.slot with
        | none => s
        | some c =>
          if h.typ = 11 then
            if (g.at (ringNext c.coRev g.ranks.length g.rank)).1 = h.src then
              (s.setColl { k with ready := true, last := s.now }).collPump k.qn k.slot 128
            else s
          else s.collTake k c g pay

/-! Starting (R474, R475, R478). -/

/-- Copy SRC to DST in pieces of 224 B. -/
def State.collCopy (s : State) (c : Cmd) (n dstOff : Nat) : Nat → Nat → Nat × State
  | 0, _ => (0, s)
  | f + 1, off =>
    if c.coBytes ≤ off then (0, s)
    else match s.ctxRead c.ctx (c.coSrc + off) (min 224 (c.coBytes - off)) with
      | (.error e, s) => (e, s)
      | (.ok b, s) =>
        match s.collWrite c n (dstOff + off) b with
        | (0, s) => s.collCopy c n dstOff f (off + 224)
        | (e, s) => (e, s)

/-- Begin a collective that has its reads: COLL_READY goes to the predecessor, and its own chunk of an ALL_GATHER to DST. -/
def State.collBegin (s : State) (c : Cmd) (g : Group) : State :=
  let n := g.ranks.length
  let part := s.rf (F.ctxPart c.ctx)
  let nxt := (g.at (ringNext c.coRev n g.rank)).1
  let prv := ringPrev c.coRev n g.rank
  let cut := s.collCut c g
  let k : Coll := ⟨c.qn, c.slot, c.ctx, part, g.idx, g.counter % 1024, g.early.contains nxt, 0, 0, [], s.now⟩
  let s := s.wf (F.pReads part) (s.rf (F.pReads part) + 256)
  let s := (s.setGroup { g with counter := g.counter + 1, early := [] }).setCmd { c with acted := true }
  let s : State := { s with flock := { s.flock with colls := s.flock.colls ++ [k] } }
  if cut then s.collLost k c n 0x61
  else
    let (st, s) := if c.coOp = 1 then s.collCopy c n (g.rank * c.coBytes) (c.coFlits + 1) 0 else (0, s)
    if st ≠ 0 then s.endColl k st
    else (s.sendTo (s.collHdr g k prv 1 11 0 0) []).collPump c.qn c.slot 128

/-- A COLLECTIVE in phase 4 (R474): its checks, then its start when the limits of R478 allow. -/
def State.collCmd (s : State) (c : Cmd) : State :=
  match s.group c.coGroup c.ctx with
  | none => s.setCmd (c.done 0x11)
  | some g =>
    if c.coOp = 3 then s.setCmd (c.done 0x11)
    else if c.coTimeout = 0 then s.setCmd (c.done 0x10)
    else
      let used := s.setGroup { g with counter := g.counter + 1, early := [] }
      let n := g.ranks.length
      let part := s.rf (F.ctxPart c.ctx)
      let who := (c.qn, c.slot, 0)
      if c.coCount = 0 then used.setCmd (c.done 0x01)
      else if (s.collOf g).isSome ∨ 16 ≤ s.flock.colls.length ∨ ¬ s.rb (F.inPart c.ctx) then s
      else if !s.poolGrants .reads part 256 who then s.poolWait .reads who
      else
        if n = 1 then
          let (st, s) := (used.poolLeave who).collCopy c 1 0 (c.coFlits + 1) 0
          s.setCmd (c.done st)
        else (s.poolLeave who).collBegin c g

/-- The status of a collective that has waited too long (R480): LINK_TIMEOUT when its next flit waits for its port or a credit,
else PEER_LOST. -/
def State.collLate (_s : State) (c : Cmd) (g : Group) (k : Coll) : Nat :=
  let all := allSteps c.coOp g.ranks.length * c.coFlits
  let has : Bool := decide (k.sent < all) && (decide (k.sent < c.coFlits) || !k.fwd.isEmpty)
  if k.ready && has then 0x60 else 0x61

end Sys2Proof.Machine
end

