-- ==== Sys2Proof/Machine/Queue.lean ====
section
/-! DEFINITION. The commands of the queue manager: doorbells, slot fetch and its checks, starts, signal reads, completion
and messages (08_commands_and_tiles.md, 09_contexts_queues_doorbells.md). -/

namespace Sys2Proof.Machine

/-- DOORBELL (R334): a host write of a queue's TAIL. -/
def execDoorbell (q : QNum) (v : W32) (s : State) : Host.Outcome State Fault Refusal :=
  .next (if s.hostOk then s.doorbell q.val v.toNat false else s)

/-- CQ_HEAD_WRITE (R344). -/
def execCqHeadWrite (q : QNum) (v : W32) (s : State) : Host.Outcome State Fault Refusal :=
  .next (if s.hostOk then s.cqHeadWrite q.val v.toNat else s)

/-- Restart a halted queue with EN set and no command pending (R349). -/
def State.restart (s : State) (q : Nat) (discard : Bool) : State :=
  if s.rb (F.qHalted q) ∧ s.rb (F.qEn q) ∧ (s.cmdsOf q).isEmpty then
    let s := if discard then s.wf (F.qTail q) (s.rf (F.qHead q)) else s
    let s := ((s.wb (F.qHalted q) false).wf (F.qReason q) 0).wb (F.qDbReject q) false
    let s := if discard then { s with checked := s.checked.filter (fun k => k.1 != q) } else s
    ((s.wf (F.qRefetches q) 0).wb (F.qCqFull q) false).modQueue q (fun v =>
      { v with fetch := s.rf (F.qHead q), reserved := 0, refetch := none, headStop := false })
  else s

/-- Q_RESTART (R349): a write of GO with DISCARD clear. -/
def execQRestart (q : QNum) (s : State) : Host.Outcome State Fault Refusal :=
  .next (if s.hostOk then s.restart q.val false else s)

/-- Q_RESTART_DISCARD (R349): a write of GO with DISCARD set. -/
def execQRestartDiscard (q : QNum) (s : State) : Host.Outcome State Fault Refusal :=
  .next (if s.hostOk then s.restart q.val true else s)

/-- A command as fetched. -/
def newCmd (q p : Nat) (bs : List Byte) (len : Nat) : Cmd :=
  { qn := q, slot := p, bytes := bs, len := len, phase := 0, status := 0, detail := 0xFFFFFFFF, failed := false, opFF := false,
    halts := false, tiles := 0, next := 0, ended := [], tilesDone := 0, moved := false, acted := false,
    parked := false, resume := 0, faulted := none, stopped := [], svc := false, svcStart := 0,
    reached := false, tallied := false }

/-- A command that a fetch check has failed: it runs no tile and waits on nothing (R282). -/
def Cmd.reject (c : Cmd) (status : Nat) : Cmd := { c with phase := 5, status := status, failed := true, acted := true }

/-- The privilege checks that a command's own table places at check 7: the opcode is accepted on context 0's steward
queue only (R358, R473, R504, R507, R526, R573), or, for CTX_RESUME, on TARGET's own and context 0's (R411). -/
def check7 (op q : Nat) (bs : List Byte) : Bool :=
  if op = 0x40 then q / 8 == 0 || fldOf bs 48 2 == q / 8
  else if op = 0x84 ∨ op = 0x85 ∨ op = 0x86 ∨ op = 0x87 ∨ op = 0x88 ∨ op = 0x89 ∨ op = 0x8A then q / 8 == 0
  else true

/-- Log a failed authentication (R317). -/
def State.authFail (s : State) (q status t : Nat) : State := (s.logEv 1 status (q / 8) q t).raise pgShm 3

/-- The operand checks of an opcode that the command's own bytes decide, as far as they stand first in its table: 0, or the status.
The checks that read memory or the machine's state follow in phase 4 (assumption 9). -/
def operandCheck (c : Cmd) : Nat :=
  let tgt : Nat := if 4096 ≤ c.target then 0x11 else 0
  match c.opcode with
  | 0x02 => if 4096 < c.fld 56 4 then 0x11 else 0
  | 0x40 => tgt
  | 0x81 => if c.fld 50 2 = 0 then 0 else tgt
  | 0x82 => tgt
  | 0x83 =>
    let sc := c.fld 50 1 % 8
    if 5 ≤ sc then 0x11 else if 2 ≤ sc ∧ c.ctx ≠ 0 then 0x13 else if sc < 2 then tgt else 0
  | 0x84 =>
    let op := c.fld 50 1 % 4
    let n := c.fld 51 1 % 64
    if op = 3 then (if n < 2 then 0x11 else if c.fld 56 8 = 0 then 0x10 else 0)
    else if (op = 1 ∧ 2 ≤ c.fld 50 1 / 4 % 4) ∨ n = 0 ∨ (n = 1 ∧ op ≠ 0) then 0x11
    else if op ≤ 1 then tgt else 0
  | 0x85 => if c.target = 0 ∨ (c.flag 50 0 ∧ 65536 < c.fld 64 4) then 0x11 else tgt
  | 0x86 =>
    if c.target ≠ 0 then 0x11
    else if c.flag 66 0 then 0
    else if c.fld 64 2 = 0 then 0x10 else if 256 < c.fld 64 2 then 0x11 else 0
  | 0x87 => if c.flag 50 1 then (if c.fld 55 1 % 32 < 4 ∨ 20 < c.fld 55 1 % 32 ∨ 64 < c.fld 54 1 % 128 then 0x11 else tgt) else 0
  | 0x88 =>
    if c.target ≠ 0 ∨ 6 ≤ c.fld 50 1 % 8 then 0x11
    else if c.fld 50 1 % 8 = 1 ∧ c.fld 54 2 % 256 = 0 then 0x10 else 0
  | 0x89 =>
    if c.target ≠ 0 ∨ c.fld 50 1 % 4 = 0 ∨ c.fld 50 1 % 4 = 3 then 0x11
    else if c.fld 64 4 = 0 then 0x10 else if 524288 < c.fld 64 4 then 0x11 else 0
  | 0x8A => if c.flag 50 7 then 0 else if c.fld 51 1 % 128 = 0 then 0x10 else if 64 < c.fld 51 1 % 128 then 0x11 else tgt
  | _ => 0

/-- Check 7: the privilege checks, then the operand checks that the command's own bytes decide (R282). -/
def Cmd.atCheck7 (c : Cmd) : Cmd :=
  if !check7 c.opcode c.qn c.bytes then c.reject 0x13
  else match operandCheck c with
    | 0 => c
    | e => c.reject e

/-- The checks of Table 8.3 on a fetched command (R282, R314): the command, and the state with an accepted tally. A critical command
that was returned after it had passed checks 5 and 6 is not put to them again (R316). -/
def State.fetchChecks (s : State) (q p : Nat) (bs : List Byte) : Cmd × State :=
  let len := fldOf bs 4 1
  let op := fldOf bs 0 1
  if len = 0 then ({ (newCmd q p bs 1).reject 0x10 with opFF := true }, s)
  else if 2 < len then ({ (newCmd q p bs 1).reject 0x11 with opFF := true }, s)
  else
    let c := newCmd q p bs len
    if opSlots op ≠ some len then (c.reject 0x12, s)
    else if opSteward op ∧ q % 8 ≠ 0 then (c.reject 0x13, s)
    else if opCritical op ∧ fldOf bs 48 2 ≠ q / 8 ∧ q / 8 ≠ 0 then (c.reject 0x13, s)
    else if opCritical op then
      let t := fldOf bs 240 8
      let d : Cmd := { c with tallied := true }
      if s.checked.contains (q, p, bs) then (d.atCheck7, { s with checked := s.checked.filter (fun k => !decide (k = (q, p, bs))) })
      else if !s.tagOk q bs ∨ fldOf bs 40 8 ≠ t then (c.reject 0x14, s.authFail q 0x14 t)
      else if t ≤ s.rf (F.tally (q / 8)) then (c.reject 0x15, s.authFail q 0x15 t)
      else (d.atCheck7, s.wf (F.tally (q / 8)) t)
    else (c.atCheck7, s)

/-- Take a checked command in. -/
def State.takeCmd (s : State) (q p : Nat) (bs : List Byte) : State :=
  let (c, s) := s.fetchChecks q p bs
  ({ s with cmds := s.cmds ++ [c] }).modQueue q
    (fun v => { v with fetch := (p + c.len) % 2 ^ 32, reserved := v.reserved + 1, refetch := none })

/-- A command's second slot has been read: with the first slot's bytes it is put to its SEQ test (R337). -/
def State.gotSecond (s : State) (q p : Nat) (b0 b1 : List Byte) : State :=
  let p1 := (p + 1) % 2 ^ 32
  if slotSeq b1 ≠ p1 % 2 ^ 16 then s.modQueue q (fun v => { v with refetch := some (p1, s.now, b0) })
  else (s.wf (F.qRefetches q) 0).takeCmd q p (b0 ++ b1)

/-- A command's first slot has passed its SEQ test: the second is fetched when LEN is 2 and TAIL has passed it (R336, R347). -/
def State.gotFirst (s : State) (q p : Nat) (b0 : List Byte) : State :=
  let p1 := (p + 1) % 2 ^ 32
  if fldOf b0 4 1 ≠ 2 then (s.wf (F.qRefetches q) 0).takeCmd q p b0
  else if p1 = s.rf (F.qTail q) then s
  else match s.readSlot q p1 with
    | (.error e, s) => s.haltFetch q e
    | (.ok b1, s) => s.gotSecond q p b0 b1

/-- Fetch slot `p` of a command, and its second slot when LEN is 2, with the SEQ tests (R336, R337, R347). -/
def State.fetchAt (s : State) (q p : Nat) : State :=
  match s.readSlot q p with
  | (.error e, s) => s.haltFetch q e
  | (.ok b0, s) =>
    if slotSeq b0 ≠ p % 2 ^ 16 then s.modQueue q (fun v => { v with refetch := some (p, s.now, []) })
    else s.gotFirst q p b0

/-- The context's state lets its queues fetch (Table 9.2), and nothing holds them: a preserved instance (R560), or LOCKED
trust with a CONFIDENTIAL context's application queue (R491). -/
def State.mayFetch (s : State) (q : Nat) : Bool :=
  s.isReady && s.ctxLive (q / 8) && s.rb (F.qEn q) && !s.rb (F.qHalted q) && s.rf F.hostState < 2
    && !(s.rf F.trust == 1 && s.rb (F.confid (q / 8)) && q % 8 != 0)
    && !s.cmds.any (fun c => c.qn == q && c.opFF && c.status == 0x40)

/-- SLOT_FETCH (R336): fetch the next slot below TAIL when a record can be reserved. -/
def execSlotFetch (q : QNum) (s : State) : Host.Outcome State Fault Refusal :=
  let p := (s.queue q.val).fetch
  if !s.mayFetch q.val ∨ (s.queue q.val).refetch ≠ none ∨ p = s.rf (F.qTail q.val) then .next s
  else if !s.cqRoom q.val then .next (s.wb (F.qCqFull q.val) true)
  else .next ((s.wb (F.qCqFull q.val) false).fetchAt q.val p)

/-- The record of a slot that stayed stale (R338): SEQ of the command's first slot, OPCODE 0xFF. -/
def staleCmd (q p : Nat) : Cmd := { (newCmd q p [] 0).reject 0x40 with opFF := true }

/-- SEQ_REFETCH (R337): re-fetch a slot under test, two re-fetches on each of four EPOCH pulses; when re-fetch 8 fails the
command completes QUEUE_STALE. A second slot is re-fetched alone (Table 9.8). -/
def execSeqRefetch (q : QNum) (s : State) : Host.Outcome State Fault Refusal :=
  let q := q.val
  match (s.queue q).refetch with
  | none => .next s
  | some (p, e0, b0) =>
    let j := s.rf (F.qRefetches q)
    let first := (s.queue q).fetch
    if !s.ctxLive (q / 8) then .next (s.modQueue q (fun v => { v with refetch := none }))
    else if s.now - e0 < j / 2 + 1 then .next s
    else match s.readSlot q p with
      | (.error e, s) => .next (s.haltFetch q e)
      | (.ok b, s) =>
        if slotSeq b = p % 2 ^ 16 then
          let s := (s.wf (F.qRefetches q) 0).modQueue q (fun v => { v with refetch := none })
          .next (if b0.isEmpty then s.gotFirst q first b else s.gotSecond q first b0 b)
        else if j + 1 < 8 then .next (s.wf (F.qRefetches q) (j + 1))
        else
          let s := (s.wf (F.qRefetches q) 8).modQueue q (fun v => { v with refetch := none, reserved := v.reserved + 1 })
          .next { s with cmds := s.cmds ++ [staleCmd q first] }

/-- Whether the oldest command that has not started may start (R302, R303): every earlier command of the queue has passed
its own wait; FENCE, and a critical or steward-only command, wait for every earlier record. -/
def mayStart (earlier : List Cmd) (c : Cmd) : Bool :=
  if c.flag 1 4 || opSteward c.opcode then earlier.isEmpty
  else earlier.all (fun e => decide (3 ≤ e.phase) && !opSteward e.opcode)

/-- Split a queue's commands at the first that has not started. -/
def splitStart : List Cmd → List Cmd → Option (List Cmd × Cmd)
  | _, [] => none
  | acc, c :: cs => if c.phase = 0 then some (acc, c) else splitStart (acc ++ [c]) cs

/-- One of the checks at a command's start: an address field that is in use can be translated with a right. -/
def State.startCheck (s : State) (c : Cmd) (on : Bool) (o right : Nat) : Nat × State :=
  if on then
    let a := sigAddr (c.fld o 8)
    let (r, s) := s.xlate c.addrCtx (bits a 48 4) (a % 2 ^ 48) right
    (r.status, s)
  else (0, s)

/-- Check SIG_ADDR and WAIT_ADDR at the start (R307): 0, or the status. -/
def State.startChecks (s : State) (c : Cmd) : Nat × State :=
  match s.startCheck c (c.flag 1 6) 8 4 with
  | (0, s) => s.startCheck c (c.flag 1 5) 24 1
  | r => r

/-- COMMAND_START (R302): the oldest command of the queue that has not started starts, and passes its phases 1 to 3 or
waits in phase 2. -/
def execCommandStart (q : QNum) (s : State) : Host.Outcome State Fault Refusal :=
  match splitStart [] (s.cmdsOf q.val) with
  | none => .next s
  | some (earlier, c) =>
    if mayStart earlier c ∧ s.ctxLive (q.val / 8) then
      match s.startChecks c with
      | (0, s) => if c.flag 1 5 then .next (s.waitRead c) else .next (s.enter4 c)
      | (e, s) => .next (s.failCmd c e)
    else .next s

/-- SIGNAL_REREAD (R305): a command in phase 2 reads its signal again. -/
def execSignalReread (q : QNum) (s : State) : Host.Outcome State Fault Refusal :=
  match (s.cmdsOf q.val).find? (fun c => c.phase == 2) with
  | none => .next s
  | some c => .next (s.waitRead c)

/-- A write that a command's RELEASE drains: the command's own, and those of the inlet that drives its queue for its frame and
earlier ones (R271). -/
def drainsFor (inlet : Option Nat) (c : Cmd) (cl : Client) : Bool :=
  match cl with
  | .command qn slot => qn == c.qn && slot == c.slot
  | .inlet n slot => inlet == some n && decide (sub32 c.slot slot < 2 ^ 31)
  | _ => false

/-- Writes of a command that no response has answered (RELEASE, R423). -/
def State.writesOut (s : State) (c : Cmd) : Bool :=
  let i := s.driver c.qn
  s.txns.any (fun t => decide (t.op ≠ 0) && drainsFor i c t.client) || s.waiting.any (fun r => decide (r.op ≠ 0) && drainsFor i c r.client)

/-- With this command's record HEAD would pass TAIL, or CQ_TAIL would pass CQ_HEAD + 2^CQ_LOG2: a failed consistency check (R545). -/
def State.pointersBreak (s : State) (c : Cmd) : Bool :=
  decide (2 ^ 31 ≤ sub32 (s.rf (F.qTail c.qn)) ((c.slot + c.len) % 2 ^ 32))
    || decide (2 ^ s.rf (F.cqLog2 c.qn) ≤ sub32 (s.rf (F.cqTail c.qn)) (s.rf (F.cqHead c.qn)))

/-- COMMAND_COMPLETE (R304): the oldest command of the queue, whose work has ended and whose RELEASE drain is done, writes
its record, its signal and its message. The records of a context that closes are written at the end of its teardown (R324). Pointers that
would break reset the instance (R545). -/
def execCommandComplete (q : QNum) (s : State) : Host.Outcome State Fault Refusal :=
  match s.cmdsOf q.val with
  | [] => .next s
  | c :: _ =>
    if c.phase = 5 ∧ s.rf (F.ctxState (q.val / 8)) ≠ 3 ∧ c.faulted.isNone ∧ ¬ s.hasTile c.qn c.slot ∧ ¬ (c.flag 1 1 ∧ s.writesOut c) then
      .next (if s.pointersBreak c then s.consistencyFail true else s.complete c)
    else .next s

/-- The message at the head of IRQ_MSG may leave: its command's record and signal writes have been answered (R600), and its queue's context is not being
torn down (Table 14.15). -/
def State.irqFree (s : State) (m : IrqMsg) : Bool :=
  match m.after with
  | none => true
  | some (qn, slot) => s.rf (F.ctxState (qn / 8)) != 3 && !s.clientBusy (fun c => c == .record qn slot || c == .signal qn slot)
      && !s.sigs.any (fun g => g.qn == qn && g.slot == slot)

/-- NOP (R301): a NOP with no error completes 0x00 OK. -/
def execNop (q : QNum) (s : State) : Host.Outcome State Fault Refusal :=
  match s.phase4 q.val 0x00 with
  | none => .next s
  | some c => .next (s.setCmd (c.done 0x00))

/-- TILES (R284, R299): the command's tile table is taken up; a table of no tiles completes OK_EMPTY. -/
def execTiles (q : QNum) (s : State) : Host.Outcome State Fault Refusal :=
  match s.phase4 q.val 0x01 with
  | none => .next s
  | some c =>
    let n := c.fld 56 4
    if n = 0 then .next (s.setCmd (c.done 0x01)) else .next (s.setCmd { c with tiles := n, acted := true })

/-- A write of a command ended in error: the command fails, and one that runs tiles admits no further tile (R297). -/
def Cmd.writeFails (c : Cmd) : Cmd :=
  if c.phase = 4 ∧ c.tiles ≠ 0 then { c.fail 0x30 0xFFFFFFFF with phase := 5 } else c.fail 0x30 0xFFFFFFFF

/-- What an answered write lets go on: signal updates whose records are visible (R25), and the commands that wait for the signal that
a port has updated itself (R305). -/
def State.wrote (s : State) (cl : Client) : State :=
  match cl with
  | .record _ _ => s.sigsReady
  | .signal _ _ => s.rereadAll
  | _ => s

/-- MP_WRITE_RESPONSE (R423, R596): the fabric answers a write; an error counts and fails the writing command. -/
def execMpWriteResponse (port : PortId) (id : Fin 2048) (ok : Bool) (s : State) : Host.Outcome State Fault Refusal :=
  match s.txn port.val id.val with
  | none => .next (s.dropOwed port.val id.val)
  | some t =>
    if t.op ≠ 1 then .next s
    else if s.flightBreaks t then .next (s.consistencyFail false)
    else
      let s := (s.retireTxn t).serveWaiting
      if ok then .next (s.wrote t.client)
      else
        let s := ((s.inc (F.mpFabErr t.port) 1).raise (pgMp t.port) 0).mpErr t.port 0x30 t.ctx t.slot 1 t.inst t.hpa
        match t.client with
        | .command qn slot => .next (s.modCmd qn slot Cmd.writeFails)
        | cl => .next (s.wrote cl)

/-- MP_ATOMIC_RESPONSE (R429, R658): the fabric answers a far SIGNAL_ADD: the add is made at the point of coherence, or is
refused and the queue halts (R648). -/
def execMpAtomicResponse (port : PortId) (id : Fin 2048) (ok : Bool) (s : State) : Host.Outcome State Fault Refusal :=
  match s.txn port.val id.val with
  | none => .next (s.dropOwed port.val id.val)
  | some t =>
    if t.op ≠ 2 then .next s
    else if s.flightBreaks t then .next (s.consistencyFail false)
    else
      let s := s.retireTxn t
      let done : Bool := ok && !s.linePoison t.hpa
      let s : State := if done then { s with mem := memPut s.mem t.hpa (natLe 8 (leNat (s.rawBytes t.hpa 8) + t.addend)) }
        else s.refuseAtomic t.port t.ctx t.slot t.hpa t.inst
      let s := s.serveWaiting
      match t.client with
      | .signal qn slot => .next (if done then s.rereadAll else s.sigFail qn slot 0x30)
      | _ => .next s

end Sys2Proof.Machine
end

