-- ==== Sys2Proof/Machine/Recovery.lean ====
section
/-! DEFINITION. The commands of the sheepdogs, of the reset ladder and of host loss (16_sheepdogs_resets_recovery.md), and the
restart of firmware processors (15_drover_and_shepherd_firmware.md). -/

namespace Sys2Proof.Machine

/-! Engine resets. -/

/-- The engines that a tile of a kind uses, by the bits of Table 16.11. -/
def kindEngines (kind : Nat) : Nat :=
  match kind with
  | 0 => 0b01001
  | 1 => 0b00100
  | 2 => 0b00010
  | 4 => 0b01000
  | _ => 0

/-- An engine reset is asked for: it starts, or, while a save waits for the core, the tile is stopped and the reset takes place
after the resume (Table 16.9); a cluster reset covers it. -/
def State.askEngineReset (s : State) (n mask : Nat) : State :=
  if (s.cluster (n / 4)).resetting then s
  else if s.rf F.holdState = 1 then
    let s := s.modCore n (fun k => { k with rstAfter := k.rstAfter ||| mask })
    match (s.core n).tile with
    | some t => (s.rerunOrReset n t 1).boundary n
    | none => s
  else s.engineReset n mask

/-- A sheepdog of a core expires. -/
def State.dogExpire (s : State) (n e : Nat) : State :=
  let s := s.shdExpire n e
  (s.modCore n (fun k => { k with dogs := k.dogs.set e 0 })).askEngineReset n (2 ^ e)

/-- ENGINE_SHEEPDOG_EXPIRY (R539): the sheepdog of an engine of a core reaches its limit. -/
def execEngineSheepdogExpiry (core : CoreId) (eng : Eng) (s : State) : Host.Outcome State Fault Refusal :=
  let e := eng.ctorIdx
  let n := core.val
  if e ≠ 4 ∧ s.rf (F.shdLimit n e) ≤ (s.core n).dogs.getD e 0 then .next (s.dogExpire n e) else .next s

/-- TSQ_SHEEPDOG_EXPIRY (R539). -/
def execTsqSheepdogExpiry (core : CoreId) (s : State) : Host.Outcome State Fault Refusal :=
  if s.rf (F.shdLimit core.val 4) ≤ (s.core core.val).dogs.getD 4 0 then .next (s.dogExpire core.val 4) else .next s

/-- What an engine's logic loses in its reset (step 2 of Table 16.4, R92, R109, R136). -/
def State.engineClear (s : State) (n mask : Nat) : State :=
  let s := if bit mask 0 then (s.setReg (F.mxePhase n).off 0).mxeStop n else s
  let s := if bit mask 1 then s.setReg (F.vxePhase n).off 0 else s
  let s := if bit mask 2 then s.setReg (F.atePhase n).off 0 else s
  if bit mask 3 then (((s.wb (F.cbsValid n 0) false).wb (F.cbsValid n 1) false).setReg (F.wduPhase n).off 0).dropAhead n else s

/-- RESET_REQ of a core's pages reads 0 again (Table 19.2). -/
def State.clearReqs (s : State) (n : Nat) : State :=
  forL [pgMxe n, pgVxe n, pgAte n, pgWdu n, pgTsq n, pgShd n] (fun b s => s.wb (F.pgResetReq b) false) s

/-- The engine resets of a core within 2^24 EPOCHs reach ENG_LIMIT (R576). -/
def State.autoRetire (s : State) (n : Nat) : Bool :=
  s.rf F.engLimit != 0 && decide (s.rf F.engLimit ≤ ((s.core n).rstLog.filter (fun e => decide (s.now - e < 2 ^ 24))).length)

/-- ENGINE_RESET_COMPLETE (R549, R550, R576): the tile ends as stopped and the core serves again. -/
def execEngineResetComplete (core : CoreId) (s : State) : Host.Outcome State Fault Refusal :=
  let n := core.val
  let k := s.core n
  if k.engRst = 0 ∨ (s.cluster (n / 4)).resetting then .next s
  else
    let s := match k.tile with
      | some t => s.rerunOrReset n t 1
      | none => s
    if !s.isReady then .next s
    else
    let s := s.engineClear n k.engRst
    let s := s.modCore n (fun k => { k with engRst := 0, rstAge := 0, dogs := [0, 0, 0, 0, 0], rstLog := s.now :: k.rstLog })
    let s := ((s.inc (F.shdResets n) 1).wb (F.shdEngRst n) false).raise (pgShd n) 0
    let s := s.clearReqs n
    let s := if s.autoRetire n then s.retire n else s
    .next (s.boundary n)

/-- ENGINE_RESET_LIMIT (R546): an engine reset passes 250 µs, and a cluster reset starts. -/
def execEngineResetLimit (core : CoreId) (s : State) : Host.Outcome State Fault Refusal :=
  let n := core.val
  if (s.core n).engRst ≠ 0 ∧ s.toEpochs 250000 ≤ (s.core n).rstAge then
    .next ((s.raise (pgShd n) 1).clusterReset (n / 4))
  else .next s

/-- An inlet whose ring lies in a cluster's CSB becomes STOPPED (step 5 of Table 16.5). -/
def State.stopInlets (s : State) (c : Nat) : State :=
  forN 32 (fun n s =>
    if s.rb (F.siEn n) ∧ s.rf (F.siRing n) / 2 ^ 52 % 16 = 1 ∧ s.rf (F.siCluster n) = c then
      (((s.inletDiscard n).wf (F.siState n) 3).raise (pgSi n) 0) else s) s

/-- The tile of a core in a cluster reset is stopped: it runs again, or its context is reset. -/
def State.coreStops (s : State) (n : Nat) : State :=
  match s.tileOn n with
  | some t => if s.isReady then s.rerunOrReset n t 2 else s
  | none => s

/-- A core of a reset cluster goes off and on. -/
def State.coreReset (s : State) (n : Nat) : State :=
  let s := (s.coreOff n).modCore n (fun k => { k with serving := [] })
  let s := (((s.wb (F.shdClRst n) false).wb (F.shdEngRst n) false).wf (F.shdExpired n) 0).clearReqs n
  if bit s.hsa.retired n then s else s.coreOn n

/-- A reset cluster's own registers and directory cache start anew. -/
def State.clusterRegs (s : State) (c : Nat) : State :=
  let s := (s.offRegs (pgCl c) (pgCl c + 0x1000)).wb (F.pgResetReq (pgCl c)) false
  let s := s.setCluster c { s.cluster c with resetting := false, dirCache := [], walkCache := [] }
  s.wf (F.clCoresOn c) (15 - bits s.hsa.retired (4 * c) 4)

/-- A cluster's CSB holds zeros. -/
def State.csbWipe (s : State) (c : Nat) : State :=
  { s with csb := tblDropRange s.csb (c * 2 ^ 24) ((c + 1) * 2 ^ 24)
           csbPoison := s.csbPoison.filter (fun l => !(l / 2 ^ 18 == c)) }

/-- CLUSTER_RESET_COMPLETE (R551): the cluster's domains have been off and on, its memories hold zeros, its contexts with
windows are reset, other tiles run again. -/
def execClusterResetComplete (cl : ClId) (s : State) : Host.Outcome State Fault Refusal :=
  let c := cl.val
  if !(s.cluster c).resetting then .next s
  else
    let ctxs := (s.csbMap.filter (fun e => e.1 / 64 == c)).map (fun e => (e.2 - 1) / 64)
    let s := forN 4 (fun i s => s.coreStops (4 * c + i)) s
    if !s.isReady then .next s
    else
    let s := (forN 4 (fun i s => s.coreReset (4 * c + i)) s).clusterRegs c
    let s := (forL ctxs (fun x s => s.unbindCsb x c) s).csbWipe c
    let s := (s.wf (F.clCsbFree c) (64 - s.rf (F.csbInlet c))).wf (F.clRetired c) (bits s.hsa.retired (4 * c) 4)
    let s := s.wf (F.clCsbInlet c) (s.rf (F.csbInlet c))
    let s := s.stopInlets c
    let s := forL ctxs (fun x s => s.contextReset x 2) s
    .next (s.showLevel c).boundaries

/-! Context resets. -/

/-- QUEUE_SHEEPDOG_EXPIRY (R539, R543): context 0's only reports a stall. -/
def execQueueSheepdogExpiry (q : QNum) (s : State) : Host.Outcome State Fault Refusal :=
  let lim := s.rf (F.qShd q.val)
  if lim = 0 ∨ (s.queue q.val).dog < lim then .next s
  else
    let s := s.modQueue q.val (fun v => { v with dog := 0 })
    if q.val / 8 = 0 then .next (s.raise 0 0) else .next (s.contextReset (q.val / 8) 0)

/-- ABORT_ACK (R547): the engine drops an aborted tile; pins and reservation are released. -/
def execAbortAck (core : CoreId) (s : State) : Host.Outcome State Fault Refusal :=
  match (s.core core.val).tile with
  | none => .next s
  | some t =>
    if t.aborting ∧ (s.core core.val).engRst = 0 then
      match s.stopTile core.val t with
      | .error s => .next s
      | .ok s => .next (s.boundary core.val)
    else .next s

/-- ABORT_ACK_TIMEOUT (R548): no acknowledgement within 20 µs starts an engine reset of the tile's engines. -/
def execAbortAckTimeout (core : CoreId) (s : State) : Host.Outcome State Fault Refusal :=
  match (s.core core.val).tile with
  | none => .next s
  | some t =>
    if t.aborting ∧ s.reached (.ctxAbort t.ctx) (s.toEpochs 20000) then
      .next (s.engineReset core.val (if kindEngines t.kind = 0 then 0b10000 else kindEngines t.kind))
    else .next s

/-- CONTEXT_DRAIN_LIMIT (R548): a context reset's drain exceeds 10 ms, and the instance resets with cause 6. -/
def execContextDrainLimit (ctx : CtxId) (s : State) : Host.Outcome State Fault Refusal :=
  if s.closing.any (fun k => k.ctx == ctx.val && k.cause != 0) ∧ s.reached (.ctxDrain ctx.val) (s.toEpochs 10000000) then
    .next (s.instanceReset 6 true)
  else .next s

/-! Firmware processors (Table 15.2, R554). -/

/-- Kick registers (R539): a Drover's, or the Shepherd's. -/
def execKickRegisterWrite (drover : Option (Fin 4)) (s : State) : Host.Outcome State Fault Refusal :=
  match drover with
  | none => .next { s with boot := { s.boot with shepDog := 0 } }
  | some n => .next (s.setDrover n.val { s.drover n.val with dog := 0 })

/-- A Drover crashes with a cause (R518, R523, R525): the third crash within 2^20 EPOCHs resets the instance. -/
def State.droverCrash (s : State) (n cause : Nat) : State :=
  let l := (s.now :: s.boot.crashes).filter (fun e => decide (s.now - e < 2 ^ 20))
  let s := { s with boot := { s.boot with crashes := l } }
  let s := ((s.wf (F.dvCause n) cause).wf (F.dvCrashEpoch n) s.now).incSat (F.dvTotal n) 1
  let s := forN 4 (fun i s => s.wf (F.dvWindow i) (min 3 l.length)) s
  let s := s.logLater 2 cause 0 0 n
  let s := ((s.wb (F.dvRunning n) false).wb (F.dvRestarting n) true).setDrover n { s.drover n with dog := 0, restart := s.now }
  if 3 ≤ l.length then s.instanceReset 4 true else s

/-- DROVER_CRASH (R518): 1 protection violation, 2 illegal instruction, 3 trap in the kernel's handler. -/
def execDroverCrash (n : Fin 4) (cause : Fin 3) (s : State) : Host.Outcome State Fault Refusal :=
  if s.rb (F.dvRunning n.val) then .next (s.droverCrash n.val (cause.val + 1)) else .next s

/-- DROVER_SHEEPDOG_EXPIRY (R539, R541): 1 ms without a kick is a crash, cause 4. -/
def execDroverSheepdogExpiry (n : Fin 4) (s : State) : Host.Outcome State Fault Refusal :=
  if s.rb (F.dvRunning n.val) ∧ s.toEpochs 1000000 ≤ (s.drover n.val).dog then .next (s.droverCrash n.val 4) else .next s

/-- DROVER_RESTART_DONE (R523, R527): the image's digest matches and the Drover resumes its duty, or the restart crashes with
cause 5. -/
def execDroverRestartDone (n : Fin 4) (digestOk : Bool) (s : State) : Host.Outcome State Fault Refusal :=
  let n := n.val
  if !s.rb (F.dvRestarting n) then .next s
  else if !digestOk then .next (s.droverCrash n 5)
  else
    let b := (s.drover n).slotB
    let svn := match s.droverImage b with
      | some i => i.1
      | none => 0
    let s := (((s.wb (F.dvRestarting n) false).wb (F.dvRunning n) true).wb (F.dvSlot n) b).wf (F.dvSvn n) svn
    let s := ((s.setDrover n { s.drover n with dog := 0 }).loadRegions n).raise pgShm 7
    let s := if n = 3 then { s with pwr := { s.pwr with tdpStart := s.now } } else s
    .next (s.updateStep n)

/-- SHEPHERD_SHEEPDOG_EXPIRY (R554): ROM checks the running image; it restarts, or the instance resets with cause 5. -/
def execShepherdSheepdogExpiry (digestOk : Bool) (s : State) : Host.Outcome State Fault Refusal :=
  if s.isReady ∧ s.shepUp ∧ s.toEpochs 200000000 ≤ s.boot.shepDog then
    let again : Bool := match s.boot.shepRestart with
      | some e => decide (s.now - e < 2 ^ 20)
      | none => false
    if digestOk ∧ ¬ again then
      .next ({ s with boot := { s.boot with shepHalted := true, shepRestart := some s.now, shepDog := 0 } }.wb F.mbPaused true)
    else .next (s.instanceReset 5 true)
  else .next s

/-- SHEPHERD_RESTART_DONE (R554): the image resumes from P00's state, as in step 4 of Table 15.4. -/
def execShepherdRestartDone (s : State) : Host.Outcome State Fault Refusal :=
  if s.boot.shepHalted then
    .next (({ s with boot := { s.boot with shepHalted := false, shepDog := 0 } }.wb F.mbPaused false).raise pgShm 8).logWaiting.taResume
  else .next s

/-- The Drover whose duty a command waits on (Table 15.1). -/
def Cmd.duty (c : Cmd) : Option Nat :=
  match c.opcode with
  | 0x8A => some 0
  | 0x84 => if c.fld 50 1 % 4 = 3 then some 0 else none
  | 0x81 => some 1
  | 0x82 => some 1
  | 0x83 => some 1
  | 0x88 => if c.fld 50 1 % 8 = 5 then none else some 3
  | _ => none

/-- DV_SVC_TIMEOUT (R514): a wait on a paused duty exceeds TIMEOUT EPOCHs; the command has changed nothing. -/
def execDvSvcTimeout (q : QNum) (s : State) : Host.Outcome State Fault Refusal :=
  match (s.cmdsOf q.val).find? (fun c => c.phase == 4 && !c.acted && c.svc) with
  | none => .next s
  | some c =>
    match c.duty with
    | none => .next s
    | some d =>
      if ¬ s.rb (F.dvRunning d) ∧ s.rf (F.dvSvc d) < s.now - c.svcStart then .next (s.setCmd (c.done 0x71)) else .next s

/-! Host loss (R556 to R560). -/

/-- HOST_LOSS (R556, R558, R560): no heartbeat for LIMIT EPOCHs. -/
def execHostLoss (s : State) : Host.Outcome State Fault Refusal :=
  let lim := s.rf F.hostLossEpochs
  if s.isReady ∧ s.rf F.hostState = 0 ∧ lim ≠ 0 ∧ s.reached .hostBeat lim then
    if s.rf F.detachPolicy = 0 then .next ((s.wf F.hostState 1).raise 0 3)
    else
      let s := (s.wf F.hostState 2).raise 0 3
      let s := s.endColls 0x70
      .next (s.discardFrames.quiesceAll 1).boundaries
  else .next s

/-- PRESERVE_MESSAGE (R560, step 3 of Table 16.8): the save is sealed and every outstanding write is answered. -/
def execPreserveMessage (s : State) : Host.Outcome State Fault Refusal :=
  let saved : Bool := match s.newest with
    | some (v, _) => v.preserve && !v.superseded
    | none => false
  if s.rf F.hostState = 2 ∧ saved ∧ s.isReady ∧ ¬ s.txns.any (fun t => t.op != 0) ∧ ¬ s.waiting.any (fun r => r.op != 0)
      ∧ s.xing .hrp then
    .next (State.wf { s with pins := { s.pins with
      irqSent := ⟨none, s.rf F.preserveAddr, s.rf F.preserveData, none⟩ :: s.pins.irqSent } } F.hostState 3)
  else .next s

/-- HOST_BEAT (R556): a heartbeat; ignored while the host is lost (R558). -/
def execHostBeat (_v : W32) (s : State) : Host.Outcome State Fault Refusal := .next s.hostBeat

/-- ATTACH (R559): the committed 64-bit value is the token, or is refused and counted; the host's holding latch of the register holds its
low half as it reads, zero (R10). -/
def execAttachWrite (token : W64) (s : State) : Host.Outcome State Fault Refusal :=
  let s := s.attach token.toNat
  .next { s with wlatch := tblDel s.wlatch 0x68 }

/-- ATTACH_FRESH (R559): GO resets the instance with cause 9 and attaches without a token; a restored save is superseded. -/
def execAttachFresh (go : Bool) (s : State) : Host.Outcome State Fault Refusal :=
  .next (if go then s.attachFresh else s)

/-! Key slots and scrub. -/

/-- KEY_SLOT_DRAINED (R502): a RETIRING slot's in-flight count has reached zero. -/
def execKeySlotDrained (slot : SlotId) (s : State) : Host.Outcome State Fault Refusal :=
  if s.rf (F.slState slot.val) = 2 ∧ s.rf (F.slInflight slot.val) = 0 then .next (s.slotEmpty slot.val) else .next s

/-- KEY_QUARANTINE_END (R502): 256 EPOCHs have passed. -/
def execKeyQuarantineEnd (slot : SlotId) (s : State) : Host.Outcome State Fault Refusal :=
  if s.rf (F.slQuar slot.val) = 1 ∧ s.reached (.key slot.val) 256 then
    .next ((s.wf (F.slQuar slot.val) 0).stopT (.key slot.val))
  else .next s

/-- An admitted tile of a core uses a CBS half (R127, R130). -/
def State.usesHalf (s : State) (n h : Nat) : Bool :=
  match s.tileOn n with
  | some t => (t.kind == 4 && t.half == h) || (t.kind == 0 && (⟨s, n, t⟩ : Tx).cbHalves.any (fun e => e.1 == h))
  | none => false

/-- A 64 B line of a CBS half keeps a poison mark (R126, R134). -/
def State.cbsMark (s : State) (n h l : Nat) : State :=
  s.modCore n (fun k => if h = 0 then { k with h0 := { k.h0 with bad := setIns k.h0.bad l } } else { k with h1 := { k.h1 with bad := setIns k.h1.bad l } })

/-- An uncorrectable word of a CBS half: a half that no admitted tile uses is no longer VALID, else the word is poison (R134). -/
def State.cbsScrub (s : State) (n h l : Nat) : State :=
  if s.usesHalf n h then s.cbsMark n h l else (s.wb (F.cbsValid n h) false).raise (pgWdu n) 1

/-- PATROL_SCRUB_VISIT (R434, R433, R134, R438): the scrubber reads one word of an SRAM. -/
def execPatrolScrubVisit (w : ScrubWord) (s : State) : Host.Outcome State Fault Refusal :=
  if ¬ s.isReady ∨ ¬ s.rb F.scrubEn then .next s
  else
    let bad := (s.inc F.sramUe 1).raise (pgMp 0) 3
    match w with
    | .clean => .next s
    | .corrected => .next ((s.inc F.sramCe 1).raise (pgMp 0) 2)
    | .cbsHalf n h l => .next (bad.cbsScrub n.val h.val l.toNat)
    | .csb c l => .next { bad with csbPoison := setIns s.csbPoison (c.val * 2 ^ 18 + l.toNat) }
    | .shared qm => .next (bad.sharedPoison qm)

end Sys2Proof.Machine
end

