-- ==== Sys2Proof/Machine/RegOps.lean ====
section
/-! DEFINITION. Register accesses: what a read answers, what a write does, by the access codes and by the rules of the registers
that have a behaviour of their own (00_scope.md R6 to R11, 18_integration_ports_and_crossings.md R598,
19_register_reference.md). -/

namespace Sys2Proof.Machine

/-! Paths (R10, R517, R621). -/

/-- The number of a path in the holding latches; 6 is the remote-access mailbox served at the Bellwether itself. -/
def pathCode : Path → Nat
  | .host => 0
  | .drover n => 1 + n.val
  | .remote => 5

/-- The pages that Drover `n` may write (R517, Table 15.1). -/
def droverMay (n : Nat) (l : Loc) : Bool :=
  match l.page with
  | .cl => l.idx == n
  | .mxe | .vxe | .ate | .wdu | .tsq | .shd => l.idx / 4 == n
  | .dv | .lk => n == 0
  | .xlt => n == 1
  | .kvd => n == 2
  | .pwr => n == 3
  | .glb | .shm | .hup | .grz | .grzSlots | .mp | .si | .ctx | .db => false

/-- Whether an access on a path reaches a page now: the host reaches the SHM page from POR_N release on and every page once the
instance is ready. -/
def State.reaches (s : State) (path : Path) (l : Loc) : Bool :=
  match path with
  | .host => s.hostOk || (l.page == .shm && s.pins.porN && s.xing .hrp)
  | .remote => s.isReady
  | .drover n => (s.boot.phase == .loaded || s.boot.phase == .ready) && s.rb (F.dvRunning n.val)

/-! The domain of a page (Table 19.1, R638). -/

/-- The page's block registers are held by a domain that is on. -/
def State.pageOn (s : State) (l : Loc) : Bool :=
  match l.page with
  | .cl => s.domOn (clusterDom l.idx)
  | .mxe | .vxe | .ate | .wdu | .tsq => s.domOn (coreDom l.idx)
  | .xlt => s.domOn 3
  | .kvd => s.domOn 4
  | .mp => s.domOn 5
  | .lk => s.domOn 6
  | .si => s.domOn 7
  | .dv => s.domOn 1
  | .glb | .shm | .pwr | .hup | .grz | .grzSlots | .shd | .ctx | .db => true

/-! Reading. -/

/-- A core's engine is in its engine reset. -/
def State.engResetting (s : State) (l : Loc) : Bool :=
  match l.page with
  | .mxe => bit (s.core l.idx).engRst 0
  | .vxe => bit (s.core l.idx).engRst 1
  | .ate => bit (s.core l.idx).engRst 2
  | .wdu => bit (s.core l.idx).engRst 3
  | .tsq => bit (s.core l.idx).engRst 4
  | .cl => (s.cluster l.idx).resetting
  | _ => false

/-- A DMA tile runs in a cluster (R644). -/
def State.dmaRuns (s : State) (c : Nat) : Bool :=
  (List.range 4).any (fun i => match (s.core (4 * c + i)).tile with
    | some t => t.kind == 3
    | none => false)

/-- PG_STAT.BUSY: the block holds work. -/
def State.pageBusy (s : State) (l : Loc) : Bool :=
  match l.page with
  | .cl => s.dmaRuns l.idx
  | .mxe => s.rb (F.mxeActive l.idx)
  | .vxe => s.rb (F.vxeActive l.idx)
  | .ate => s.rb (F.ateActive l.idx)
  | .wdu => s.rb (F.mxeActive l.idx)
  | .tsq => s.rb (F.tsqActive l.idx)
  | .kvd => s.rb F.reclaimBusy
  | .xlt => !s.xlt.drains.isEmpty
  | .mp => s.txns.any (fun t => t.port == l.idx) || s.waiting.any (fun r => s.reqPort r == l.idx)
  | .shm => s.rb F.mbBusy
  | .si => (s.inlet l.idx).inFrame
  | _ => false

/-- PG_STAT as read (Table 19.2, R640). -/
def State.pgStat (s : State) (l : Loc) : Nat :=
  if l.page = .ctx then 1
  else
    let st := if !s.pageOn l then 3 else if s.engResetting l then 2 else if s.isReady ∨ l.page = .shm then 1 else 0
    let v := (s.reg (l.base + 0x10)).toNat
    setBits (setBits v 0 2 st) 2 1 (b2n (s.pageBusy l))

/-- Reads outstanding for an MXE or codebook tile of a core, and its run-on reads (Table 4.7). -/
def State.weightReads (s : State) (n : Nat) : Nat :=
  let mine := match s.tileOn n with
    | some t => if t.kind = 0 ∨ t.kind = 4 then (t.waits.filter (fun w => !w.2)).length else 0
    | none => 0
  mine + (s.runOnOut n).length + (s.txns.filter (fun t => t.client == .runDrop n)).length

/-- A drain of RELEASE, an invalidation or a teardown waits on a port (Table 12.6). -/
def State.portDraining (s : State) (n : Nat) : Bool :=
  s.xlt.drains.any (fun d => d.txns.any (fun t => t.1 == n))
    || s.cmds.any (fun c => c.phase == 5 && c.flag 1 1
      && s.txns.any (fun t => t.port == n && t.op != 0 && drainsFor (s.driver c.qn) c t.client))
    || s.closing.any (fun k => k.step == 3 && s.txns.any (fun t => t.port == n && t.ctx == k.ctx && !t.inst))

/-- Core walks in flight (Table 11.16: the busiest walker's). -/
def State.walksNow (s : State) : Nat := (List.range 4).foldl (fun a c => max a (s.walkPages c).length) 0

/-- The value of a register as a read answers it, by its first offset. -/
def State.regRead (s : State) (r : RegAt) : Nat :=
  let o := r.off
  let l := r.loc
  let po := o - l.base
  let v := (s.reg o).toNat
  let hdr := po < 0x40 ∧ l.page ≠ .grzSlots ∧ l.page ≠ .db
  if hdr then
    if po = 0x0C ∧ l.page = .mp ∧ l.idx ≠ 0 then b2n (s.rb (F.pgEn (pgMp 0)))
    else if po = 0x10 then s.pgStat l
    else if po = 0x20 then s.evPend l.base
    else if po = 0x38 then
      if pageLockable l.page l.idx then b2n (s.rb (F.lockBoot l.base)) + 2 * b2n (s.rf F.trust != 0) else 0
    else v
  else if !s.pageOn l then 0
  else match l.page with
    | .db => if po < 0x40 then v
      else
        let a := dbAlias o
        if a % 0x40 = 0x14 then setBits (s.reg a).toNat 0 1 (b2n (s.rb (F.qEn (8 * ((a - 0x400000) / 0x1000) + (a % 0x1000 - 0x100) / 0x40))))
        else (s.reg a).toNat
    | .ctx =>
      if 0x100 ≤ po ∧ po < 0x300 ∧ po % 0x40 = 0x14 then setBits v 0 1 (b2n (s.rb (F.qEn (8 * l.idx + (po - 0x100) / 0x40)))) else v
    | .glb => if po = 0x60 ∧ s.rf F.hostState ≠ 0 then 0 else v
    | .kvd =>
      if po = 0x5C then s.kvd.ringHead % 65536 + s.kvd.ringTail % 65536 * 65536
      else if po = 0x6C then s.kvd.fifo.length % 2 ^ 13 + s.kvd.pins.length % 2 ^ 10 * 2 ^ 13
      else v
    | .xlt => if po = 0x54 then min 8 s.walksNow + 16 * b2n (!s.xlt.drains.isEmpty) + 32 * b2n (s.rb F.fltFull) else v
    | .grz => if 0x100 ≤ po ∧ po < 0x500 ∧ po % 16 = 12 then min 65535 (s.waitTiles ((po - 0x100) / 16)) else v
    | .tsq => if po = 0x40 then setBits v 17 1 (b2n (s.waitsAt l.idx)) else v
    | .wdu => if po = 0x44 then setBits v 16 11 (s.weightReads l.idx) else v
    | .mp => if po = 0x44 then setBits v 21 1 (b2n (s.portDraining l.idx)) else v
    | .dv => if po = 0x48 then setBits v 16 2 (min 3 (s.boot.crashes.filter (fun e => decide (s.now - e < 2 ^ 20))).length) else v
    | _ => v

/-- An access that breaks R9: misaligned, or of 64 bits to a 32-bit register (R598). -/
def accBad (off : Nat) (wide : Bool) : Bool :=
  (wide && decide (off % 8 ≠ 0)) || decide (off % 4 ≠ 0) || (match regAt off with
    | none => false
    | some r => wide && !r.row.wide)

/-- A read: its data, whether HRP_RSP_ERR is set, and the state with the latched high half (R11, R598). A high half that is read while none
is latched answers what the register holds now: the spec does not say (DESIGN CHOICE, assumption 118). -/
def State.busRead (s : State) (code off : Nat) (wide : Bool) : Nat × Bool × State :=
  if (wide ∧ off % 8 ≠ 0) ∨ off % 4 ≠ 0 then (0, true, s)
  else match regAt off with
    | none => (0, false, s)
    | some r =>
      if wide ∧ ¬ r.row.wide then (0, true, s)
      else
        let v := s.regRead r
        let key := code * 2 ^ 26 + r.off
        if wide ∨ ¬ r.row.wide then (v, false, s)
        else if off = r.off then (v % 2 ^ 32, false, { s with rlatch := tblIns s.rlatch key (v / 2 ^ 32) })
        else match tblFind s.rlatch key with
          | some h => (h, false, { s with rlatch := tblDel s.rlatch key })
          | none => (v / 2 ^ 32, false, s)

/-! Writing. -/

/-- Set a register's fields by their access codes (Table 0.2, R323). -/
def State.putFields (s : State) (r : RegAt) (v : Nat) : State :=
  let locked := s.pageLocked r.loc
  let old := (s.reg r.off).toNat
  s.setReg r.off (BitVec.ofNat 64 (r.row.fields.foldl (fun a f =>
    match f.acc with
    | .rw => setBits a f.lo f.w (bits v f.lo f.w)
    | .rwl => if locked then a else setBits a f.lo f.w (bits v f.lo f.w)
    | .ctx0 => if locked ∨ r.loc.idx ≠ 0 then a else setBits a f.lo f.w (bits v f.lo f.w)
    | .w1c => setBits a f.lo f.w (bits a f.lo f.w - (bits a f.lo f.w &&& bits v f.lo f.w))
    | .ro | .wo => a) old))

/-- After a write of EV_EN or EV_ROUTE: only defined events are enabled, and a page that now has a pending event and messages
enabled sends its message at once (R633). -/
def State.evWrite (s : State) (r : RegAt) (v : Nat) : State :=
  let b := r.loc.base
  let m := evMask r.loc.page r.loc.idx
  let was : Bool := s.rb (F.evMsgEn b) && s.evPend b != 0
  let t := s.putFields r v
  let t := t.wf (F.evEn b) (t.rf (F.evEn b) &&& m)
  if !was ∧ t.rb (F.evMsgEn b) ∧ t.evPend b ≠ 0 then t.sendVec (t.rf (F.evVector b)) else t

/-! PG_CTRL (R632, Table 19.4). -/

/-- A host page asks core `n` to quiesce. -/
def State.quiesceAsked (s : State) (n : Nat) : Bool :=
  s.rb (F.pgQuiesceReq 0) || s.rb (F.pgQuiesceReq (pgCl (n / 4))) || s.rb (F.pgQuiesceReq (pgTsq n))

/-- The cores that a page's QUIESCE_REQ names. -/
def pageCores (l : Loc) : List Nat :=
  match l.page with
  | .glb => List.range 16
  | .cl => [4 * l.idx, 4 * l.idx + 1, 4 * l.idx + 2, 4 * l.idx + 3]
  | .tsq => [l.idx]
  | _ => []

/-- QUIESCE_REQ of a page is written. -/
def State.quiesceWrite (s : State) (l : Loc) (v : Bool) : State :=
  if (pageCores l).isEmpty ∨ s.rb (F.pgQuiesceReq l.base) = v then s
  else
    let s := s.wb (F.pgQuiesceReq l.base) v
    let s := if !v then s.wb (F.pgQuiesced l.base) false else if l.page = .glb then s.discardFrames else s
    let s := forL (pageCores l) (fun n s => if s.quiesceAsked n then s.quiesceCore 0 n else s.unquiesceCore 0 n) s
    s.boundaries

/-- RESET_REQ of a page is written 1: its reset starts, unless it runs already. -/
def State.resetWrite (s : State) (l : Loc) : State :=
  let ask (mask : Nat) : State := if s.domOn (coreDom l.idx) then (s.wb (F.pgResetReq l.base) true).askEngineReset l.idx mask else s
  match l.page with
  | .glb => s.instanceReset 7 true
  | .cl => if s.domOn (clusterDom l.idx) then (s.wb (F.pgResetReq l.base) true).clusterReset l.idx else s
  | .mxe => ask 1
  | .vxe => ask 2
  | .ate => ask 4
  | .wdu => ask 8
  | .tsq => ask 16
  | .shd => ask 31
  | _ => s

/-- A write of PG_CTRL. -/
def State.pgCtrlWrite (s : State) (r : RegAt) (v : Nat) : State :=
  let l := r.loc
  let s := if (l.page = .kvd ∨ (l.page = .mp ∧ l.idx = 0)) ∧ ¬ s.pageLocked l then s.wb (F.pgEn l.base) (bit v 0) else s
  let s := s.quiesceWrite l (bit v 1)
  if bit v 2 then s.resetWrite l else s

/-! Registers with a behaviour of their own. -/

/-- Set a field to a value when it holds one that its table forbids. -/
def State.clampF (s : State) (f : Fld) (bad : Nat → Bool) (v : Nat) : State := if bad (s.rf f) then s.wf f v else s

/-- Whether a sub-bank that a new inlet count of a cluster moves across the border is bound. -/
def State.inletBound (s : State) (c n old : Nat) : Bool :=
  s.csbMap.any (fun e => decide (64 * c + (64 - max n old) ≤ e.1) && decide (e.1 < 64 * c + (64 - min n old)))

/-- The sub-banks of a cluster that the valid partitions' minimum shares add up to. -/
def State.minCsbSum (s : State) : Nat :=
  ((List.range 64).map (fun p => if s.rb (F.pValid p) then s.rf (F.pMinCsb p) else 0)).sum

/-- A cluster's inlet sub-banks become `n`. -/
def State.setCsbInlet (s : State) (c n : Nat) : State :=
  let used := (s.csbMap.filter (fun e => e.1 / 64 == c)).length
  ((s.wf (F.csbInlet c) n).wf (F.clCsbInlet c) n).wf (F.clCsbFree c) (64 - n - used)

/-- One cluster's field of GRZ_CSB_INLET written (R378). -/
def State.csbInletField (s : State) (v c : Nat) : State :=
  let n := min 64 (bits v (8 * c) 7)
  let old := s.rf (F.csbInlet c)
  if n = old then s
  else if s.inletBound c n old ∨ 64 - n < s.minCsbSum then s.raise pgGrz 0
  else s.setCsbInlet c n

/-- A write of GRZ_CSB_INLET (R378): each cluster's field on its own. -/
def State.csbInletWrite (s : State) (v : Nat) : State := forN 4 (fun c s => s.csbInletField v c) s

/-- A write of XLT_FLT_CFG (R415). -/
def State.fltCfgWrite (s : State) (v : Nat) : State :=
  if s.rb F.fltEn then
    if ¬ bit v 31 ∧ s.rf F.fltHead = s.rf F.fltTail then s.wb F.fltEn false else s
  else
    let s := s.wf F.fltLog2 (max 4 (bits v 0 4))
    if bit v 31 then (((s.wf F.fltHead 0).wf F.fltTail 0).wb F.fltEn true).wb F.fltFull false else s

/-- A write of XLT_FLT_HEAD (R410, by the rule of R344). -/
def State.fltHeadWrite (s : State) (v : Nat) : State :=
  if cqHeadOk (s.rf F.fltTail) (s.rf F.fltHead) (s.rf F.fltLog2) v then
    let s := s.wf F.fltHead v
    if s.fltRoom then s.wb F.fltFull false else s
  else s

/-- A write of SI_CTRL (R274): EN rises or falls. -/
def State.siCtrlWrite (s : State) (n v : Nat) : State :=
  if s.rb (F.siEn n) then (if bit v 0 then s else (s.siDisable n).wf (F.siFormat n) (bits v 1 4))
  else
    let s := s.wf (F.siFormat n) (bits v 1 4)
    if bit v 0 then s.siEnable n else s

/-- A write of LK_CTRL (R457, R485). -/
def State.lkCtrlWrite (s : State) (p : Nat) (en : Bool) : State :=
  if s.rb (F.lkEn p) = en then s else if en then s.lkUp p else s.lkDown p

/-- Whether the register ignores writes in the present state, beside its fields' access codes. -/
def State.writeIgnored (s : State) (r : RegAt) (v : Nat) : Bool :=
  let po := r.off - r.loc.base
  match r.loc.page with
  | .glb => (po == 0x40 && (decide (bits v 0 14 < 100) || decide (10000 < bits v 0 14))) || (po == 0x58 && s.rf F.hostState != 0)
  | .xlt => po == 0x40 && s.rb F.fltEn
  | .kvd => decide (0x40 ≤ po) && decide (po < 0x5C) && s.rb (F.pgEn pgKvd)
  | .mp => po == 0x40 && s.rb (F.pgEn (pgMp 0))
  | .si => decide (0x44 ≤ po) && s.rb (F.siEn r.loc.idx)
  | _ => false

/-- What a page does beside setting its fields: clamps, and the effects of GO fields and doorbells. `t` is the state with the
fields set. -/
def State.blockEffect (t : State) (r : RegAt) (v : Nat) : State :=
  let l := r.loc
  let n := l.idx
  match l.page, r.off - l.base with
  | .glb, 0x50 => t.hostBeat
  | .glb, 0x68 => t.attach v
  | .glb, 0x70 => if bit v 0 then t.attachFresh else t
  | .glb, 0x90 => (t.clampF F.hrpMhz (fun x => x == 0) 1).clampF F.hrpMhz (fun x => decide (1000 < x)) 1000
  | .shm, 0x40 => if bit v 0 then t.mbGo (bits v 8 8) (bits v 16 8) else t
  | .pwr, 0x48 => t.clampF F.gateEpochs (fun x => x == 0) 1
  | .hup, 0x40 => t.rearm
  | .xlt, 0x50 => t
  | .kvd, 0x58 => t.clampF F.ringLog2 (fun x => decide (x < 12) || decide (24 < x)) 24
  | .kvd, 0x68 => if bit v 0 then t.provGo else t
  | .mp, 0x40 =>
    forN 8 (fun k t => t.wb (F.mpEnabled k) (decide (k < 2 ^ t.rf F.portsLog2))) (t.clampF F.granLog2 (fun x => decide (x < 8) || decide (16 < x)) 8)
  | .mp, 0x48 => t.clampF F.scrubPeriod (fun x => decide (x < 20) || decide (30 < x)) 24
  | .shd, o => if 0x40 ≤ o ∧ o < 0x54 then t.clampF (F.shdLimit n ((o - 0x40) / 4)) (fun x => x == 0) 1 else t
  | .lk, 0x110 => t.clampF F.hbPeriod (fun x => x == 0) 1
  | .lk, 0x128 => let a := if t.rb F.rraSize then 8 else 4
    t.wf F.rraOffset (t.rf F.rraOffset / a * a)
  | .lk, 0x140 => t.fwdDb v
  | .lk, 0x150 => t.rejoin (bits v 0 6)
  | .ctx, o =>
    let q := 8 * n + (o - 0x100) / 0x40
    if 0x100 ≤ o ∧ o < 0x300 ∧ o % 0x40 = 0x10 then
      (t.clampF (F.qLog2 q) (fun x => decide (x < 4)) 4).clampF (F.cqLog2 q) (fun x => decide (x < 4)) 4
    else if 0x100 ≤ o ∧ o < 0x300 ∧ o % 0x40 = 0x28 ∧ bit v 0 then t.restart q (bit v 1)
    else t
  | _, _ => t

/-- A write of RAMP_BEATS (Table 3.5): the low four bits are ignored, and less than 256 becomes 256. -/
def State.rampWrite (s : State) (n v : Nat) : State :=
  let x := bits v 0 16 / 16 * 16
  if x < 256 then (s.wf (F.rampBeats n) 256).raise (pgMxe n) 1 else s.wf (F.rampBeats n) x

/-- A write of ATE_CTRL (Table 5.8): KV_AHEAD of 0 or above 8 becomes 8. -/
def State.ateCtrlWrite (s : State) (n v : Nat) : State :=
  let s := s.wb (F.skipEn n) (bit v 0)
  let a := bits v 1 4
  if a = 0 ∨ 8 < a then (s.wf (F.kvAhead n) 8).raise (pgAte n) 1 else s.wf (F.kvAhead n) a

/-- A register whose whole write has one rule: the state after it, when the page is unlocked. -/
def State.lockedWrite (s : State) (r : RegAt) (v : Nat) : Option State :=
  let n := r.loc.idx
  match r.loc.page, r.off - r.loc.base with
  | .grz, 0x58 => some (s.csbInletWrite v)
  | .xlt, 0x48 => some (s.fltCfgWrite v)
  | .si, 0x40 => some (s.siCtrlWrite n v)
  | .lk, 0x40 => some (s.lkCtrlWrite n (bit v 0))
  | .mxe, 0x44 => some (s.rampWrite n v)
  | .ate, 0x40 => some (s.ateCtrlWrite n v)
  | _, _ => none

/-- Commit a whole register's value; the start of a remote access is not made here. -/
def State.commit (s : State) (r : RegAt) (v : Nat) : State :=
  let l := r.loc
  let po := r.off - l.base
  if l.page = .db then
    if po < 0x180 then s
    else
    let a := dbAlias r.off
    let q := 8 * l.idx + (a % 0x1000 - 0x100) / 0x40
    if a % 0x40 = 0x18 then s.doorbell q v false else if a % 0x40 = 0x24 then s.cqHeadWrite q v else s
  else if po < 0x40 ∧ l.page ≠ .grzSlots then
    if po = 0x0C then s.pgCtrlWrite r v
    else if po = 0x1C ∨ po = 0x24 then s.evWrite r v
    else s.putFields r v
  else if s.writeIgnored r v then s
  else if l.page = .ctx ∧ po = 0x118 then s.doorbell (8 * l.idx) v false
  else if l.page = .ctx ∧ po = 0x124 then s.cqHeadWrite (8 * l.idx) v
  else if l.page = .xlt ∧ po = 0x50 then s.fltHeadWrite v
  else match s.lockedWrite r v with
    | some t => if s.pageLocked l then s else t
    | none => (s.putFields r v).blockEffect r v

/-- A register of the W1C kind. -/
def RegAt.isW1c (r : RegAt) : Bool := r.row.fields.any (fun f => f.acc == .w1c)
/-- A register of the WO kind. -/
def RegAt.isWo (r : RegAt) : Bool := r.row.fields.any (fun f => f.acc == .wo)

/-- What the holding latch of a path gives as the low half (R10). -/
def State.lowHalf (s : State) (key : Nat) (r : RegAt) : Nat :=
  match tblFind s.wlatch key with
  | some x => x
  | none => if r.isWo || r.isW1c then 0 else (s.reg r.off).toNat % 2 ^ 32

/-- The latch after a commit holds what a read of the low half would return (R10). -/
def State.latchAfter (s : State) (key : Nat) (r : RegAt) : State :=
  { s with wlatch := if r.isW1c then tblIns s.wlatch key ((s.reg r.off).toNat % 2 ^ 32) else tblDel s.wlatch key }

/-- A write of the emulated part of a DV page enters its page's queue of 16, or is dropped (R521). -/
def State.emuWrite (s : State) (code n off v : Nat) : State :=
  if 16 ≤ (s.emu.filter (fun e => e.2.2.2 && e.2.1 / 0x1000 * 0x1000 == pgDv n)).length then s.wb (F.pgEmuTimeout (pgDv n)) true
  else { s with emu := s.emu ++ [(code, off, v, true)] }

/-- A write on a path: the low half of a 64-bit register loads the latch, the high half or a whole access commits (R9, R10). The
second part is HRP_RSP_ERR. -/
def State.busWrite (s : State) (code off : Nat) (wide : Bool) (v : Nat) : State × Bool :=
  if (wide ∧ off % 8 ≠ 0) ∨ off % 4 ≠ 0 then (s, true)
  else match regAt off with
    | none => (s, false)
    | some r =>
      let key := code * 2 ^ 26 + r.off
      if wide ∧ ¬ r.row.wide then (s, true)
      else if r.loc.page = .dv ∧ 0x40 ≤ r.off - r.loc.base then (s.emuWrite code r.loc.idx r.off v, false)
      else if !r.row.wide then (s.commit r (v % 2 ^ 32), false)
      else if wide then ((s.commit r (v % 2 ^ 64)).latchAfter key r, false)
      else if off = r.off then ({ s with wlatch := tblIns s.wlatch key (v % 2 ^ 32) }, false)
      else ((s.commit r (s.lowHalf key r + v % 2 ^ 32 * 2 ^ 32)).latchAfter key r, false)

/-! The remote-access mailbox (R469, R470). -/

/-- An emulated read waits for its answer: path code, offset, width (1 for 64 bits), and no write. -/
def State.emuAsk (s : State) (code off : Nat) (wide : Bool) : State := { s with emu := s.emu ++ [(code, off, b2n wide, false)] }

/-- An access of this instance's own registers by the remote-access path: its data, or none when an emulated read waits. -/
def State.remoteAccess (s : State) (code off : Nat) (write wide : Bool) (data : Nat) : Option Nat × State :=
  if !s.isReady then (some 0, s)
  else if write then (some 0, (s.busWrite 5 off wide data).1)
  else match regAt off with
    | none => (some 0, s)
    | some r =>
      if r.loc.page = .dv ∧ 0x40 ≤ r.off - r.loc.base ∧ off % 4 = 0 then (none, s.emuAsk code off wide)
      else
        let (v, _, s) := s.busRead 5 off wide
        (some v, s)

/-- A write of FLK_RRA_CTRL.GO: ignored while BUSY; an access to the writing member itself is made at once. -/
def State.rraGo (s : State) : State :=
  if s.rb F.rraBusy then s
  else
    let s := s.wb F.rraBusy true
    if s.routeTo (s.rf F.rraMember) = 4 then
      let s := { s with flock := { s.flock with rra := some (s.now, 1024) } }
      match s.remoteAccess 6 (s.rf F.rraOffset) (s.rb F.rraWrite) (s.rb F.rraSize) (s.rf F.rraData) with
      | (some d, s) => s.rraDone 0 d
      | (none, s) => s
    else s.rraSend

/-- A write as the paths of R10 make it: pages that the path does not reach ignore it, a Drover writes its own pages only
(R517), and GO of FLK_RRA_CTRL starts a remote access. HRP_RSP_ERR is the host port's. -/
def State.regWrite (s : State) (path : Path) (off : Nat) (wide : Bool) (v : Nat) : State :=
  let loc := locate off
  let reached : Bool := match loc with
    | some l => s.reaches path l && (match path with
      | .drover n => droverMay n.val l
      | _ => true)
    | none => s.hostOk
  if !reached then (if path = .host ∧ s.pins.porN ∧ s.xing .hrp then { s with pins := { s.pins with rerr := accBad off wide } } else s)
  else
    let (t, err) := s.busWrite (pathCode path) off wide v
    let t := if path = .host then { t with pins := { t.pins with rerr := err } } else t
    if off = 0x20138 ∧ ¬ wide ∧ bit v 0 then t.rraGo else t

/-- A read as the host register port makes it: zero from a page that it does not reach (R621), with the error of R598 alike. -/
def State.regReadBy (s : State) (path : Path) (off : Nat) (wide : Bool) : State :=
  let reached : Bool := match locate off with
    | some l => s.reaches path l
    | none => false
  if !reached then { s with pins := { s.pins with rdata := 0, rerr := accBad off wide } }
  else
    let (v, err, t) := s.busRead (pathCode path) off wide
    { t with pins := { t.pins with rdata := v, rerr := err } }

/-! The emulator (R519 to R521). -/

/-- The entries of a DV page, oldest first. -/
def State.emuOf (s : State) (n : Nat) : List (Nat × Nat × Nat × Bool) := s.emu.filter (fun e => e.2.1 / 0x1000 * 0x1000 == pgDv n)

/-- Remove an entry. -/
def State.emuDrop (s : State) (e : Nat × Nat × Nat × Bool) : State := { s with emu := s.emu.erase e }

/-- Answer an emulated read on its path. -/
def State.emuAnswer (s : State) (e : Nat × Nat × Nat × Bool) (v : Nat) : State :=
  let s := s.emuDrop e
  if e.1 = 0 then { s with pins := { s.pins with rdata := v, rerr := false } }
  else if e.1 = 6 then s.rraDone 0 v
  else if 16 ≤ e.1 then s.rraAnswer ((e.1 - 16) % 64) ((e.1 - 16) / 64) v
  else s

end Sys2Proof.Machine
end

