-- ==== Sys2Proof/Machine/GroupOps.lean ====
section
/-! DEFINITION. Group link keys, flock groups' binding, and what a member does with each type of flit that ends at it
(13_coachway_and_flock.md R468 to R473, R481, R482, 14_trust_keys_and_tenants.md R498, R504, R505). -/

namespace Sys2Proof.Machine

/-! Group link keys (Table 14.8, R498, R505). -/

/-- A group link key from what travels between the Shepherds: the salt in a package flock, else the key itself. -/
def groupKey (slot gen carried : Nat) : Nat :=
  if packageKey ≠ 0 then bNat (hkdf384 [] (natB 32 packageKey) (ascii "group" ++ natL 1 slot ++ natL 2 gen ++ natB 32 carried) 32)
  else carried

/-- A LINK slot becomes VALID with a generation and a key; its counts start at zero (R452). -/
def State.installLink (s : State) (n gen key : Nat) : State :=
  let s := ((s.wf (F.slState n) 1).wf (F.slKind n) 2).wf (F.slGen n) gen
  let s := { s with keys := tblPut 0 s.keys n key }
  forN 4 (fun p s => s.setLink p { s.link p with slotCount := tblDel (s.link p).slotCount n }) s

/-- A LINK slot of a generation is retired. -/
def State.retireLink (s : State) (n gen : Nat) : State :=
  if s.rf (F.slState n) = 1 ∧ s.rf (F.slKind n) = 2 ∧ s.rf (F.slGen n) = gen then s.wf (F.slState n) 2 else s

/-- A key slot of this member can take a LINK key (Table 14.12). -/
def State.linkSlotFree (s : State) (n : Nat) : Bool := decide (2 ≤ n) && s.rf (F.slState n) == 0 && s.rf (F.slQuar n) == 0

/-- The payload of a key flit: what it asks or answers (1 install, 2 installed, 3 refused, 4 retire), the slot, the
generation, and 32 bytes. -/
def keyBody (what slot gen carried : Nat) : List Byte := natLe 1 what ++ natLe 1 slot ++ natLe 2 gen ++ ofNats (natB 32 carried)

/-- Send a key flit to a member. -/
def State.sendKey (s : State) (m what slot gen carried : Nat) : State :=
  s.sendTo (s.mkHdr m 2 13 0 36) (keyBody what slot gen carried)

/-- A LINK ends with a status: on a failure every member that may hold the slot retires it (R505). -/
def State.linkJobEnd (s : State) (j : KeyJob) (status : Nat) : State :=
  let s : State := { s with flock := { s.flock with job := none } }
  let s := s.modCmd j.qn j.slot (fun c => c.done status)
  if status = 0 then s
  else forL (j.held ++ j.todo) (fun m s =>
    if m = s.rf F.flkMember then s.retireLink j.kslot j.gen else s.sendKey m 4 j.kslot j.gen 0) s

/-- The members that MEMBERS selects. -/
def Cmd.kbMembers (c : Cmd) : List Nat := (List.range 64).filter (fun m => bit (c.fld 56 8) m)

/-- The checks of Table 14.12 for LINK that this member can make: 0, or the status. -/
def State.kbLinkCheck (s : State) (c : Cmd) : Nat :=
  let n := c.fld 51 1 % 64
  let me := s.rf F.flkMember
  if n < 2 then 0x11
  else if c.kbMembers.isEmpty then 0x10
  else if !s.rb F.flkBw then 0x11
  else if c.kbMembers.contains me ∧ ¬ s.linkSlotFree n then 0x11
  else if c.kbMembers.any (fun m => s.routeTo m == 7) then 0x61
  else 0

/-- The key or salt `carried` of a checked LINK goes to every selected member. -/
def State.linkStart (s : State) (c : Cmd) (gen carried : Nat) : State :=
  let n := c.fld 51 1 % 64
  let me := s.rf F.flkMember
  let mine := c.kbMembers.contains me
  let todo := c.kbMembers.filter (fun m => m != me)
  let s := (if mine then s.installLink n gen (groupKey n gen carried) else s).setCmd { c with acted := true }
  let j : KeyJob := ⟨c.qn, c.slot, n, gen, todo, if mine then [me] else [], s.now⟩
  let s : State := { s with flock := { s.flock with job := some j } }
  let s := forL todo (fun m s => s.sendKey m 1 n gen carried) s
  if todo.isEmpty then s.linkJobEnd j 0x00 else s

/-- What the Bellwether's Shepherd does for LINK: it draws the key or salt and sends it to every selected member. -/
def State.kbLinkAct (s : State) (c : Cmd) : State :=
  match s.kbLinkCheck c with
  | 0 =>
    let gen := (s.rf (F.slGen (c.fld 51 1 % 64)) + 1) % 65536
    let (d, s) := s.takeDrbg
    s.linkStart c gen (d % 2 ^ 256)
  | st => s.setCmd (c.done st)

/-- An answer to an install reaches the Bellwether. -/
def State.keyAnswer (s : State) (src slot gen : Nat) (ok : Bool) : State :=
  match s.flock.job with
  | none => s
  | some j =>
    if j.kslot ≠ slot ∨ j.gen ≠ gen ∨ ¬ j.todo.contains src then s
    else if !ok then s.linkJobEnd { j with todo := setDel j.todo src } 0x11
    else
      let j := { j with todo := setDel j.todo src, held := j.held ++ [src] }
      if j.todo.isEmpty then s.linkJobEnd j 0x00 else { s with flock := { s.flock with job := some j } }

/-- A key flit reaches its member. -/
def State.keyFlit (s : State) (h : Hdr) (pay : List Byte) : State :=
  let slot := fldOf pay 1 1 % 64
  let gen := fldOf pay 2 2
  match fldOf pay 0 1 with
  | 1 =>
    if s.linkSlotFree slot then
      (s.installLink slot gen (groupKey slot gen (bNat (toNats ((pay.drop 4).take 32))))).sendKey h.src 2 slot gen 0
    else s.sendKey h.src 3 slot gen 0
  | 2 => s.keyAnswer h.src slot gen true
  | 3 => s.keyAnswer h.src slot gen false
  | 4 => s.retireLink slot gen
  | _ => s

/-- A flit of type 13 reaches its end: an SPDM message while the port is KEYING (R495), a key flit on an UP port (R498). -/
def State.spdmFlit (s : State) (p : Nat) (h : Hdr) (pay : List Byte) : State :=
  if s.rf (F.lkState p) = 2 then
    match Config.linkSpdm p (toNats pay) with
    | [] => s
    | r => s.sendOn p 13 (ofNats (r.take 224))
  else s.keyFlit h pay

/-- The Shepherd can take a flit of type 13 that ends here now; while it pauses the port does not take it, and the peer
resends it. -/
def State.takesKey (s : State) (p : Nat) (f : Flit) : Bool :=
  s.shepUp || !(s.rf (F.lkState p) == 2 || s.routeTo (hdrOf f.toNat).dst == 4)

/-! Flits that end at a member. -/

/-- A row's guard, the arrival by R453, and what follows it: collectives send what they can, and a DISCOVER that is due is
answered. -/
def State.flitIn (s : State) (p : LinkId) (nonce : BitVec 96) (f : Flit) (t : Nat) (act : Local) : State :=
  if s.xing (.lk p) ∧ flitRow f t then ((s.arrive p.val (natL 12 nonce.toNat) f act).collPumpAll).portMoved else s

/-- ROUTE: an acknowledgement at the Bellwether, the member's number elsewhere. -/
def State.routeIn (s : State) (h : Hdr) (pay : List Byte) : State := if s.rb F.flkBw then s.routeAck h else s.routeArrive h pay

/-- HEARTBEAT at the Bellwether: it is noted, unless the member is LOST, and answered (R481). -/
def State.heartbeatIn (s : State) (h : Hdr) : State :=
  if !s.rb F.flkBw then s
  else
    let s : State := if s.flock.lost.contains h.src then s else { s with flock := { s.flock with hb := tblIns s.flock.hb h.src s.now } }
    s.sendTo (s.mkHdr h.src 2 6 0 0) []

/-- HB_ACK at a member (R482). -/
def State.hbAckIn (s : State) : State := { s with flock := { s.flock with hbAck := s.now, bwLost := false } }

/-- REG_REQ: the access is made under this member's own rules, and answered (R469). -/
def State.regReqIn (s : State) (h : Hdr) (pay : List Byte) : State :=
  let off := fldOf pay 0 4 % 2 ^ 26
  let wide := bit (fldOf pay 4 1) 1
  if bit (fldOf pay 4 1) 0 then (s.regWrite .remote off wide (fldOf pay 5 8)).rraAnswer h.src h.opId 0
  else match s.remoteAccess (16 + h.opId * 64 + h.src) off false wide 0 with
    | (some v, s) => s.rraAnswer h.src h.opId v
    | (none, s) => s

/-- REG_RSP: the pending access completes; an answer after the timeout is dropped (R470). -/
def State.regRspIn (s : State) (p : Nat) (h : Hdr) (pay : List Byte) : State :=
  match s.flock.rra with
  | none => s.inc (F.lkDrops p) 1
  | some (_, tag) => if tag = h.opId then s.rraDone 0x00 (fldOf pay 0 8) else s.inc (F.lkDrops p) 1

/-- DOORBELL: a write of TAIL or of CQ_HEAD (R471). -/
def State.doorbellIn (s : State) (pay : List Byte) : State :=
  let q := fldOf pay 0 2 % 2 ^ 15
  if bit (fldOf pay 2 1) 0 then s.cqHeadWrite q (fldOf pay 3 4) else s.doorbell q (fldOf pay 3 4) false

/-- IRQ at the Bellwether (R468). -/
def State.irqIn (s : State) (h : Hdr) : State :=
  if s.rb F.flkBw then (s.wf F.fwdIrqPend (setBits (s.rf F.fwdIrqPend) h.src 1 1)).sendVec (s.rf F.fwdVector) else s

/-! FLOCK_BIND (R472, R473). -/

def Cmd.fbGroup (c : Cmd) : Nat := c.fld 50 1 % 64
def Cmd.fbRanks (c : Cmd) : Nat := c.fld 51 1 % 128
def Cmd.fbRank (c : Cmd) : Nat := c.fld 52 1 % 64
def Cmd.fbKey (c : Cmd) : Nat := c.fld 53 1 % 64

/-- The member table: member and context of each rank. -/
def rankTable (bs : List Byte) (n : Nat) : List (Nat × Nat) :=
  (List.range n).map (fun i => (bits (fldOf bs (4 * i) 4) 0 6, bits (fldOf bs (4 * i) 4) 16 12))

/-- What FLOCK_BIND does once Drover 0 serves it. -/
def State.flockBind (s : State) (c : Cmd) : State :=
  if c.fbRanks = 0 then s.setCmd (c.done 0x10)
  else if 4096 ≤ c.target ∨ s.rf (F.ctxState c.target) = 0 ∨ s.flock.groups.any (fun g => g.idx == c.fbGroup)
      ∨ 64 < c.fbRanks ∨ c.fbRanks ≤ c.fbRank then s.setCmd (c.done 0x11)
  else match s.ctxRead c.ctx (c.fld 56 8 % 2 ^ 52) (4 * c.fbRanks) with
    | (.error e, s) => s.setCmd (c.done e)
    | (.ok bs, s) =>
      let l := rankTable bs c.fbRanks
      if (l[c.fbRank]?).getD (64, 0) ≠ (s.rf F.flkMember, c.target) ∨ l.any (fun r => s.routeTo r.1 == 7) then s.setCmd (c.done 0x11)
      else
        let g : Group := ⟨c.fbGroup, c.target, l, c.fbRank, c.fbKey, 0, []⟩
        State.setCmd { s with flock := { s.flock with groups := s.flock.groups ++ [g] } } (c.done 0x00)

/-- What UNBIND does: TARGET's binding in GROUP goes. -/
def State.flockUnbind (s : State) (c : Cmd) : State :=
  let gs := s.flock.groups.filter (fun g => !(g.idx == c.fbGroup && g.ctx == c.target))
  State.setCmd { s with flock := { s.flock with groups := gs } } (c.done 0x00)

end Sys2Proof.Machine
end

