-- ==== Sys2Proof/Machine/Trust.lean ====
section
/-! DEFINITION. The commands of trust, keys and tenants: TRUST_ASSIGN, KEY_BIND and TEARDOWN (14_trust_keys_and_tenants.md). -/

namespace Sys2Proof.Machine

/-! TRUST_ASSIGN. -/

/-- LOCK (R490): the message carries the 32 B wrapping key, its first byte in the low bits. -/
def execTaLock (key : BitVec 256) (s : State) : Host.Outcome State Fault Refusal := .next (s.taArrive (1, key.toNat))

/-- START (R490). -/
def execTaStart (s : State) : Host.Outcome State Fault Refusal := .next (s.taArrive (2, 0))

/-- STOP (R650). -/
def execTaStop (s : State) : Host.Outcome State Fault Refusal := .next (s.taArrive (3, 0))

/-- PERMIT (R490): the message carries the 48 B image digest; the permit holds it as the number that its bytes spell, first
byte highest, as image digests are held. -/
def execTaPermit (digest : BitVec 384) (s : State) : Host.Outcome State Fault Refusal :=
  .next (s.taArrive (4, bNat (natL 48 digest.toNat)))

/-- QUERY (R614). -/
def execTaQuery (s : State) : Host.Outcome State Fault Refusal := .next (s.taArrive (5, 0))

/-- TA_RESERVED_MESSAGE (R614): a reserved code or a wrong length is REFUSED and changes nothing. -/
def execTaReservedMessage (s : State) : Host.Outcome State Fault Refusal := .next (s.taArrive (0, 0))

/-! KEY_BIND (R504, Tables 14.11 and 14.12). -/

/-- The operands of KEY_BIND. -/
def Cmd.kbOp (c : Cmd) : Nat := c.fld 50 1 % 4
def Cmd.kbKind (c : Cmd) : Nat := c.fld 50 1 / 4 % 4
def Cmd.kbSlot (c : Cmd) : Nat := c.fld 51 1 % 64

/-- The target of a BIND or CREATE is refused. -/
def State.badTarget (s : State) (c : Cmd) : Bool :=
  decide (4096 ≤ c.target) || s.rf (F.ctxState c.target) == 0 || s.rf (F.ctxState c.target) == 3 || s.otherPending c.target c

/-- A slot is neither EMPTY nor out of quarantine. -/
def State.slotBusy (s : State) (n : Nat) : Bool := s.rf (F.slState n) != 0 || s.rb (F.slQuar n)

/-- The checks of Table 14.12 for BIND, CREATE and RETIRE, in order: 0, or the status. -/
def State.kbCheck (s : State) (c : Cmd) : Nat :=
  let n := c.kbSlot
  if (c.kbOp = 1 ∧ 2 ≤ c.kbKind) ∨ n = 0 ∨ (n = 1 ∧ c.kbOp ≠ 0) then 0x11
  else if c.kbOp ≤ 1 ∧ s.badTarget c then 0x11
  else if c.kbOp = 0 ∧ (s.rf (F.slState n) ≠ 1 ∨ s.rf (F.slKind n) = 2) then 0x11
  else if c.kbOp = 1 ∧ s.slotBusy n then 0x11
  else if c.kbOp = 2 ∧ s.rf (F.slState n) ≠ 1 then 0x01
  else 0

/-- Install a key in an EMPTY slot: VALID, with its kind, its generation one higher (Table 14.10). -/
def State.installSlot (s : State) (n kind key : Nat) : State :=
  let s := ((s.wf (F.slState n) 1).wf (F.slKind n) kind).inc (F.slGen n) 1
  { s with keys := tblPut 0 s.keys n key }

/-- The memory key of CREATE (Table 14.8): derived for a package, else from the DRBG; a PLAIN slot has none. -/
def State.memoryKey (s : State) (n kind : Nat) : Nat × State :=
  if kind = 0 then (0, s)
  else if packageKey ≠ 0 then
    (bNat (hkdf384 [] deviceKey (ascii "mem" ++ natL 1 n ++ natL 2 ((s.rf (F.slGen n) + 1) % 65536) ++ natL 4 (s.rf F.bootCount)) 64), s)
  else
    let (d, s) := s.takeDrbg
    let (e, s) := s.takeDrbg
    (d % 2 ^ 256 + 2 ^ 256 * (e % 2 ^ 256), s)

/-- What the Shepherd does for a KEY_BIND that is not LINK. -/
def State.keyBindAct (s : State) (c : Cmd) : State :=
  match s.kbCheck c with
  | 0 =>
    let n := c.kbSlot
    let s := if c.kbOp = 0 then s.bindKey c.target n
      else if c.kbOp = 1 then
        let (k, s) := s.memoryKey n c.kbKind
        (s.installSlot n c.kbKind k).bindKey c.target n
      else s.wf (F.slState n) 2
    s.setCmd (c.done 0x00)
  | st => s.setCmd (c.done st)

/-- The KEY_BIND of a queue that is in phase 4 with the given OP. -/
def State.keyBindCmd (s : State) (q op : Nat) : Option Cmd :=
  match s.phase4 q 0x84 with
  | none => none
  | some c => if c.kbOp = op then some c else none

/-- KEY_BIND_BIND (R504): bind TARGET to a VALID slot. -/
def execKeyBindBind (q : QNum) (s : State) : Host.Outcome State Fault Refusal :=
  match s.keyBindCmd q.val 0 with
  | none => .next s
  | some c => .next (s.shepCmd c (s.kbCheck c) (fun s => s.keyBindAct c))

/-- KEY_BIND_CREATE (R504, R496): install a PLAIN or XTS key in an EMPTY slot and bind TARGET. -/
def execKeyBindCreate (q : QNum) (s : State) : Host.Outcome State Fault Refusal :=
  match s.keyBindCmd q.val 1 with
  | none => .next s
  | some c => .next (s.shepCmd c (s.kbCheck c) (fun s => s.keyBindAct c))

/-- KEY_BIND_RETIRE (R502, R504): a VALID slot becomes RETIRING. -/
def execKeyBindRetire (q : QNum) (s : State) : Host.Outcome State Fault Refusal :=
  match s.keyBindCmd q.val 2 with
  | none => .next s
  | some c => .next (s.shepCmd c (s.kbCheck c) (fun s => s.keyBindAct c))

/-! TEARDOWN (R507, R508). -/

/-- The region of TEARDOWN: its base and its length in bytes. -/
def Cmd.region (c : Cmd) : Nat × Nat := (c.fld 56 8 % 2 ^ 52 / 2 ^ 21 * 2 ^ 21, c.fld 64 4 * 2 ^ 21)

/-- TEARDOWN refuses its operands (R507). -/
def State.teardownBad (s : State) (c : Cmd) : Bool :=
  c.target == 0 || decide (4096 ≤ c.target) || s.rf (F.ctxState c.target) == 0 || s.rf (F.ctxState c.target) == 3
    || (c.flag 50 0 && (decide (65536 < c.fld 64 4) || decide (2 ^ 52 < c.region.1 + c.region.2)))

/-- TEARDOWN (R507, R508): TARGET becomes CLOSING; the command completes when TARGET is FREE. -/
def execTeardown (q : QNum) (s : State) : Host.Outcome State Fault Refusal :=
  match s.phase4 q.val 0x85 with
  | none => .next s
  | some c =>
    if s.teardownBad c then .next (s.setCmd (c.done 0x11))
    else .next ((s.setCmd { c with acted := true }).startClosing c.target (some (c.qn, c.slot)) 0
      (if c.flag 50 0 then some c.region else none))

/-- TEARDOWN_COMPLETE (R508): a closing context has drained; it is scrubbed, its records are written and it becomes FREE. A STOP
in progress takes its next step. -/
def execTeardownComplete (ctx : CtxId) (s : State) : Host.Outcome State Fault Refusal :=
  match s.closing.find? (fun k => k.ctx == ctx.val) with
  | none => .next s
  | some k => if s.isReady ∧ s.drained ctx.val then .next (s.finishClosing k).taResume else .next s

end Sys2Proof.Machine
end

