-- ==== Sys2Proof/Machine/Links.lean ====
section
/-! DEFINITION. The commands of Coachway ports, of the flock and of its collectives (13_coachway_and_flock.md), and KEY_BIND
LINK (14_trust_keys_and_tenants.md R504). A flit row carries the port, the nonce that the sender sealed the flit with, and
the flit. -/

namespace Sys2Proof.Machine

/-! Port events. -/

/-- LK_PHY_LOSS (R604): PHY_READY of a port takes a value. While the port is UP, its loss, or a PHY reset, fails the port; a
port that is not UP falls to DOWN without its PHY. -/
def execLkPhyLoss (p : LinkId) (ready : Bool) (s : State) : Host.Outcome State Fault Refusal :=
  let s : State := { s with pins := { s.pins with phyReady := setBits s.pins.phyReady p.val 1 (b2n ready) } }
  let st := s.rf (F.lkState p.val)
  if !s.isReady then .next s
  else if st = 3 then .next (s.linkFail p.val).portMoved
  else if ready ∨ st = 0 ∨ st = 6 then .next s
  else .next ((s.wf (F.lkState p.val) 0).dropLink p.val false).portMoved

/-- Credits at link-up: the queue sizes of Table 13.4. -/
def fullCredits : List Nat := [64, 64, 32, 32, 16, 16]

/-- LK_TRAIN_DONE (R464): a port that trains becomes KEYING; the requester of R495 sends its first SPDM message. -/
def execLkTrainDone (p : LinkId) (s : State) : Host.Outcome State Fault Refusal :=
  let n := p.val
  if s.isReady ∧ s.rf (F.lkState n) = 1 then
    let k := s.link n
    let s := (s.wf (F.lkState n) 2).setLink n { k with cred := fullCredits, txSeq := 0, rxSeq := 0, start := s.now }
    let s := s.showLink n
    if n % 2 = 0 then
      match Config.linkSpdm n [] with
      | [] => .next s
      | r => .next (s.sendOn n 13 (ofNats (r.take 224)))
    else .next s
  else .next s

/-- The session key of a link (Table 14.8). -/
def linkKey (lower higher secret : Nat) : Nat :=
  if packageKey ≠ 0 then bNat (hkdf384 [] (natB 32 packageKey) (ascii "link" ++ natB 32 lower ++ natB 32 higher) 32)
  else bNat ((hkdfExpand (natB 48 secret) (ascii "coachway link") 1 1 []).take 32)

/-- LK_SESSION_KEYED (R464, R495): the Shepherd ends a port's identity exchange with the neighbour's serial and port. When the
exchange passed, the port is UP under its fresh session key; else it stays KEYING, and the failure is logged. -/
def execLkSessionKeyed (p : LinkId) (ok : Bool) (peer : W64) (peerPort : LinkId) (lower higher : BitVec 256) (secret : BitVec 384)
    (s : State) : Host.Outcome State Fault Refusal :=
  let n := p.val
  if ¬ (s.isReady ∧ s.rf (F.lkState n) = 2 ∧ s.shepUp) then .next s
  else if !ok then .next (s.logEv 7 0 0 0 (n + 4 * s.rf (F.lkPeer n)))
  else
    let k := s.link n
    let s := s.setLink n { k with key := some (linkKey lower.toNat higher.toNat secret.toNat), count := 0, peer := peer.toNat,
                                  lastRx := s.now, ackStart := s.now }
    .next (((s.wf (F.lkState n) 3).wf (F.lkPeerPort n) peerPort.val).flush n).portMoved

/-! Flits. -/

/-- IDLE_FLIT (R453, R456): its ACK_SEQ and credits are taken when its tag verifies. -/
def execIdleFlit (p : LinkId) (nonce : BitVec 96) (f : Flit) (s : State) : Host.Outcome State Fault Refusal :=
  .next (s.flitIn p nonce f 0 (fun _ _ _ s => s))

/-- NAK (R455): the port resends from the named LSEQ. -/
def execNak (p : LinkId) (nonce : BitVec 96) (f : Flit) (s : State) : Host.Outcome State Fault Refusal :=
  .next (s.flitIn p nonce f 1 (fun _ _ _ s => s))

/-- DISCOVER (R463, R464). -/
def execDiscover (p : LinkId) (nonce : BitVec 96) (f : Flit) (s : State) : Host.Outcome State Fault Refusal :=
  .next (s.flitIn p nonce f 2 (fun p _ pay s => s.discover p pay))

/-- DISCOVER_REPLY (R464). -/
def execDiscoverReply (p : LinkId) (nonce : BitVec 96) (f : Flit) (s : State) : Host.Outcome State Fault Refusal :=
  .next (s.flitIn p nonce f 3 (fun p _ pay s => s.reply p pay))

/-- ROUTE (R464). -/
def execRouteFlit (p : LinkId) (nonce : BitVec 96) (f : Flit) (s : State) : Host.Outcome State Fault Refusal :=
  .next (s.flitIn p nonce f 4 (fun _ h pay s => s.routeIn h pay))

/-- HEARTBEAT (R481). -/
def execHeartbeatFlit (p : LinkId) (nonce : BitVec 96) (f : Flit) (s : State) : Host.Outcome State Fault Refusal :=
  .next (s.flitIn p nonce f 5 (fun _ h _ s => s.heartbeatIn h))

/-- HB_ACK (R482). -/
def execHbAck (p : LinkId) (nonce : BitVec 96) (f : Flit) (s : State) : Host.Outcome State Fault Refusal :=
  .next (s.flitIn p nonce f 6 (fun _ _ _ s => s.hbAckIn))

/-- REG_REQ (R469). -/
def execRegReq (p : LinkId) (nonce : BitVec 96) (f : Flit) (s : State) : Host.Outcome State Fault Refusal :=
  .next (s.flitIn p nonce f 7 (fun _ h pay s => s.regReqIn h pay))

/-- REG_RSP (R470). -/
def execRegRsp (p : LinkId) (nonce : BitVec 96) (f : Flit) (s : State) : Host.Outcome State Fault Refusal :=
  .next (s.flitIn p nonce f 8 (fun p h pay s => s.regRspIn p h pay))

/-- DOORBELL_FLIT (R471). -/
def execDoorbellFlit (p : LinkId) (nonce : BitVec 96) (f : Flit) (s : State) : Host.Outcome State Fault Refusal :=
  .next (s.flitIn p nonce f 9 (fun _ _ pay s => s.doorbellIn pay))

/-- IRQ_FLIT (R468). -/
def execIrqFlit (p : LinkId) (nonce : BitVec 96) (f : Flit) (s : State) : Host.Outcome State Fault Refusal :=
  .next (s.flitIn p nonce f 10 (fun _ h _ s => s.irqIn h))

/-- COLL_READY (R477, R479). -/
def execCollReady (p : LinkId) (nonce : BitVec 96) (f : Flit) (s : State) : Host.Outcome State Fault Refusal :=
  .next (s.flitIn p nonce f 11 (fun p h pay s => s.collFlit p h pay))

/-- COLL_DATA (R476, R479). -/
def execCollData (p : LinkId) (nonce : BitVec 96) (f : Flit) (s : State) : Host.Outcome State Fault Refusal :=
  .next (s.flitIn p nonce f 12 (fun p h pay s => s.collFlit p h pay))

/-- SPDM_FLIT (R495). -/
def execSpdmFlit (p : LinkId) (nonce : BitVec 96) (f : Flit) (s : State) : Host.Outcome State Fault Refusal :=
  if s.takesKey p.val f then .next (s.flitIn p nonce f 13 (fun p h pay s => s.spdmFlit p h pay)) else .next s

/-- GROUP_LINK_KEY_FLIT (R498): a MGMT flit of type 13 on a port that is UP. -/
def execGroupLinkKeyFlit (p : LinkId) (nonce : BitVec 96) (f : Flit) (s : State) : Host.Outcome State Fault Refusal :=
  if s.takesKey p.val f then .next (s.flitIn p nonce f 13 (fun p h pay s => s.spdmFlit p h pay)) else .next s

/-! Timers of a port and of the flock. -/

/-- LINK_ACK_TIMEOUT (R455): no ACK_SEQ has advanced for 8 EPOCHs while flits are held. -/
def execLinkAckTimeout (p : LinkId) (s : State) : Host.Outcome State Fault Refusal :=
  let k := s.link p.val
  if ¬ k.held.isEmpty ∧ 8 ≤ s.now - k.ackStart ∧ (s.rf (F.lkState p.val) = 3 ∨ s.rf (F.lkState p.val) = 2) then
    .next (s.resend p.val).portMoved
  else .next s

/-- LINK_SILENCE_EXPIRY (R457): an UP port has received no flit that passes R453 for 64 EPOCHs. -/
def execLinkSilenceExpiry (p : LinkId) (s : State) : Host.Outcome State Fault Refusal :=
  if s.rf (F.lkState p.val) = 3 ∧ 64 ≤ s.now - (s.link p.val).lastRx then .next (s.linkFail p.val).portMoved else .next s

/-- FLK_TRAIN_EXPIRY (R467): a port that has not trained within FLK_TRAIN EPOCHs is DOWN. -/
def execFlkTrainExpiry (p : LinkId) (s : State) : Host.Outcome State Fault Refusal :=
  if s.rf (F.lkState p.val) = 1 ∧ s.rf F.flkTrain ≤ s.now - (s.link p.val).start then
    let s := (s.wf (F.lkState p.val) 0).portMoved
    .next (if s.rf F.flkState = 1 then s.flockAlone else s)
  else .next s

/-- FLK_SILENT_EXPIRY (R464, R466): a port that has not keyed within FLK_SILENT EPOCHs of training is SILENT; members that have
not answered DISCOVER within FLK_SILENT EPOCHs are silent. -/
def execFlkSilentExpiry (p : LinkId) (s : State) : Host.Outcome State Fault Refusal :=
  let lim := s.rf F.flkSilent
  if s.rf (F.lkState p.val) = 2 ∧ lim ≤ s.now - (s.link p.val).start then
    .next ((s.wf (F.lkState p.val) 4).dropLink p.val false).portMoved
  else if ¬ s.flock.asked.isEmpty ∧ lim ≤ s.now - s.flock.discStart then
    let gone := s.flock.asked.map (fun a => a.2)
    .next (State.discStep { s with flock := { s.flock with asked := [], silent := s.flock.silent ++ gone } })
  else .next s

/-- FLOCK_DISCOVERY (R464): on the Bellwether every port is settled, and step 5 of Table 13.5 begins. -/
def execFlockDiscovery (s : State) : Host.Outcome State Fault Refusal := .next (if s.isReady then s.discStart else s)

/-- HEARTBEAT_PERIOD (R481): a member's Drover 0 sends HEARTBEAT every FLK_HB.PERIOD EPOCHs. -/
def execHeartbeatPeriod (s : State) : Host.Outcome State Fault Refusal :=
  if s.isReady ∧ s.flock.joined ∧ ¬ s.rb F.flkBw ∧ s.rb (F.dvRunning 0) ∧ s.rf F.hbPeriod ≤ s.now - s.flock.hbSent then
    let s : State := { s with flock := { s.flock with hbSent := s.now } }
    .next (s.sendTo (s.mkHdr 0 2 5 0 8) (natLe 8 s.now))
  else .next s

/-- MEMBER_LOST (R481): the Bellwether has received no HEARTBEAT from a member for FLK_HB.LOSS EPOCHs. -/
def execMemberLost (m : Fin 64) (s : State) : Host.Outcome State Fault Refusal :=
  match tblFind s.flock.hb m.val with
  | none => .next s
  | some e =>
    if s.rb F.flkBw ∧ s.rb (F.dvRunning 0) ∧ ¬ s.flock.lost.contains m.val ∧ s.rf F.hbLoss ≤ s.now - e then
      let s := (s.wf F.flkLost (setBits (s.rf F.flkLost) m.val 1 1)).wf F.flkMembers (setBits (s.rf F.flkMembers) m.val 1 0)
      .next (State.raise { s with flock := { s.flock with lost := setIns s.flock.lost m.val } } (pgLk 0) 3)
    else .next s

/-- BELLWETHER_LOST (R482): a member has received no HB_ACK for FLK_HB.LOSS EPOCHs. -/
def execBellwetherLost (s : State) : Host.Outcome State Fault Refusal :=
  if s.isReady ∧ s.flock.joined ∧ ¬ s.rb F.flkBw ∧ ¬ s.flock.bwLost ∧ s.rf F.hbLoss ≤ s.now - s.flock.hbAck then
    .next (State.raise { s with flock := { s.flock with bwLost := true } } (pgLk 0) 4)
  else .next s

/-- RRA_TIMEOUT (R470): no REG_RSP within FLK_RRA_CTRL.TIMEOUT EPOCHs. -/
def execRraTimeout (s : State) : Host.Outcome State Fault Refusal :=
  match s.flock.rra with
  | none => .next s
  | some (e, _) => if s.rf F.rraTimeout ≤ s.now - e then .next (s.rraDone 0x61 ones64) else .next s

/-! Collectives (R474 to R480). -/

/-- The COLLECTIVE of a queue that is in phase 4 with the given OP; a reserved OP answers to each of them. -/
def State.collPhase4 (s : State) (q op : Nat) : Option Cmd :=
  match s.phase4 q 0x07 with
  | none => none
  | some c => if c.coOp = op ∨ c.coOp = 3 then some c else none

/-- COLLECTIVE_REDUCE_SCATTER (R474, R475). -/
def execCollectiveReduceScatter (q : QNum) (s : State) : Host.Outcome State Fault Refusal :=
  match s.collPhase4 q.val 0 with
  | none => .next s
  | some c => .next (s.collCmd c)

/-- COLLECTIVE_ALL_GATHER (R474, R475). -/
def execCollectiveAllGather (q : QNum) (s : State) : Host.Outcome State Fault Refusal :=
  match s.collPhase4 q.val 1 with
  | none => .next s
  | some c => .next (s.collCmd c)

/-- COLLECTIVE_ALL_REDUCE (R474, R475). -/
def execCollectiveAllReduce (q : QNum) (s : State) : Host.Outcome State Fault Refusal :=
  match s.collPhase4 q.val 2 with
  | none => .next s
  | some c => .next (s.collCmd c)

/-- COLLECTIVE_TIMEOUT (R480): TIMEOUT EPOCHs without progress. -/
def execCollectiveTimeout (q : QNum) (s : State) : Host.Outcome State Fault Refusal :=
  match s.flock.colls.find? (fun k => k.qn == q.val) with
  | none => .next s
  | some k =>
    match s.cmd k.qn k.slot with
    | none => .next s
    | some c =>
      if s.now - k.last < c.coTimeout then .next s
      else match s.group k.group k.ctx with
        | none => .next (s.endColl k 0x61)
        | some g => .next (s.collLost k c g.ranks.length (s.collLate c g k))

/-! Bindings and group keys. -/

/-- The FLOCK_BIND of a queue that is in phase 4, with UNBIND as given. -/
def State.flockCmd (s : State) (q : Nat) (unbind : Bool) : Option Cmd :=
  match s.phase4 q 0x8A with
  | none => none
  | some c => if c.flag 50 7 = unbind then some c else none

/-- FLOCK_BIND (R472, R473). -/
def execFlockBind (q : QNum) (s : State) : Host.Outcome State Fault Refusal :=
  match s.flockCmd q.val false with
  | none => .next s
  | some c => .next (s.withDuty c 0 (fun s => s.flockBind c))

/-- FLOCK_UNBIND (R473): FLOCK_BIND with UNBIND. -/
def execFlockUnbind (q : QNum) (s : State) : Host.Outcome State Fault Refusal :=
  match s.flockCmd q.val true with
  | none => .next s
  | some c => .next (s.withDuty c 0 (fun s => s.flockUnbind c))

/-- KEY_BIND_LINK (R504, R505): Drover 0 and the Shepherd make a group link key and install it on the selected members. -/
def execKeyBindLink (q : QNum) (s : State) : Host.Outcome State Fault Refusal :=
  match s.keyBindCmd q.val 3 with
  | none => .next s
  | some c => .next (s.shepCmd c (s.kbLinkCheck c) (fun s => s.withDuty c 0 (fun s => s.kbLinkAct c)))

/-- KEY_LINK_TIMEOUT (R504, R505): a selected member has not answered within 1,000 EPOCHs. -/
def execKeyLinkTimeout (q : QNum) (s : State) : Host.Outcome State Fault Refusal :=
  match s.flock.job with
  | none => .next s
  | some j => if j.qn = q.val ∧ 1000 ≤ s.now - j.start then .next (s.linkJobEnd j 0x61) else .next s

end Sys2Proof.Machine
end

