-- ==== Sys2Proof/Machine/Power.lean ====
section
/-! DEFINITION. The commands of power, temperature, calibration and hold-up (17_power_beats_and_holdup.md). -/

namespace Sys2Proof.Machine

/-! Hold-up. -/

/-- PWR_WARN_ASSERT (R584, R579, R591): a save begins when hold-up is armed; otherwise every core quiesces. During a resume the
capture buffer is saved again; during an instance reset no save is made and the newest is superseded (Table 17.8). -/
def execPwrWarnAssert (s : State) : Host.Outcome State Fault Refusal :=
  let s := { s with pins := { s.pins with pwrWarn := true } }
  if !s.pins.porN then .next s
  else if s.boot.rst then .next (if s.newest.isSome then s.supersede else s)
  else if s.boot.phase ≠ .ready then .next s.capStop.rearm.taResume
  else if s.rf F.holdState = 5 then
    match s.hsa.capture with
    | none => .next s
    | some v =>
      let w := { v with gen := s.topGen + 1, superseded := false }
      .next (State.sealAs { s with hsa := { s.hsa with capture := some w } } w)
  else if s.rf F.holdState = 1 ∨ s.hsa.capture.isSome then .next s
  else if s.rb F.armed then .next (s.capStop.rearm).beginSave
  else .next ((((s.capStop.rearm).calStop).discardFrames).quiesceAll 1).boundaries

/-- A reset that waited for the seal or for the end of a resume takes effect (R623). -/
def State.deferred (s : State) : State :=
  if s.boot.porDeferred then s.porReset
  else if s.boot.wrstDeferred then
    State.warmReset { s.wf F.holdState 0 with
      boot := { s.boot with wrstDeferred := false }, hsa := { s.hsa with capture := none } }
  else s

/-- HOLDUP_SEALED (R587): with every core at its boundary, the save is written and sealed; `mv` is VHOLD in units of 2 mV. -/
def execHoldupSealed (mv : BitVec 10) (s : State) : Host.Outcome State Fault Refusal :=
  if s.rf F.holdState = 1 ∧ s.noTiles then
    .next (((s.sealHoldup (s.rf F.hostState == 2)).wf F.vhold mv.toNat).rearm).deferred
  else if s.rf F.hostState = 2 ∧ s.rf F.holdState = 0 ∧ s.isReady ∧ s.noTiles then .next s.sealPreserve
  else .next s

/-- Begin the resume when PWR_WARN is clear and VHOLD is at least 1.7 V after a seal (R588). -/
def State.tryResume (s : State) : State :=
  if s.rf F.holdState = 4 ∧ s.hsa.capture.isSome ∧ ¬ s.pins.pwrWarn ∧ 850 ≤ s.rf F.vhold then s.wf F.holdState 5 else s

/-- PWR_WARN_CLEAR (R579, R588): quiesced cores resume when no save was begun; a sealed save may be resumed. -/
def execPwrWarnClear (s : State) : Host.Outcome State Fault Refusal :=
  let s := { s with pins := { s.pins with pwrWarn := false } }
  if !s.pins.porN then .next s
  else if s.rf F.holdState = 0 then .next (if 2 ≤ s.rf F.hostState then s else (s.unquiesceAll 1).boundaries)
  else .next s.tryResume

/-- VHOLD_RECHARGED (R588): VHOLD has recharged to `mv`, in units of 2 mV, at least 1.7 V. -/
def execVholdRecharged (mv : BitVec 10) (s : State) : Host.Outcome State Fault Refusal :=
  if s.pins.porN ∧ 850 ≤ mv.toNat then .next ((s.wf F.vhold mv.toNat).rearm).tryResume else .next s

/-- HOLDUP_RESUME_DONE (R588, R589): state is back from the capture buffer and parked commands may resume. -/
def execHoldupResumeDone (s : State) : Host.Outcome State Fault Refusal :=
  match s.hsa.capture with
  | none => .next s
  | some v => if s.rf F.holdState = 5 then .next (s.resumeFrom v).boundaries.deferred.taResume else .next s

/-- VDD_NE_TILE_STOP (R585): the supply falls below 0.52 V before a core's boundary; its tile is stopped and runs again later
by R550. -/
def execVddNeTileStop (core : CoreId) (s : State) : Host.Outcome State Fault Refusal :=
  match (s.core core.val).tile with
  | none => .next s
  | some t =>
    if s.rf F.holdState = 1 then .next (s.rerunOrReset core.val t 1).boundaries else .next s

/-- CSB_RETENTION_LOSS (R589): while the save or its wait runs, a supply falls below its retention level. -/
def execCsbRetentionLoss (cl : ClId) (s : State) : Host.Outcome State Fault Refusal :=
  if 1 ≤ s.rf F.holdState ∧ s.rf F.holdState ≤ 4 then .next (s.wb (F.csbRetained cl.val) false) else .next s

/-! Temperature and power. -/

/-- THERMAL_LIMIT_ENTER (R571): Tj, in units of 0.5 °C, exceeds 105 °C. -/
def execThermalLimitEnter (cl : ClId) (tj : BitVec 9) (s : State) : Host.Outcome State Fault Refusal :=
  if s.pins.porN ∧ 210 < tj.toNat then
    .next ((((s.wf (F.monTj cl.val) tj.toNat).wb (F.thermal cl.val) true).showLevel cl.val).raise pgPwr 4)
  else .next s

/-- THERMAL_LIMIT_EXIT (R571): Tj falls to 100 °C or below. -/
def execThermalLimitExit (cl : ClId) (tj : BitVec 9) (s : State) : Host.Outcome State Fault Refusal :=
  if s.pins.porN ∧ tj.toNat ≤ 200 then
    .next (((s.wf (F.monTj cl.val) tj.toNat).wb (F.thermal cl.val) false).showLevel cl.val)
  else .next s

/-- TDP_WINDOW_END (R572): Drover 3 ends an averaging window with the measured average in mW; above the cap it lowers the
allowed level of the most loaded cluster, below 90 % of the cap it raises one cluster's. -/
def execTdpWindowEnd (mw : BitVec 20) (loaded raised : ClId) (s : State) : Host.Outcome State Fault Refusal :=
  if s.isReady ∧ s.rb (F.dvRunning 3) ∧ 2 ^ s.rf F.tdpWin ≤ s.now - s.pwr.tdpStart then
    let s := { (s.duty 3).wf F.tdpAvg (min 65535 mw.toNat) with pwr := { s.pwr with tdpStart := s.now } }
    let cap := 250 * s.rf F.tdpCap
    if cap < mw.toNat then
      let k := s.lvl loaded.val
      if k.allowed = 0 then .next s
      else .next (((s.setLvl loaded.val { k with allowed := k.allowed - 1 }).showLevel loaded.val).raise pgPwr 3)
    else if 10 * mw.toNat < 9 * cap then
      let k := s.lvl raised.val
      .next ((s.setLvl raised.val { k with allowed := min 15 (k.allowed + 1) }).showLevel raised.val)
    else .next s
  else .next s

/-! Domains of cores. -/

/-- IDLE_GATE_EXPIRY (R565): a core with no tile admitted for IDLE_EPOCHS is switched off. -/
def execIdleGateExpiry (core : CoreId) (s : State) : Host.Outcome State Fault Refusal :=
  let n := core.val
  let k := s.core n
  if s.rb F.gateEn ∧ s.domOn (coreDom n) ∧ k.tile.isNone ∧ ¬ k.powering ∧ s.rf F.gateEpochs ≤ k.idle then
    .next ((s.coreOff n).wb (F.gated n) true)
  else .next s

/-- CORE_POWER_ON_DONE (R565): a gated core's domain has finished switching on. -/
def execCorePowerOnDone (core : CoreId) (s : State) : Host.Outcome State Fault Refusal :=
  let n := core.val
  if (s.core n).powering ∧ ¬ s.domOn (coreDom n) then
    .next (((s.coreOn n).modCore n (fun k => { k with powering := false, idle := 0 })).boundary n)
  else .next s

/-! Calibration. -/

/-- Clusters join the calibration queue. -/
def State.calAdd (s : State) (l : List Nat) : State :=
  State.calNext { s with pwr := { s.pwr with calQ := s.pwr.calQ ++ l.filter (fun c => !s.pwr.calQ.contains c) } }

/-- CALIBRATION_PERIOD (R574): PWR_CAL.PERIOD EPOCHs have passed. -/
def execCalibrationPeriod (s : State) : Host.Outcome State Fault Refusal :=
  if s.isReady ∧ s.rf F.calPeriod ≠ 0 ∧ s.reached .calPeriod (s.rf F.calPeriod) then
    .next ((s.startT .calPeriod).calAdd [0, 1, 2, 3])
  else .next s

/-- Write one level of a cluster's table: the voltage found, in mV, or none (R574, R575). -/
def State.calEntry (s : State) (c l v : Nat) : State :=
  if s.rf (F.target l) = 0 then s
  else
    let s := (s.wf (F.entTarget c l) (s.rf (F.target l))).wf (F.entVolt c l) v
    if v = 0 then (s.wb (F.entValid c l) false).raise pgPwr 1 else s.wb (F.entValid c l) true

/-- The commands of RECAL whose clusters have all ended complete (R573). -/
def State.recalDone (s : State) : State :=
  let q := s.pwr.calQ
  s.finishWaiting 0x88 0x00 (fun c => c.fld 50 1 % 8 == 2 && (List.range 4).all (fun k => !(bit (c.fld 51 1) k && q.contains k)))

/-- Steps 2 and 3 of R574 for a cluster: the table is written and the cluster released. -/
def State.calWrite (s : State) (c v : Nat) : State :=
  let s := forN 16 (fun l s => s.calEntry c l (bits v (10 * l) 10)) s
  let s := (s.wb (F.calBusy c) false).raise pgPwr 0
  let s := forN 4 (fun i s => s.unquiesceCore 2 (4 * c + i)) s
  { s with pwr := { s.pwr with calQ := s.pwr.calQ.filter (fun k => !(k == c)) } }

/-- A cluster whose level-0 entry fails has every core retired (R575). -/
def State.calRetire (s : State) (c : Nat) : State :=
  if s.rf (F.target 0) ≠ 0 ∧ ¬ s.rb (F.entValid c 0) then forN 4 (fun i s => s.retire (4 * c + i)) s else s

/-- CALIBRATION_DONE (R574, R575): the search ends for the calibrating cluster with ten bits of mV for each level, 0 where no
voltage meets the TARGET. -/
def execCalibrationDone (volts : BitVec 160) (s : State) : Host.Outcome State Fault Refusal :=
  match (List.range 4).find? (fun c => s.rb (F.calBusy c)) with
  | none => .next s
  | some c =>
    if !s.allQuiesced [4 * c, 4 * c + 1, 4 * c + 2, 4 * c + 3] then .next s
    else .next ((((s.calWrite c volts.toNat).calRetire c).showLevel c).recalDone.boundaries).calNext

/-! The capacitor check (R578, Table 17.5). -/

/-- End a capacitor check with a status and a measured C in µF. -/
def State.capEnd (s : State) (st uf : Nat) : State :=
  let s := ((s.wf F.capStatus st).wf F.capUf (min 1023 uf)).stopT .capCheck
  let s := { s with pwr := { s.pwr with cap := 0 } }
  let s := if st = 1 then s else s.raise pgHup 2
  (s.rearm).finishWaiting 0x88 0x00 (fun c => c.fld 50 1 % 8 == 5)

/-- Real time of a count of EPOCHs, in ns. -/
def State.epochsNs (s : State) (n : Nat) : Nat := n * s.rf F.epochNs

/-- CAP_CHARGED (R578): VHOLD reaches 1.8 V; t is the EPOCHs counted, and the charger is switched off. -/
def execCapCharged (s : State) : Host.Outcome State Fault Refusal :=
  if s.pwr.cap = 1 then
    .next { (s.wf F.vhold 900).startT .capDroop with
            pwr := { s.pwr with cap := 2, capTime := s.epochsNs (s.now - s.pwr.capStart) } }
  else .next s

/-- C in µF from t in ns: 39.2 mA × t / 0.6 V. -/
def capMicro (t : Nat) : Nat := 392 * t / 6000000

/-- CAP_DROOP_CHECK_END (R578): the 1 ms without charger ends with the measured droop in mV. -/
def execCapDroopCheckEnd (droop : BitVec 10) (s : State) : Host.Outcome State Fault Refusal :=
  if s.pwr.cap = 2 then
    let uf := capMicro s.pwr.capTime
    let st := if s.pwr.capTime < 600000 then 3 else if uf < 376 then 2 else if 5 < droop.toNat then 4 else 1
    .next ((s.stopT .capDroop).capEnd st uf).taResume
  else .next s

/-- CAP_CHECK_TIMEOUT (R578): no EPOCH pulse within 1 ms of the start, or 1.8 V not reached within 12 ms. -/
def execCapCheckTimeout (s : State) : Host.Outcome State Fault Refusal :=
  if s.pwr.cap = 1 then
    let n := s.now - s.pwr.capStart
    if n = 0 then .next (s.capEnd 5 0).taResume
    else if 12000000 ≤ s.epochsNs n then .next (s.capEnd 2 0).taResume
    else .next s
  else .next s

/-! POWER_STAGE (Tables 17.3 and 17.4). -/

/-- The command of a queue that is in phase 4 with POWER_STAGE and the given OP; a reserved OP answers to each of them. -/
def State.powerStage (s : State) (q op : Nat) : Option Cmd :=
  match s.phase4 q 0x88 with
  | none => none
  | some c => if c.fld 50 1 % 8 = op ∨ 6 ≤ c.fld 50 1 % 8 then some c else none

/-- The first check of Table 17.4. -/
def Cmd.powerBad (c : Cmd) : Bool := c.fld 48 2 != 0 || decide (6 ≤ c.fld 50 1 % 8)

/-- The clusters that a POWER_STAGE selects. -/
def Cmd.clusters (c : Cmd) : List Nat := (List.range 4).filter (fun k => bit (c.fld 51 1) k)

/-- POWER_STAGE_SET_LEVEL (R573, R570). -/
def execPowerStageSetLevel (q : QNum) (s : State) : Host.Outcome State Fault Refusal :=
  match s.powerStage q.val 0 with
  | none => .next s
  | some c => .next (s.withDuty c 3 (fun s =>
      let l := c.fld 52 1 % 16
      if c.powerBad then s.setCmd (c.done 0x11)
      else if c.clusters.isEmpty then s.setCmd (c.done 0x01)
      else if c.clusters.any (fun k => (s.validAt k l).isNone) then s.setCmd (c.done 0x11)
      else (forL c.clusters (fun k s => (s.setLvl k { s.lvl k with requested := l }).showLevel k) s).setCmd (c.done 0x00)))

/-- POWER_STAGE_SET_TDP (R573, R572). -/
def execPowerStageSetTdp (q : QNum) (s : State) : Host.Outcome State Fault Refusal :=
  match s.powerStage q.val 1 with
  | none => .next s
  | some c => .next (s.withDuty c 3 (fun s =>
      let cap := c.fld 54 2 % 256
      let win := c.fld 56 1 % 32
      if c.powerBad then s.setCmd (c.done 0x11)
      else if cap = 0 then s.setCmd (c.done 0x10)
      else if cap < 16 ∨ 240 < cap ∨ win < 8 ∨ 20 < win then s.setCmd (c.done 0x11)
      else State.setCmd { (s.wf F.tdpCap cap).wf F.tdpWin win with pwr := { s.pwr with tdpStart := s.now } } (c.done 0x00)))

/-- POWER_STAGE_RECAL (R573, R574): the selected clusters are calibrated; the command completes when all have ended. -/
def execPowerStageRecal (q : QNum) (s : State) : Host.Outcome State Fault Refusal :=
  match s.powerStage q.val 2 with
  | none => .next s
  | some c => .next (s.withDuty c 3 (fun s =>
      if c.powerBad then s.setCmd (c.done 0x11)
      else if c.clusters.isEmpty then s.setCmd (c.done 0x01)
      else (s.setCmd { c with acted := true }).calAdd c.clusters))

/-- POWER_STAGE_RETIRE (R573, R576): the core is retired at its next tile boundary, and the command completes then. -/
def execPowerStageRetire (q : QNum) (s : State) : Host.Outcome State Fault Refusal :=
  match s.powerStage q.val 3 with
  | none => .next s
  | some c => .next (s.withDuty c 3 (fun s =>
      let n := c.fld 53 1 % 16
      if c.powerBad then s.setCmd (c.done 0x11)
      else if bit s.hsa.retired n then s.setCmd (c.done 0x01)
      else if setBits s.hsa.retired n 1 1 % 2 ^ 16 = 0xFFFF then s.setCmd (c.done 0x11)
      else (s.setCmd { c with acted := true }).retire n))

/-- POWER_STAGE_UNRETIRE (R573, R576): the core leaves the retired set and its domain switches on. -/
def execPowerStageUnretire (q : QNum) (s : State) : Host.Outcome State Fault Refusal :=
  match s.powerStage q.val 4 with
  | none => .next s
  | some c => .next (s.withDuty c 3 (fun s =>
      let n := c.fld 53 1 % 16
      if c.powerBad then s.setCmd (c.done 0x11)
      else if !bit s.hsa.retired n then s.setCmd (c.done 0x01)
      else
        let r := setBits s.hsa.retired n 1 0
        let s := { s with hsa := { s.hsa with retired := r } }
        let s := (s.wf F.retiredAll r).wf (F.clRetired (n / 4)) (bits r (n / 4 * 4) 4)
        (s.coreOn n).setCmd (c.done 0x00)))

/-- What the Shepherd does for CAP_CHECK: the check begins (R578). -/
def State.capCheckAct (s : State) (c : Cmd) : State :=
  if c.powerBad ∨ s.rf F.holdState ≠ 0 then s.setCmd (c.done 0x11)
  else
    let s := s.setCmd { c with acted := true }
    { s.startT .capCheck with pwr := { s.pwr with cap := 1, capStart := s.now } }

/-- POWER_STAGE_CAP_CHECK (R573, R578): the Shepherd runs the capacitor check; the command completes when it ends. -/
def execPowerStageCapCheck (q : QNum) (s : State) : Host.Outcome State Fault Refusal :=
  match s.powerStage q.val 5 with
  | none => .next s
  | some c => .next (s.withShep c (fun s => s.capCheckAct c))

end Sys2Proof.Machine
end

