-- ==== Sys2Proof/Machine/Registers.lean ====
section
/-! DEFINITION. The commands that write and read registers (00_scope.md R6 to R11, 19_register_reference.md). -/

namespace Sys2Proof.Machine

/-- An offset is that of header register `k` of a page with a header. -/
def headerAt (off k : Nat) : Bool :=
  match locate off with
  | some l => off == l.base + k && l.page != .grzSlots && l.page != .db
  | none => false

/-- REGISTER_WRITE (R6, R598): a write of 32 bits, or of 64 bits when `wide`. -/
def execRegisterWrite (path : Path) (off : Offset) (wide : Bool) (v : W64) (s : State) : Host.Outcome State Fault Refusal :=
  .next (s.regWrite path off.toNat wide v.toNat)

/-- REG_LOW_HALF_WRITE (R10): a 32-bit write of the low half of a 64-bit register. -/
def execRegLowHalfWrite (path : Path) (off : Offset) (v : W32) (s : State) : Host.Outcome State Fault Refusal :=
  match regAt off.toNat with
  | none => .next s
  | some r => .next (if r.row.wide ∧ off.toNat = r.off then s.regWrite path off.toNat false v.toNat else s)

/-- REG_LOW_HALF_READ (R11): a 32-bit read of the low half of a 64-bit register. -/
def execRegLowHalfRead (path : Path) (off : Offset) (s : State) : Host.Outcome State Fault Refusal :=
  match regAt off.toNat with
  | none => .next s
  | some r => .next (if r.row.wide ∧ off.toNat = r.off then s.regReadBy path off.toNat false else s)

/-- EV_RAW_CLEAR (R7): a write of a page's EV_RAW. -/
def execEvRawClear (path : Path) (off : Offset) (v : W32) (s : State) : Host.Outcome State Fault Refusal :=
  .next (if headerAt off.toNat 0x18 then s.regWrite path off.toNat false v.toNat else s)

/-- EV_EN_WRITE (R633): a write of a page's EV_EN or EV_ROUTE. -/
def execEvEnWrite (path : Path) (off : Offset) (v : W32) (s : State) : Host.Outcome State Fault Refusal :=
  .next (if headerAt off.toNat 0x1C || headerAt off.toNat 0x24 then s.regWrite path off.toNat false v.toNat else s)

/-- PG_CTRL of a page with a field set to a value, its other fields as they read. -/
def State.pgCtrlSet (s : State) (path : Path) (off bitNo : Nat) (v : Bool) : State :=
  if headerAt off 0x0C then
    s.regWrite path off false (setBits (setBits (s.reg off).toNat 2 1 0) bitNo 1 (b2n v))
  else s

/-- PAGE_QUIESCE_REQ (R632): QUIESCE_REQ of a page is set. -/
def execPageQuiesceReq (path : Path) (off : Offset) (s : State) : Host.Outcome State Fault Refusal :=
  .next (s.pgCtrlSet path off.toNat 1 true)

/-- PAGE_QUIESCE_RELEASE (R632): QUIESCE_REQ of a page is cleared. -/
def execPageQuiesceRelease (path : Path) (off : Offset) (s : State) : Host.Outcome State Fault Refusal :=
  .next (s.pgCtrlSet path off.toNat 1 false)

/-- PAGE_RESET_REQ (R632): RESET_REQ of a page is written 1. -/
def execPageResetReq (path : Path) (off : Offset) (s : State) : Host.Outcome State Fault Refusal :=
  .next (s.pgCtrlSet path off.toNat 2 true)

/-- PAGE_ENABLE (R643, R201): EN of the KVD or the MP0 page is set. -/
def execPageEnable (path : Path) (off : Offset) (s : State) : Host.Outcome State Fault Refusal :=
  .next (s.pgCtrlSet path off.toNat 0 true)

/-- KVD_PROV_GO (R209). -/
def execKvdProvGo (path : Path) (s : State) : Host.Outcome State Fault Refusal := .next (s.regWrite path 0x11068 false 1)

/-- XLT_FLT_HEAD_WRITE (R410). -/
def execXltFltHeadWrite (path : Path) (v : W32) (s : State) : Host.Outcome State Fault Refusal :=
  .next (s.regWrite path 0x10050 false v.toNat)

/-- XLT_FLT_CFG_WRITE (R415). -/
def execXltFltCfgWrite (path : Path) (v : W32) (s : State) : Host.Outcome State Fault Refusal :=
  .next (s.regWrite path 0x10048 false v.toNat)

/-- GRZ_CSB_INLET_WRITE (R378). -/
def execGrzCsbInletWrite (path : Path) (v : W32) (s : State) : Host.Outcome State Fault Refusal :=
  .next (s.regWrite path 0x4058 false v.toNat)

/-- MXE_RAMP_WRITE (R113). -/
def execMxeRampWrite (path : Path) (core : CoreId) (v : W32) (s : State) : Host.Outcome State Fault Refusal :=
  .next (s.regWrite path (pgMxe core.val + 0x44) false v.toNat)

/-- ATE_CTRL_WRITE (R193). -/
def execAteCtrlWrite (path : Path) (core : CoreId) (v : W32) (s : State) : Host.Outcome State Fault Refusal :=
  .next (s.regWrite path (pgAte core.val + 0x40) false v.toNat)

/-- SI_ENABLE (R274): SI_CTRL is written with EN set and a format. -/
def execSiEnable (path : Path) (n : InletId) (format : BitVec 4) (s : State) : Host.Outcome State Fault Refusal :=
  .next (s.regWrite path (pgSi n.val + 0x40) false (1 + 2 * format.toNat))

/-- SI_DISABLE (R274): SI_CTRL is written with EN clear. -/
def execSiDisable (path : Path) (n : InletId) (format : BitVec 4) (s : State) : Host.Outcome State Fault Refusal :=
  .next (s.regWrite path (pgSi n.val + 0x40) false (2 * format.toNat))

/-- LK_ENABLE (R457): LK_CTRL is written with EN set. -/
def execLkEnable (path : Path) (p : LinkId) (s : State) : Host.Outcome State Fault Refusal :=
  .next (s.regWrite path (pgLk p.val + 0x40) false 1)

/-- LK_DISABLE (R485): LK_CTRL is written with EN clear. -/
def execLkDisable (path : Path) (p : LinkId) (s : State) : Host.Outcome State Fault Refusal :=
  .next (s.regWrite path (pgLk p.val + 0x40) false 0)

/-- FLK_RRA_GO (R469): FLK_RRA_CTRL is written with GO and TIMEOUT. -/
def execFlkRraGo (path : Path) (timeout : BitVec 16) (s : State) : Host.Outcome State Fault Refusal :=
  .next (s.regWrite path 0x20138 false (1 + 65536 * timeout.toNat))

/-- FWD_DB (R471): the high half is written, and commits with the path's latch. -/
def execFwdDb (path : Path) (hi : W32) (s : State) : Host.Outcome State Fault Refusal :=
  .next (s.regWrite path 0x20144 false hi.toNat)

/-- FLK_REJOIN (R483). -/
def execFlkRejoin (path : Path) (m : Fin 64) (s : State) : Host.Outcome State Fault Refusal :=
  .next (s.regWrite path 0x20150 false m.val)

/-- EPOCH_NS_WRITE (R608): the limits of R541 are converted from the present period wherever they are used. -/
def execEpochNsWrite (path : Path) (v : W32) (s : State) : Host.Outcome State Fault Refusal :=
  .next (s.regWrite path 0x40 false v.toNat)

/-! Emulated pages (R519 to R521). -/

/-- The offset of an emulated register: page `n`, from 0x040 upward. -/
def emuOff (n : Fin 4) (o : BitVec 12) : Nat := pgDv n.val + o.toNat

/-- EMULATED_READ (R520): a host read of a DV register waits for the emulator. -/
def execEmulatedRead (n : Fin 4) (o : BitVec 12) (wide : Bool) (s : State) : Host.Outcome State Fault Refusal :=
  if s.hostOk ∧ 0x40 ≤ o.toNat ∧ o.toNat % 4 = 0 ∧ (regAt (emuOff n o)).isSome then
    .next (s.emuAsk 0 (emuOff n o) wide)
  else .next s

/-- EMULATED_WRITE (R521): a write enters its page's queue, or is dropped. -/
def execEmulatedWrite (path : Path) (n : Fin 4) (o : BitVec 12) (v : W32) (s : State) : Host.Outcome State Fault Refusal :=
  .next (if 0x40 ≤ o.toNat then s.regWrite path (emuOff n o) false v.toNat else s)

/-- EMULATED_WRITE_APPLY (R521): Drover 0 applies the oldest entry of a page's queue, a write. -/
def execEmulatedWriteApply (n : Fin 4) (s : State) : Host.Outcome State Fault Refusal :=
  if !s.rb (F.dvRunning 0) then .next s
  else match s.emuOf n.val with
    | [] => .next s
    | e :: _ =>
      if !e.2.2.2 then .next s
      else match regAt e.2.1 with
        | none => .next (s.emuDrop e)
        | some r => .next ((((s.emuDrop e).duty 0).putFields r e.2.2.1).clampF (F.dvSvc n.val) (fun x => x == 0) 1)

/-- EMU_READ_ANSWER (R520): Drover 0 answers the oldest entry of a page, a read; EMU_TIMEOUT clears. -/
def execEmuReadAnswer (n : Fin 4) (s : State) : Host.Outcome State Fault Refusal :=
  if !s.rb (F.dvRunning 0) then .next s
  else match s.emuOf n.val with
    | [] => .next s
    | e :: _ =>
      if e.2.2.2 then .next s
      else
        let (v, _, s) := s.busRead (if e.1 ≤ 6 then e.1 else 5) e.2.1 (e.2.2.1 == 1)
        .next (((s.emuAnswer e v).duty 0).wb (F.pgEmuTimeout (pgDv n.val)) false)

/-- EMU_READ_TIMEOUT (R520): 4 µs of HRP_CLK have passed; the oldest waiting read of a page answers all-ones. -/
def execEmuReadTimeout (n : Fin 4) (s : State) : Host.Outcome State Fault Refusal :=
  match (s.emuOf n.val).find? (fun e => !e.2.2.2) with
  | none => .next s
  | some e => .next ((s.emuAnswer e (if e.2.2.1 = 1 then ones64 else 2 ^ 32 - 1)).wb (F.pgEmuTimeout (pgDv n.val)) true)

end Sys2Proof.Machine
end

