-- ==== Sys2Proof/Machine/Services.lean ====
section
/-! DEFINITION. The Shepherd's services to critical commands that waited for it (01_architecture_and_planes.md R17,
08_commands_and_tiles.md R318). -/

namespace Sys2Proof.Machine

/-- A critical command whose next step is a service of the Shepherd. -/
def Cmd.shepSvc (c : Cmd) : Bool :=
  c.opcode == 0x80 || c.opcode == 0x84 || c.opcode == 0x89 || (c.opcode == 0x88 && c.fld 50 1 % 8 == 5)

/-- The service of a command. -/
def State.serve (s : State) (c : Cmd) : State :=
  match c.opcode with
  | 0x80 => s.setupAct c
  | 0x84 => if c.kbOp = 3 then s.withDuty c 0 (fun s => s.kbLinkAct c) else s.keyBindAct c
  | 0x88 => s.capCheckAct c
  | _ => s.fwAct c

/-- SHEPHERD_SERVICE_DONE (R17, R318): the Shepherd, which serves again, finishes the service that a command of the queue waits for. -/
def execShepherdServiceDone (q : QNum) (s : State) : Host.Outcome State Fault Refusal :=
  match (s.cmdsOf q.val).find? (fun c => c.phase == 4 && !c.acted && c.svc && c.shepSvc) with
  | none => .next s
  | some c => .next (if s.shepUp then s.serve { c with svc := false } else s)

end Sys2Proof.Machine
end

