-- ==== Sys2Proof/Machine/Timers.lean ====
section
/-! DEFINITION. Time and messages: the EPOCH pulse with everything that it counts, the MXE's ramps, the interrupt messages
(00_scope.md R3, 16_sheepdogs_resets_recovery.md R539, R540, 10_grazing_and_preemption.md R379, 03_matrix_engine.md R103 to R110,
18_integration_ports_and_crossings.md R600, R607). -/

namespace Sys2Proof.Machine

/-! What an EPOCH pulse counts. -/

/-- Count a sheepdog: progress clears it, its condition lets it count, else it holds. -/
def dogTick (counts progress : Bool) (d : Nat) : Nat := if progress then 0 else if counts then d + 1 else d

/-- An admission of core `n` is pending and nothing that it waits on is missing (Table 16.1). -/
def State.admissionPends (s : State) (n : Nat) : Bool := s.coreFree n && s.domOn (coreDom n) && (s.pick n).isSome

/-- The engines whose progress this EPOCH the core does not itself know: of them the operand `noProg` of the pulse tells, bit by bit,
those that made none. An MXE whose tile waits for a column makes no other (R101). -/
def State.progressed (s : State) (noProg n e : Nat) : Bool :=
  bit (s.core n).prog e || (!bit noProg (5 * n + e) && decide (e < 4) && !(e == 0 && s.rb (F.mxeActive n) && (s.rb (F.mxeFiller n) || (s.core n).act == 3)))

/-- The sheepdogs of a core (R539, Table 16.1); its filler generator runs on with the cluster's beats (R105). -/
def State.coreTick (s : State) (noProg beats n : Nat) : State :=
  let uses := match s.tileOn n with
    | some t => kindEngines t.kind
    | none => 0
  let counts (e : Nat) : Bool := if e = 4 then s.admissionPends n else bit uses e
  let idle : Bool := (s.core n).tile.isNone && s.domOn (coreDom n)
  let dogs := (List.range 5).map (fun e => dogTick (counts e) (s.progressed noProg n e) ((s.core n).dogs.getD e 0))
  s.modCore n (fun k => { k with
    dogs := if k.engRst ≠ 0 then k.dogs else dogs,
    idle := if idle then k.idle + 1 else 0,
    rstAge := if k.engRst = 0 then 0 else k.rstAge + 1,
    prog := 0, lfsr := if s.domOn (coreDom n) then (k.lfsr + bits beats (16 * (n / 4)) 16) % (2 ^ 32 - 1) else k.lfsr })

/-- A core that holds a tile of a command is in an engine or cluster reset. -/
def State.heldByReset (s : State) (c : Cmd) : Bool :=
  (List.range 16).any (fun n => match s.tileOn n with
    | some t => t.qn == c.qn && t.slot == c.slot && !s.coreRuns n
    | none => false)

/-- A command for which its queue's sheepdog counts (Table 16.1, R540). -/
def State.dogCounts (s : State) (c : Cmd) : Bool :=
  !c.parked && !(c.svc && !c.acted) && s.rf (F.ctxState c.ctx) == 1 && s.rf F.holdState == 0 && s.rf F.hostState < 2 && !s.rb (F.pgQuiesceReq 0) && !s.heldByReset c
    && (c.phase == 2 || c.phase == 5 || (c.phase == 4 && s.hasTile c.qn c.slot))

/-- The sheepdog of a queue. -/
def State.queueTick (s : State) (q : Nat) : State :=
  let counts := s.cmds.any (fun c => c.qn == q && s.dogCounts c)
  s.modQueue q (fun v => { v with dog := dogTick counts v.progress v.dog, progress := false })

/-- The sheepdogs of the firmware processors; the Shepherd's does not count while its new image takes over (Table 15.4). -/
def State.firmTick (s : State) : State :=
  let s := forN 4 (fun n s => if s.rb (F.dvRunning n) then s.setDrover n { s.drover n with dog := (s.drover n).dog + 1 } else s) s
  let runs : Bool := s.shepUp && s.boot.phase == .ready
  if runs then { s with boot := { s.boot with shepDog := s.boot.shepDog + 1 } } else s

/-- The Grazing Table's slot timer. -/
def State.grazeTick (s : State) : State :=
  if s.rb F.grzEn then { s.wf F.grzLeft (s.rf F.grzLeft - 1) with grz := { s.grz with count := s.grz.count + 1 } } else s

/-- The monitors' readings of one EPOCH, and the beats for which contexts waited in each cluster (R16, R379). -/
def State.monitorTick (s : State) (beats tj : Nat) : State :=
  forN 4 (fun c s =>
    let on := s.domOn (clusterDom c)
    let b := if on then bits beats (16 * c) 16 else 0
    let s := (s.wf (F.monBeats c) b).wf (F.monTj c) (bits tj (9 * c) 9)
    forL (s.waitingCtxs c) (fun x s => s.slowAdd x 0 b) s) s

/-- EPOCH_PULSE (R3, R607): the counter advances with everything that an EPOCH counts. The operands are what the clusters' monitors
read in this EPOCH and which engines made no progress. -/
def execEpochPulse (beats : BitVec 64) (tj : BitVec 36) (noProg : BitVec 80) (s : State) : Host.Outcome State Fault Refusal :=
  if !s.pins.porN then .next s
  else
    let s := s.inc F.epochCount 1
    if !s.isReady then .next s
    else
      let s := s.monitorTick beats.toNat tj.toNat
      let s := forN 16 (fun n s => s.coreTick noProg.toNat beats.toNat n) s
      let s := forL ((s.queues.map (fun e => e.1)) ++ (s.cmds.map (fun c => c.qn))).eraseDups (fun q s => s.queueTick q) s
      .next s.firmTick.grazeTick

/-! The MXE's ramps (R103 to R109). -/

/-- MXE_FILL_GAP_EXPIRY (R106): the gap's filler beats have run without a real column, and ramp-down begins from the present level. -/
def execMxeFillGapExpiry (core : CoreId) (s : State) : Host.Outcome State Fault Refusal :=
  let n := core.val
  let k := s.core n
  if s.rb (F.mxeFiller n) ∧ k.fillLeft ≠ 0 ∧ (k.act = 1 ∨ k.act = 2) ∧ s.coreRuns n then
    let s := (s.fillBeats n k.fillLeft 0).wf (F.mxePhase n) 3
    .next (s.modCore n (fun k => { k with act := 3, fillLeft := 0, ramp := if k.act = 1 then k.ramp else s.rf (F.rampBeats n) }))
  else .next s

/-- An interval of ramp-down at level `l` ends: its filler and quiet beats are counted, and the level falls; at 0 the array stops (R103,
R107). -/
def State.rampDown (s : State) (n l : Nat) : State :=
  let beats := (s.core n).ramp / 16
  let s := s.fillBeats n (beats * l / 16) (beats - beats * l / 16)
  if l ≤ 1 then (s.mxeStop n).raise (pgMxe n) 2 else s.wf (F.mxeLevel n) (l - 1)

/-- An interval of ramp-up at level `l` ends: its quiet beats are counted, and the level rises; after the sixteenth the array runs (R103,
R107). -/
def State.rampUp (s : State) (n l : Nat) : State :=
  let beats := (s.core n).ramp / 16
  let s := s.fillBeats n 0 (beats - beats * l / 16)
  if 16 ≤ l then (s.wf (F.mxePhase n) 2).modCore n (fun k => { k with act := 2, ramp := 0 }) else s.wf (F.mxeLevel n) (l + 1)

/-- MXE_RAMP_INTERVAL (R107): a sixteenth of a ramp ends. -/
def execMxeRampInterval (core : CoreId) (s : State) : Host.Outcome State Fault Refusal :=
  let n := core.val
  let l := s.rf (F.mxeLevel n)
  if !s.coreRuns n then .next s
  else match (s.core n).act with
    | 1 => .next (s.rampUp n l)
    | 3 => .next (s.rampDown n l)
    | _ => .next s

/-! Messages (R25, R468, R558, R600). -/

/-- Take the oldest message from those formed. -/
def State.popIrq (s : State) : State := { s with pins := { s.pins with irqQ := s.pins.irqQ.drop 1 } }

/-- The queue that a message names in an IRQ flit: its command's, else 0. -/
def IrqMsg.queue (m : IrqMsg) : Nat := match m.after with
  | some (q, _) => q
  | none => 0

/-- IRQ_MESSAGE_SEND (R600, R558, R468): the oldest message leaves once its command's writes are answered: held as a pending bit
while the host is lost, as an IRQ flit on a member that is not the Bellwether, else on IRQ_MSG. -/
def execIrqMessageSend (s : State) : Host.Outcome State Fault Refusal :=
  match s.pins.irqQ with
  | [] => .next s
  | m :: _ =>
    if !s.irqFree m then .next s
    else match m.vec with
      | some v =>
        if s.rf F.hostState ≠ 0 then .next (s.popIrq.wf F.irqHeld (setBits (s.rf F.irqHeld) v 1 1))
        else if s.flock.joined ∧ ¬ s.rb F.flkBw then
          .next (s.popIrq.sendTo (s.mkHdr 0 0 10 (m.queue / 8) 3) (natLe 2 m.queue ++ natLe 1 v))
        else if s.xing .hrp then
          let s := s.popIrq
          .next { s with pins := { s.pins with irqSent := m :: s.pins.irqSent } }
        else .next s
      | none => .next s.popIrq

end Sys2Proof.Machine
end

