-- ==== Sys2Proof/Machine/Dispatch.lean ====
section
/-! DEFINITION. Which meaning each command has: one arm per constructor of Instr. -/

namespace Sys2Proof.Machine

def exec (i : Instr) (s : State) : Host.Outcome State Fault Refusal :=
  match i with
  | .porNRelease bellwether strap phyReady fetched => Sys2Proof.Machine.execPorNRelease bellwether strap phyReady fetched s
  | .porNAssert => Sys2Proof.Machine.execPorNAssert s
  | .wrstNAssert => Sys2Proof.Machine.execWrstNAssert s
  | .instanceResetReady fetched => Sys2Proof.Machine.execInstanceResetReady fetched s
  | .epochPulse beats tj noProg => Sys2Proof.Machine.execEpochPulse beats tj noProg s
  | .pwrWarnAssert => Sys2Proof.Machine.execPwrWarnAssert s
  | .holdupSealed mv => Sys2Proof.Machine.execHoldupSealed mv s
  | .pwrWarnClear => Sys2Proof.Machine.execPwrWarnClear s
  | .vholdRecharged mv => Sys2Proof.Machine.execVholdRecharged mv s
  | .holdupResumeDone => Sys2Proof.Machine.execHoldupResumeDone s
  | .vddNeTileStop core => Sys2Proof.Machine.execVddNeTileStop core s
  | .csbRetentionLoss cl => Sys2Proof.Machine.execCsbRetentionLoss cl s
  | .thermalLimitEnter cl tj => Sys2Proof.Machine.execThermalLimitEnter cl tj s
  | .thermalLimitExit cl tj => Sys2Proof.Machine.execThermalLimitExit cl tj s
  | .mpRstNAssert port => Sys2Proof.Machine.execMpRstNAssert port s
  | .mpReadResponse port id data ok poison => Sys2Proof.Machine.execMpReadResponse port id data ok poison s
  | .mpWriteResponse port id ok => Sys2Proof.Machine.execMpWriteResponse port id ok s
  | .mpAtomicResponse port id ok => Sys2Proof.Machine.execMpAtomicResponse port id ok s
  | .siFrameStart n data be fe ue full => Sys2Proof.Machine.execSiFrameStart n data be fe ue full s
  | .siDataWord n data be ue full => Sys2Proof.Machine.execSiDataWord n data be ue full s
  | .siFrameEnd n data be ue full => Sys2Proof.Machine.execSiFrameEnd n data be ue full s
  | .siRstNAssert n => Sys2Proof.Machine.execSiRstNAssert n s
  | .lkPhyLoss p ready => Sys2Proof.Machine.execLkPhyLoss p ready s
  | .lkTrainDone p => Sys2Proof.Machine.execLkTrainDone p s
  | .lkSessionKeyed p ok peer peerPort lower higher secret => Sys2Proof.Machine.execLkSessionKeyed p ok peer peerPort lower higher secret s
  | .clockStop c => Sys2Proof.Machine.execClockStop c s
  | .clockReturn c => Sys2Proof.Machine.execClockReturn c s
  | .crossingResyncDone c => Sys2Proof.Machine.execCrossingResyncDone c s
  | .tapExtest => Sys2Proof.Machine.execTapExtest s
  | .tapSelfTest => Sys2Proof.Machine.execTapSelfTest s
  | .tapReset => Sys2Proof.Machine.execTapReset s
  | .taLock key => Sys2Proof.Machine.execTaLock key s
  | .taStart => Sys2Proof.Machine.execTaStart s
  | .taStop => Sys2Proof.Machine.execTaStop s
  | .taPermit digest => Sys2Proof.Machine.execTaPermit digest s
  | .taQuery => Sys2Proof.Machine.execTaQuery s
  | .taReservedMessage => Sys2Proof.Machine.execTaReservedMessage s
  | .idleFlit p nonce f => Sys2Proof.Machine.execIdleFlit p nonce f s
  | .nak p nonce f => Sys2Proof.Machine.execNak p nonce f s
  | .discover p nonce f => Sys2Proof.Machine.execDiscover p nonce f s
  | .discoverReply p nonce f => Sys2Proof.Machine.execDiscoverReply p nonce f s
  | .routeFlit p nonce f => Sys2Proof.Machine.execRouteFlit p nonce f s
  | .heartbeatFlit p nonce f => Sys2Proof.Machine.execHeartbeatFlit p nonce f s
  | .hbAck p nonce f => Sys2Proof.Machine.execHbAck p nonce f s
  | .regReq p nonce f => Sys2Proof.Machine.execRegReq p nonce f s
  | .regRsp p nonce f => Sys2Proof.Machine.execRegRsp p nonce f s
  | .doorbellFlit p nonce f => Sys2Proof.Machine.execDoorbellFlit p nonce f s
  | .irqFlit p nonce f => Sys2Proof.Machine.execIrqFlit p nonce f s
  | .collReady p nonce f => Sys2Proof.Machine.execCollReady p nonce f s
  | .collData p nonce f => Sys2Proof.Machine.execCollData p nonce f s
  | .spdmFlit p nonce f => Sys2Proof.Machine.execSpdmFlit p nonce f s
  | .engineSheepdogExpiry core eng => Sys2Proof.Machine.execEngineSheepdogExpiry core eng s
  | .engineResetComplete core => Sys2Proof.Machine.execEngineResetComplete core s
  | .tsqSheepdogExpiry core => Sys2Proof.Machine.execTsqSheepdogExpiry core s
  | .queueSheepdogExpiry q => Sys2Proof.Machine.execQueueSheepdogExpiry q s
  | .abortAck core => Sys2Proof.Machine.execAbortAck core s
  | .abortAckTimeout core => Sys2Proof.Machine.execAbortAckTimeout core s
  | .contextDrainLimit ctx => Sys2Proof.Machine.execContextDrainLimit ctx s
  | .engineResetLimit core => Sys2Proof.Machine.execEngineResetLimit core s
  | .clusterResetComplete cl => Sys2Proof.Machine.execClusterResetComplete cl s
  | .instanceResetLimit => Sys2Proof.Machine.execInstanceResetLimit s
  | .droverSheepdogExpiry n => Sys2Proof.Machine.execDroverSheepdogExpiry n s
  | .droverCrash n cause => Sys2Proof.Machine.execDroverCrash n cause s
  | .droverRestartDone n digestOk => Sys2Proof.Machine.execDroverRestartDone n digestOk s
  | .shepherdSheepdogExpiry digestOk => Sys2Proof.Machine.execShepherdSheepdogExpiry digestOk s
  | .shepherdRestartDone => Sys2Proof.Machine.execShepherdRestartDone s
  | .seqRefetch q => Sys2Proof.Machine.execSeqRefetch q s
  | .signalReread q => Sys2Proof.Machine.execSignalReread q s
  | .grazingSlotEnd => Sys2Proof.Machine.execGrazingSlotEnd s
  | .slowdownWindowClose ctx => Sys2Proof.Machine.execSlowdownWindowClose ctx s
  | .siFrameTimeout n => Sys2Proof.Machine.execSiFrameTimeout n s
  | .linkAckTimeout p => Sys2Proof.Machine.execLinkAckTimeout p s
  | .linkSilenceExpiry p => Sys2Proof.Machine.execLinkSilenceExpiry p s
  | .flkTrainExpiry p => Sys2Proof.Machine.execFlkTrainExpiry p s
  | .flkSilentExpiry p => Sys2Proof.Machine.execFlkSilentExpiry p s
  | .flockDiscovery => Sys2Proof.Machine.execFlockDiscovery s
  | .heartbeatPeriod => Sys2Proof.Machine.execHeartbeatPeriod s
  | .memberLost m => Sys2Proof.Machine.execMemberLost m s
  | .bellwetherLost => Sys2Proof.Machine.execBellwetherLost s
  | .rraTimeout => Sys2Proof.Machine.execRraTimeout s
  | .collectiveTimeout q => Sys2Proof.Machine.execCollectiveTimeout q s
  | .hostLoss => Sys2Proof.Machine.execHostLoss s
  | .preserveMessage => Sys2Proof.Machine.execPreserveMessage s
  | .dvSvcTimeout q => Sys2Proof.Machine.execDvSvcTimeout q s
  | .keyQuarantineEnd slot => Sys2Proof.Machine.execKeyQuarantineEnd slot s
  | .idleGateExpiry core => Sys2Proof.Machine.execIdleGateExpiry core s
  | .calibrationPeriod => Sys2Proof.Machine.execCalibrationPeriod s
  | .calibrationDone volts => Sys2Proof.Machine.execCalibrationDone volts s
  | .tdpWindowEnd mw loaded raised => Sys2Proof.Machine.execTdpWindowEnd mw loaded raised s
  | .patrolScrubVisit w => Sys2Proof.Machine.execPatrolScrubVisit w s
  | .emuReadTimeout n => Sys2Proof.Machine.execEmuReadTimeout n s
  | .keyLinkTimeout q => Sys2Proof.Machine.execKeyLinkTimeout q s
  | .bootFetchTimeout => Sys2Proof.Machine.execBootFetchTimeout s
  | .capCheckTimeout => Sys2Proof.Machine.execCapCheckTimeout s
  | .capCharged => Sys2Proof.Machine.execCapCharged s
  | .capDroopCheckEnd droop => Sys2Proof.Machine.execCapDroopCheckEnd droop s
  | .mxeFillGapExpiry core => Sys2Proof.Machine.execMxeFillGapExpiry core s
  | .mxeRampInterval core => Sys2Proof.Machine.execMxeRampInterval core s
  | .slotFetch q => Sys2Proof.Machine.execSlotFetch q s
  | .commandStart q => Sys2Proof.Machine.execCommandStart q s
  | .tileAdmission q core => Sys2Proof.Machine.execTileAdmission q core s
  | .corePowerOnDone core => Sys2Proof.Machine.execCorePowerOnDone core s
  | .tileEndNormal core => Sys2Proof.Machine.execTileEndNormal core s
  | .translationWalkDone core => Sys2Proof.Machine.execTranslationWalkDone core s
  | .faultReportPost => Sys2Proof.Machine.execFaultReportPost s
  | .parkedResume q => Sys2Proof.Machine.execParkedResume q s
  | .commandComplete q => Sys2Proof.Machine.execCommandComplete q s
  | .irqMessageSend => Sys2Proof.Machine.execIrqMessageSend s
  | .kvFifoRefill => Sys2Proof.Machine.execKvFifoRefill s
  | .kvFull q => Sys2Proof.Machine.execKvFull q s
  | .invalidationDrainDone q => Sys2Proof.Machine.execInvalidationDrainDone q s
  | .teardownComplete ctx => Sys2Proof.Machine.execTeardownComplete ctx s
  | .kvReclaimDone => Sys2Proof.Machine.execKvReclaimDone s
  | .keySlotDrained slot => Sys2Proof.Machine.execKeySlotDrained slot s
  | .mbRequestDone => Sys2Proof.Machine.execMbRequestDone s
  | .shepherdUpdateResume => Sys2Proof.Machine.execShepherdUpdateResume s
  | .emuReadAnswer n => Sys2Proof.Machine.execEmuReadAnswer n s
  | .registerWrite path off wide v => Sys2Proof.Machine.execRegisterWrite path off wide v s
  | .regLowHalfWrite path off v => Sys2Proof.Machine.execRegLowHalfWrite path off v s
  | .regLowHalfRead path off => Sys2Proof.Machine.execRegLowHalfRead path off s
  | .evRawClear path off v => Sys2Proof.Machine.execEvRawClear path off v s
  | .evEnWrite path off v => Sys2Proof.Machine.execEvEnWrite path off v s
  | .pageQuiesceReq path off => Sys2Proof.Machine.execPageQuiesceReq path off s
  | .pageQuiesceRelease path off => Sys2Proof.Machine.execPageQuiesceRelease path off s
  | .pageResetReq path off => Sys2Proof.Machine.execPageResetReq path off s
  | .pageEnable path off => Sys2Proof.Machine.execPageEnable path off s
  | .doorbell q v => Sys2Proof.Machine.execDoorbell q v s
  | .cqHeadWrite q v => Sys2Proof.Machine.execCqHeadWrite q v s
  | .qRestart q => Sys2Proof.Machine.execQRestart q s
  | .qRestartDiscard q => Sys2Proof.Machine.execQRestartDiscard q s
  | .kvdProvGo path => Sys2Proof.Machine.execKvdProvGo path s
  | .xltFltHeadWrite path v => Sys2Proof.Machine.execXltFltHeadWrite path v s
  | .xltFltCfgWrite path v => Sys2Proof.Machine.execXltFltCfgWrite path v s
  | .grzCsbInletWrite path v => Sys2Proof.Machine.execGrzCsbInletWrite path v s
  | .mxeRampWrite path core v => Sys2Proof.Machine.execMxeRampWrite path core v s
  | .ateCtrlWrite path core v => Sys2Proof.Machine.execAteCtrlWrite path core v s
  | .siEnable path n format => Sys2Proof.Machine.execSiEnable path n format s
  | .siDisable path n format => Sys2Proof.Machine.execSiDisable path n format s
  | .lkEnable path p => Sys2Proof.Machine.execLkEnable path p s
  | .lkDisable path p => Sys2Proof.Machine.execLkDisable path p s
  | .flkRraGo path timeout => Sys2Proof.Machine.execFlkRraGo path timeout s
  | .fwdDb path hi => Sys2Proof.Machine.execFwdDb path hi s
  | .flkRejoin path m => Sys2Proof.Machine.execFlkRejoin path m s
  | .hostBeat v => Sys2Proof.Machine.execHostBeat v s
  | .attachWrite token => Sys2Proof.Machine.execAttachWrite token s
  | .attachFresh go => Sys2Proof.Machine.execAttachFresh go s
  | .epochNsWrite path v => Sys2Proof.Machine.execEpochNsWrite path v s
  | .emulatedRead n o wide => Sys2Proof.Machine.execEmulatedRead n o wide s
  | .emulatedWrite path n o v => Sys2Proof.Machine.execEmulatedWrite path n o v s
  | .mbInfo tag => Sys2Proof.Machine.execMbInfo tag s
  | .mbLogRead tag => Sys2Proof.Machine.execMbLogRead tag s
  | .mbSpdm tag => Sys2Proof.Machine.execMbSpdm tag s
  | .mbStage tag => Sys2Proof.Machine.execMbStage tag s
  | .getVersion => Sys2Proof.Machine.execGetVersion s
  | .getCapabilities => Sys2Proof.Machine.execGetCapabilities s
  | .negotiateAlgorithms offersAll => Sys2Proof.Machine.execNegotiateAlgorithms offersAll s
  | .getDigests => Sys2Proof.Machine.execGetDigests s
  | .getCertificate slot off len => Sys2Proof.Machine.execGetCertificate slot off len s
  | .challenge slot nonce => Sys2Proof.Machine.execChallenge slot nonce s
  | .getMeasurements index sign nonce => Sys2Proof.Machine.execGetMeasurements index sign nonce s
  | .keyExchange req pub => Sys2Proof.Machine.execKeyExchange req pub s
  | .spdmFinish session hmac => Sys2Proof.Machine.execSpdmFinish session hmac s
  | .endSession session => Sys2Proof.Machine.execEndSession session s
  | .spdmUnsupportedRequest code => Sys2Proof.Machine.execSpdmUnsupportedRequest code s
  | .nop q => Sys2Proof.Machine.execNop q s
  | .tiles q => Sys2Proof.Machine.execTiles q s
  | .weightHint q => Sys2Proof.Machine.execWeightHint q s
  | .kvAppend q => Sys2Proof.Machine.execKvAppend q s
  | .kvFork q => Sys2Proof.Machine.execKvFork q s
  | .kvFree q => Sys2Proof.Machine.execKvFree q s
  | .kvTrim q => Sys2Proof.Machine.execKvTrim q s
  | .collectiveReduceScatter q => Sys2Proof.Machine.execCollectiveReduceScatter q s
  | .collectiveAllGather q => Sys2Proof.Machine.execCollectiveAllGather q s
  | .collectiveAllReduce q => Sys2Proof.Machine.execCollectiveAllReduce q s
  | .ctxResume q => Sys2Proof.Machine.execCtxResume q s
  | .ctxSetup q => Sys2Proof.Machine.execCtxSetup q s
  | .segSet q => Sys2Proof.Machine.execSegSet q s
  | .xltRoot q => Sys2Proof.Machine.execXltRoot q s
  | .xltInvalidate q => Sys2Proof.Machine.execXltInvalidate q s
  | .keyBindBind q => Sys2Proof.Machine.execKeyBindBind q s
  | .keyBindCreate q => Sys2Proof.Machine.execKeyBindCreate q s
  | .keyBindRetire q => Sys2Proof.Machine.execKeyBindRetire q s
  | .keyBindLink q => Sys2Proof.Machine.execKeyBindLink q s
  | .teardown q => Sys2Proof.Machine.execTeardown q s
  | .grazeUpdate q => Sys2Proof.Machine.execGrazeUpdate q s
  | .grazeDisable q => Sys2Proof.Machine.execGrazeDisable q s
  | .partitionSet q => Sys2Proof.Machine.execPartitionSet q s
  | .powerStageSetLevel q => Sys2Proof.Machine.execPowerStageSetLevel q s
  | .powerStageSetTdp q => Sys2Proof.Machine.execPowerStageSetTdp q s
  | .powerStageRecal q => Sys2Proof.Machine.execPowerStageRecal q s
  | .powerStageRetire q => Sys2Proof.Machine.execPowerStageRetire q s
  | .powerStageUnretire q => Sys2Proof.Machine.execPowerStageUnretire q s
  | .powerStageCapCheck q => Sys2Proof.Machine.execPowerStageCapCheck q s
  | .fwStageDrover q => Sys2Proof.Machine.execFwStageDrover q s
  | .fwStageShepherd q => Sys2Proof.Machine.execFwStageShepherd q s
  | .flockBind q => Sys2Proof.Machine.execFlockBind q s
  | .flockUnbind q => Sys2Proof.Machine.execFlockUnbind q s
  | .kickRegisterWrite drover => Sys2Proof.Machine.execKickRegisterWrite drover s
  | .emulatedWriteApply n => Sys2Proof.Machine.execEmulatedWriteApply n s
  | .shepherdServiceDone q => Sys2Proof.Machine.execShepherdServiceDone q s
  | .groupLinkKeyFlit p nonce f => Sys2Proof.Machine.execGroupLinkKeyFlit p nonce f s
  | .coldBootReady => Sys2Proof.Machine.execColdBootReady s
  | .crossingReset c => Sys2Proof.Machine.execCrossingReset c s
  | .tapLeavesExtest => Sys2Proof.Machine.execTapLeavesExtest s
  | .selfTestDone => Sys2Proof.Machine.execSelfTestDone s

end Sys2Proof.Machine
end

