-- ==== Sys2Proof/Safety.lean ====
section
/-! DEFINITION. What a safe state and a safe step are: the canonical form of the shared memory, of the CSB and of the register
file, a step that neither faults nor refuses, and the frames that the statements use. -/

namespace Sys2Proof.Machine

/-- The shared memory is in canonical form: addresses rising, no byte equal to what an unlisted address reads as. -/
abbrev Memory.wf (m : List Host.Cell) : Prop := tblOk (0 : Byte) m = true

/-- The register file is in canonical form: offsets rising, no register listed at its reset value. -/
def regsOk (t : List (Nat × W64)) : Bool := tblRising 0 t && t.all (fun e => !decide (e.2 = resetVal e.1))

/-- Shared memory, CSB and register file are in canonical form. -/
structure State.canonical (s : State) : Prop where
  mem : Memory.wf s.mem
  csb : Memory.wf s.csb
  regs : regsOk s.regs = true

/-- The step answers a next state. -/
def runs (s : State) : Prop := ∃ t, step s = .next t

/-- Every register but those that begin at the listed offsets is unchanged. -/
def State.regsBut (s t : State) (os : List Nat) : Prop := ∀ o, o ∉ os → t.reg o = s.reg o

/-- Every byte of shared memory but those of the `n` bytes from `a` is unchanged. -/
def State.memBut (s t : State) (a n : Nat) : Prop :=
  ∀ x, (∀ i < n, (a + i) % 2 ^ 52 ≠ x % 2 ^ 52) → t.byteAt x = s.byteAt x

/-- Every byte of shared memory is unchanged. -/
def State.memSame (s t : State) : Prop := ∀ x, t.byteAt x = s.byteAt x

/-- The command `c` of `s` has ended its phase 4 with status `st` in `t`; the other commands in flight are as in `s`. -/
def State.completes (s t : State) (c : Cmd) (st : Nat) : Prop := t.cmds = (s.setCmd (c.done st)).cmds

/-- Nothing but the commands in flight differs. -/
def State.onlyCmds (s t : State) : Prop := t = { s with cmds := t.cmds }

/-- A register access on a path takes effect on the page at an offset: the path reaches it, and a Drover may write it (R517). -/
def State.takes (s : State) (path : Path) (off : Nat) : Bool :=
  match locate off with
  | some l => s.reaches path l && (match path with
    | .drover n => droverMay n.val l
    | .host | .remote => true)
  | none => false

/-- The accesses of steps 4 to 6 of Table 7.9 succeed from `s` for inlet `n`: the frame record is written, the template read and
found one slot long, the command's copy written; `u` is the state after them. -/
def State.frameStored (s : State) (n : Nat) (u : State) : Prop :=
  ∃ (a b : State) (t : List Byte),
    s.ctxWrite (s.rf (F.siCtx n)) (s.rf (F.siFrec n) + 32 * (s.rf (F.siFrame n) % max 1 (s.rf (F.siSlots n)))) (s.siRecord n) (s.siClient n)
      = (0, a) ∧
    a.ctxRead (s.rf (F.siCtx n)) (a.rf (F.siTmpl n) + 128 * (s.rf (F.siFrame n) % max 1 (s.rf (F.siSlots n)))) 128 = (.ok t, b) ∧
    fldOf t 4 1 = 1 ∧
    b.ctxWrite (s.rf (F.siCtx n))
      (b.slotAddr (8 * s.rf (F.siCtx n) + s.rf (F.siQueue n)) (b.rf (F.qTail (8 * s.rf (F.siCtx n) + s.rf (F.siQueue n)))))
      (t.take 2 ++ natLe 2 (b.rf (F.qTail (8 * s.rf (F.siCtx n) + s.rf (F.siQueue n)))) ++ t.drop 4) (b.siClient n) = (0, u)

/-- The row of a flit type, on a port, with the sender's nonce and the flit. -/
def flitInstr (t : Nat) (p : LinkId) (nonce : BitVec 96) (f : Flit) : Instr :=
  match t with
  | 0 => .idleFlit p nonce f
  | 1 => .nak p nonce f
  | 2 => .discover p nonce f
  | 3 => .discoverReply p nonce f
  | 4 => .routeFlit p nonce f
  | 5 => .heartbeatFlit p nonce f
  | 6 => .hbAck p nonce f
  | 7 => .regReq p nonce f
  | 8 => .regRsp p nonce f
  | 9 => .doorbellFlit p nonce f
  | 10 => .irqFlit p nonce f
  | 11 => .collReady p nonce f
  | 12 => .collData p nonce f
  | _ => .spdmFlit p nonce f

/-- The instance takes flits on the port, no flit waits on it or is held under a slot number out of range, no collective runs and no
DISCOVER is due: nothing but the flit's own effect follows it. -/
structure State.portQuiet (s : State) (p : LinkId) : Prop where
  ready : s.isReady = true
  xing : s.xing (.lk p) = true
  colls : s.flock.colls = []
  due : s.flock.due = none
  waitQ : (s.link p.val).waitQ = []
  held : ∀ e ∈ (s.link p.val).held, e.key < 128

/-- A sequenced flit passes the checks of R453 on a port, under its session key, with payload `pay`. -/
structure State.hopTakes (s : State) (p : LinkId) (nonce : BitVec 96) (f : Flit) (pay : List Byte) : Prop where
  seq : flitLseq f.toNat = (s.link p.val).rxSeq
  key : (hdrOf f.toNat).key = 127
  opens : ∃ body, openFlit (s.flitKey p.val 127) (natL 12 nonce.toNat) f = some body ∧ pay = body.take (min 224 (hdrOf f.toNat).len)

/-- A flit on an UP port of a member that ends there (R449, R459, R462), with payload `pay`. -/
structure State.flitEnds (s : State) (p : LinkId) (nonce : BitVec 96) (f : Flit) (pay : List Byte) : Prop where
  quiet : s.portQuiet p
  up : s.rf (F.lkState p.val) = 3
  takes : s.hopTakes p nonce f pay
  cls : typeClass (hdrOf f.toNat).typ = some (hdrOf f.toNat).cls
  flock : (hdrOf f.toNat).flock = s.rf F.flockId
  here : s.routeTo (hdrOf f.toNat).dst = 4
  ctx : (hdrOf f.toNat).cls < 2 → s.ctxLive (hdrOf f.toNat).ctx = true

/-- The state after a port has accepted a flit (R453). -/
def State.tookFlit (s : State) (p : Nat) (f : Flit) : State :=
  (s.setLink p { s.link p with rxSeq := ((s.link p).rxSeq + 1) % 256, rejects := 0 }).accepted p f

/-- What an instance reset leaves (R552): no command, transaction, unit or CSB content, P00 alone powered, and RESET_CAUSE. -/
structure State.afterReset (t : State) (cause : Nat) : Prop where
  cmds : t.cmds = []
  txns : t.txns = []
  waiting : t.waiting = []
  sigs : t.sigs = []
  cores : t.cores = []
  clusters : t.clusters = []
  queues : t.queues = []
  links : t.links = []
  inlets : t.inlets = []
  csb : t.csb = []
  csbPoison : t.csbPoison = []
  csbMap : t.csbMap = []
  drovers : t.drovers = []
  closing : t.closing = []
  rst : t.boot.rst = true
  phase : t.boot.phase = .resetting ∨ t.boot.phase = .tray
  cause : t.rf F.resetCause = cause % 16
  domains : t.rf F.domains = 1

end Sys2Proof.Machine
end

