-- ==== Sys2Proof/Certificates/Slice0/Obligations.lean ====
section
/-! DEFINITION. The statements for the provers. Each says in its docstring which rules of the spec it formalises and which of
the model's own choices it rests on. -/

open Sys2Proof Sys2Proof.Machine

/-- The queue is first in, first out, and one command runs per step; idling on an empty queue is the model's choice (assumption 1). -/
def Obligations.StepRunsTheFrontCommand : Prop :=
  (∀ (s : State) (c : Instr) (rest : List Instr), s.pending = c :: rest → step s = exec c { s with pending := rest }) ∧
  (∀ s : State, s.pending = [] → step s = .next s)

/-- What State.reset holds; the byte value of memory that nothing has written is the model's choice (assumption 4). -/
def Obligations.ResetLeavesTheListedValues : Prop :=
  (∀ o, State.reset.reg o = resetVal o) ∧ State.reset.pending = [] ∧ State.reset.cmds = [] ∧ State.reset.txns = [] ∧
  State.reset.queues = [] ∧ State.reset.links = [] ∧ State.reset.inlets = [] ∧ State.reset.cores = [] ∧
  State.reset.poison = [] ∧ State.reset.pins.porN = false ∧ State.reset.rf F.hostState = 0 ∧ State.reset.rf F.trust = 0 ∧
  (∀ a, State.reset.byteAt a = 0)

/-- The canonical form of memory, of the CSB and of the register file, which every step keeps. -/
def Obligations.StepKeepsMemoryCanonical : Prop :=
  ∀ s t : State, State.canonical s → step s = .next t → State.canonical t

/-- The invariant of StepKeepsMemoryCanonical holds at reset. -/
def Obligations.ResetMemoryIsCanonical : Prop :=
  State.canonical State.reset

/-- R610, R612, R613, R625, R627: what the crossings hold and release; the rest of the machine is untouched. -/
def Obligations.CrossingEventsHoldAndReleaseTraffic : Prop :=
  (∀ (s : State) (c : Clk), ∃ t, exec (.clockStop c) s = .next t ∧ t = { s with pins := t.pins } ∧
    t.pins = { s.pins with stopped := t.pins.stopped } ∧ (∀ d, d ∈ t.pins.stopped ↔ d = c ∨ d ∈ s.pins.stopped) ∧ t.xing c = false) ∧
  (∀ (s : State) (c : Clk), s.pins.taHeld = [] → s.shep.stopping = false → ∃ t, exec (.clockReturn c) s = .next t ∧
    t = { s with pins := t.pins } ∧ t.pins = { s.pins with stopped := t.pins.stopped } ∧
    (∀ d, d ∈ t.pins.stopped ↔ d ≠ c ∧ d ∈ s.pins.stopped)) ∧
  (∀ (s : State) (c : Clk), ∃ t, exec (.crossingReset c) s = .next t ∧ t = { s with pins := t.pins } ∧
    t.pins = { s.pins with resync := t.pins.resync } ∧ (∀ d, d ∈ t.pins.resync ↔ d = c ∨ d ∈ s.pins.resync) ∧ t.xing c = false) ∧
  (∀ (s : State) (c : Clk), c ∉ s.pins.stopped → s.pins.taHeld = [] → s.shep.stopping = false →
    ∃ t, exec (.crossingResyncDone c) s = .next t ∧ t = { s with pins := t.pins } ∧
      t.pins = { s.pins with resync := t.pins.resync } ∧ (∀ d, d ∈ t.pins.resync ↔ d ≠ c ∧ d ∈ s.pins.resync) ∧
      t.xing c = !s.pins.extest) ∧
  (∀ s : State, s.pins.porN = true → ∃ t, exec .tapExtest s = .next t ∧ t = { s with pins := { s.pins with extest := true } } ∧
    ∀ c, t.xing c = false) ∧
  (∀ s : State, s.pins.taHeld = [] → s.shep.stopping = false → ∃ t, exec .tapLeavesExtest s = .next t ∧
    t = { s with pins := { s.pins with extest := false } } ∧
    ∀ c, t.xing c = (!s.pins.stopped.contains c && !s.pins.resync.contains c)) ∧
  (∀ s : State, s.pins.taHeld = [] → s.shep.stopping = false → ∃ t, exec .tapReset s = .next t ∧
    t = { s with pins := { s.pins with extest := false, selfTest := false } } ∧
    ∀ c, t.xing c = (!s.pins.stopped.contains c && !s.pins.resync.contains c))

/-- R626 and Table 18.8; R552 for the instance reset. -/
def Obligations.SelfTestHoldsTheInstance : Prop :=
  (∀ s : State, s.pins.porN = true → ∃ t, exec .tapSelfTest s = .next t ∧ t.pins.selfTest = true ∧
    (Config.lifecycle = 1 ∧ s.boot.phase = .ready → t.rf F.resetCause = 7 ∧ t.cmds = [] ∧ t.txns = [] ∧ t.cores = [] ∧ t.queues = []) ∧
    (¬ (Config.lifecycle = 1 ∧ s.boot.phase = .ready) → t = { s with pins := { s.pins with selfTest := true } })) ∧
  (∀ (s : State) (b : Bool), s.pins.selfTest = true → exec (.instanceResetReady b) s = .next s) ∧
  (∀ s : State, s.pins.selfTest = true → ∃ t, exec .selfTestDone s = .next t ∧
    t = { s with pins := { s.pins with selfTest := false }, csb := t.csb, csbPoison := t.csbPoison } ∧
    (s.boot.rst = true → t.csb = [] ∧ t.csbPoison = []) ∧ (s.boot.rst = false → t.csb = s.csb ∧ t.csbPoison = s.csbPoison))

/-- R606, R616 and R621 at POR_N release, R487 for the two image addresses, Table 18.7 and R552 for the end of a boot. -/
def Obligations.PowerUpBootsAndBecomesReady : Prop :=
  (∀ (s : State) (b : Bool) (strap : BitVec 14) (phy : BitVec 4) (fetched : Bool), s.pins.porN = false → s.shep.stopping = false →
    ∃ t, exec (.porNRelease b strap phy fetched) s = .next t ∧
      t.pins = { s.pins with porN := true, bellwether := b, phyReady := phy.toNat, irqQ := t.pins.irqQ } ∧
      t.hsa.bootCount = (s.hsa.bootCount + 1) % 2 ^ 32 ∧
      t.rf F.epochNs = (if 100 ≤ strap.toNat ∧ strap.toNat ≤ 10000 then strap.toNat else 1000) ∧ t.mem = s.mem) ∧
  (∀ (s : State) (e : Nat), s.elapsed .bootFetch = some e → s.pins.taHeld = [] → s.shep.stopping = false →
    ∃ t, exec .bootFetchTimeout s = .next t ∧ t.elapsed .bootFetch = none ∧
      ((t.boot.phase = .loaded ∧ t.rb F.bootAlt = true ∧ t.rf F.bootStatus = 1) ∨
       (t.boot.phase = .failed ∧ 2 ≤ t.rf F.bootStatus))) ∧
  (∀ s : State, s.boot.phase = .loaded → s.boot.rst = false → s.pwr.cap = 0 →
    ∃ t, exec .coldBootReady s = .next t ∧ t.isReady = true ∧ ∀ n < 4, t.rb (F.dvRunning n) = true) ∧
  (∀ (s : State) (b : Bool), s.boot.rst = true → s.pins.selfTest = false → s.boot.phase = .loaded → s.pins.taHeld = [] →
    s.shep.stopping = false →
    ∃ t, exec (.instanceResetReady b) s = .next t ∧ t.isReady = true ∧ t.boot.rst = false ∧ bit (t.rf (F.evRaw 0)) 2 = true)

/-- R621 to R623 and R586; SAVES counts since manufacture (Table 17.10). -/
def Obligations.ResetPinsLeaveResetValues : Prop :=
  (∀ s : State, s.pins.porN = true → ¬ (1 ≤ s.rf F.holdState ∧ s.rf F.holdState ≤ 3) →
    ∃ t, exec .porNAssert s = .next t ∧ (∀ o, o ≠ F.saves.off → t.reg o = resetVal o) ∧ t.reg F.saves.off = s.reg F.saves.off ∧
      t.mem = s.mem ∧ t.poison = s.poison ∧ t.hsa = { s.hsa with capture := none } ∧ t.pins.porN = false ∧ t.boot = Boot.init ∧
      t.cmds = [] ∧ t.txns = [] ∧ t.queues = [] ∧ t.cores = [] ∧ t.keys = [] ∧ t.cmdKeys = []) ∧
  (∀ s : State, s.pins.porN = true → 1 ≤ s.rf F.holdState → s.rf F.holdState ≤ 3 →
    exec .porNAssert s = .next { s with pins := { s.pins with porN := false }, boot := { s.boot with porDeferred := true } }) ∧
  (∀ s : State, s.pins.porN = true → s.boot.phase ≠ .tray → s.boot.phase ≠ .failed →
    (s.rf F.holdState = 0 ∨ s.rf F.holdState = 4) → ∃ t, exec .wrstNAssert s = .next t ∧ t.afterReset 8) ∧
  (∀ s : State, s.pins.porN = true → s.boot.phase ≠ .tray → s.boot.phase ≠ .failed →
    (1 ≤ s.rf F.holdState ∧ s.rf F.holdState ≤ 3 ∨ s.rf F.holdState = 5) →
    exec .wrstNAssert s = .next { s with boot := { s.boot with wrstDeferred := true } })

/-- R597, R548 and R555. -/
def Obligations.EscalationsResetTheInstance : Prop :=
  (∀ (s : State) (p : PortId), s.boot.phase = .ready → s.txns.any (fun t => t.port == p.val) = true →
    ∃ t, exec (.mpRstNAssert p) s = .next t ∧ t.afterReset 3) ∧
  (∀ (s : State) (p : PortId), ¬ (s.boot.phase = .ready ∧ s.txns.any (fun t => t.port == p.val) = true) →
    ∃ t, exec (.mpRstNAssert p) s = .next t ∧ t = { s with boot := { s.boot with discard := t.boot.discard } } ∧
      ∀ d, d ∈ t.boot.discard ↔ d ∈ s.boot.discard ∧ d.1 ≠ p.val) ∧
  (∀ (s : State) (c : CtxId) (k : Closing), k ∈ s.closing → k.ctx = c.val → k.cause ≠ 0 →
    s.reached (.ctxDrain c.val) (s.toEpochs 10000000) = true → ∃ t, exec (.contextDrainLimit c) s = .next t ∧ t.afterReset 6) ∧
  (∀ s : State, s.boot.rst = true → (s.boot.phase = .failed ∨ ((s.boot.phase = .resetting ∨ s.boot.phase = .loaded) ∧
      s.toEpochs 100000000 ≤ s.now - s.boot.rstStart)) →
    ∃ t, exec .instanceResetLimit s = .next t ∧ t.pins.trayReq = true ∧ t.boot.phase = .tray ∧ t.rf F.domains = 1)

/-- R579, R584 and R588; VHOLD counts in units of 2 mV, so 1.7 V is 850. -/
def Obligations.PowerWarningSavesOrQuiesces : Prop :=
  (∀ s : State, s.pins.porN = true → s.boot.rst = false → s.boot.phase = .ready → s.rf F.holdState ≠ 5 → s.rf F.holdState ≠ 1 →
    s.hsa.capture = none → ∃ t, exec .pwrWarnAssert s = .next t ∧ t.pins.pwrWarn = true ∧
      t.rf F.holdState = (if s.rb F.armed then 1 else s.rf F.holdState) ∧ ∀ n < 16, bit (t.core n).quiesceReq 1 = true) ∧
  (∀ s : State, s.pins.porN = true → s.rf F.holdState = 0 → s.rf F.hostState < 2 →
    ∃ t, exec .pwrWarnClear s = .next t ∧ t.pins.pwrWarn = false ∧ ∀ n < 16, bit (t.core n).quiesceReq 1 = false) ∧
  (∀ s : State, s.pins.porN = true → s.rf F.holdState = 4 → s.hsa.capture.isSome = true → 850 ≤ s.rf F.vhold →
    ∃ t, exec .pwrWarnClear s = .next t ∧ t.pins.pwrWarn = false ∧ t.rf F.holdState = 5 ∧ t.cmds = s.cmds ∧ t.mem = s.mem) ∧
  (∀ (s : State) (mv : BitVec 10), s.pins.porN = true → 850 ≤ mv.toNat → ∃ t, exec (.vholdRecharged mv) s = .next t ∧
      t.rf F.vhold = mv.toNat ∧ t.mem = s.mem ∧ t.cmds = s.cmds ∧
      t.rf F.holdState = (if s.rf F.holdState = 4 ∧ s.hsa.capture.isSome = true ∧ s.pins.pwrWarn = false then 5 else s.rf F.holdState))

/-- R585, R587, R588 and R589 (Tables 17.6 and 17.7). -/
def Obligations.SealedSaveIsResumed : Prop :=
  (∀ (s : State) (mv : BitVec 10), s.rf F.holdState = 1 → s.noTiles = true → s.rf F.hostState ≠ 2 → s.boot.porDeferred = false →
    s.boot.wrstDeferred = false → ∃ t, exec (.holdupSealed mv) s = .next t ∧ t.rf F.holdState = 4 ∧
      t.hsa.capture = some (s.makeSave false) ∧ t.cmds = [] ∧ t.queues = [] ∧ t.txns = [] ∧ t.rf F.domains = 0x1E01 ∧
      t.rf F.vhold = mv.toNat ∧ t.mem = s.mem) ∧
  (∀ (s : State) (v : Save), s.rf F.holdState = 5 → s.hsa.capture = some v → s.boot.porDeferred = false →
    s.boot.wrstDeferred = false → s.pins.taHeld = [] → s.shep.stopping = false →
    ∃ t, exec .holdupResumeDone s = .next t ∧ t.rf F.holdState = 0 ∧ t.hsa.capture = none ∧ bit (t.rf (F.evRaw pgHup)) 1 = true) ∧
  (∀ (s : State) (cl : ClId), 1 ≤ s.rf F.holdState → s.rf F.holdState ≤ 4 → ∃ t, exec (.csbRetentionLoss cl) s = .next t ∧
    t.rb (F.csbRetained cl.val) = false ∧ (∀ c < 4, c ≠ cl.val → t.rb (F.csbRetained c) = s.rb (F.csbRetained c)) ∧
    t.rf F.holdState = s.rf F.holdState ∧ t.rf F.vhold = s.rf F.vhold ∧ s.regsBut t [F.holdState.off] ∧ t = { s with regs := t.regs }) ∧
  (∀ (s : State) (n : CoreId) (k : Tile), (s.core n.val).tile = some k → s.rf F.holdState = 1 →
    ∃ t, exec (.vddNeTileStop n) s = .next t ∧ (t.core n.val).tile = none)

/-- R571. The temperature is counted in units of 0.5 °C (PWR_MON). -/
def Obligations.ThermalLimitForcesTheLowestLevel : Prop :=
  (∀ (s : State) (cl : ClId) (tj : BitVec 9), s.pins.porN = true → 210 < tj.toNat → ∃ t, exec (.thermalLimitEnter cl tj) s = .next t ∧
    t.rb (F.thermal cl.val) = true ∧ t.rf (F.level cl.val) = 0 ∧ t.effLevel cl.val = 0 ∧ bit (t.rf (F.evRaw pgPwr)) 4 = true ∧
    t.rf (F.monTj cl.val) = tj.toNat ∧
    (∀ c < 4, c ≠ cl.val → t.rb (F.thermal c) = s.rb (F.thermal c) ∧ t.rf (F.level c) = s.rf (F.level c)) ∧
    t.mem = s.mem ∧ t.cmds = s.cmds) ∧
  (∀ (s : State) (cl : ClId) (tj : BitVec 9), s.pins.porN = true → tj.toNat ≤ 200 → ∃ t, exec (.thermalLimitExit cl tj) s = .next t ∧
    t.rb (F.thermal cl.val) = false ∧ t.rf (F.level cl.val) = t.effLevel cl.val % 16 ∧ t.rf (F.monTj cl.val) = tj.toNat ∧
    (∀ c < 4, c ≠ cl.val → t.rb (F.thermal c) = s.rb (F.thermal c) ∧ t.rf (F.level c) = s.rf (F.level c)) ∧
    s.regsBut t [0x2050, (F.monTj cl.val).off] ∧ t = { s with regs := t.regs })

/-- R572 and R565. The row names the cluster that the controller chose. -/
def Obligations.PowerControllersActAtTheirPeriods : Prop :=
  (∀ (s : State) (mw : BitVec 20) (a b : ClId), s.isReady = true → s.rb (F.dvRunning 3) = true →
    2 ^ s.rf F.tdpWin ≤ s.now - s.pwr.tdpStart → ∃ t, exec (.tdpWindowEnd mw a b) s = .next t ∧
      t.rf F.tdpAvg = min 65535 mw.toNat ∧ t.pwr.tdpStart = s.now ∧
      (250 * s.rf F.tdpCap < mw.toNat → (t.lvl a.val).allowed = (s.lvl a.val).allowed - 1 ∧ (t.lvl a.val).requested = (s.lvl a.val).requested ∧
        (0 < (s.lvl a.val).allowed → bit (t.rf (F.evRaw pgPwr)) 3 = true) ∧ ∀ c, c ≠ a.val → t.lvl c = s.lvl c) ∧
      (mw.toNat ≤ 250 * s.rf F.tdpCap → 10 * mw.toNat < 9 * (250 * s.rf F.tdpCap) →
        (t.lvl b.val).allowed = min 15 ((s.lvl b.val).allowed + 1) ∧ (t.lvl b.val).requested = (s.lvl b.val).requested ∧
        ∀ c, c ≠ b.val → t.lvl c = s.lvl c) ∧
      (mw.toNat ≤ 250 * s.rf F.tdpCap → 9 * (250 * s.rf F.tdpCap) ≤ 10 * mw.toNat → t.pwr.levels = s.pwr.levels) ∧
      t.mem = s.mem ∧ t.cmds = s.cmds) ∧
  (∀ (s : State) (n : CoreId), s.rb F.gateEn = true → s.domOn (coreDom n.val) = true → (s.core n.val).tile = none →
    (s.core n.val).powering = false → s.rf F.gateEpochs ≤ (s.core n.val).idle → ∃ t, exec (.idleGateExpiry n) s = .next t ∧
      t.domOn (coreDom n.val) = false ∧ t.rb (F.gated n.val) = true ∧ (t.core n.val).own = (s.core n.val).own ∧
      (t.core n.val).quiesceReq = (s.core n.val).quiesceReq ∧ (∀ m, m ≠ n.val → t.core m = s.core m) ∧ t.mem = s.mem ∧
      t.cmds = s.cmds) ∧
  (∀ (s : State) (n : CoreId), (s.core n.val).powering = true → s.domOn (coreDom n.val) = false → (s.core n.val).retirePend = false →
    ∃ t, exec (.corePowerOnDone n) s = .next t ∧ t.domOn (coreDom n.val) = true ∧ t.rb (F.gated n.val) = false ∧
      (t.core n.val).powering = false)

/-- R574 and R575; a voltage of 0 in the row stands for a level for which none was found. -/
def Obligations.CalibrationWritesTheTable : Prop :=
  (∀ s : State, s.isReady = true → s.rf F.calPeriod ≠ 0 → s.reached .calPeriod (s.rf F.calPeriod) = true →
    ∃ t, exec .calibrationPeriod s = .next t ∧ (∀ c < 4, c ∈ t.pwr.calQ) ∧
      ((∀ c < 4, s.rb (F.calBusy c) = false) → s.pwr.calQ = [] → t.rb (F.calBusy 0) = true)) ∧
  (∀ (s : State) (c : ClId) (v : BitVec 160), s.rb (F.calBusy c.val) = true → (∀ d < c.val, s.rb (F.calBusy d) = false) →
    s.allQuiesced [4 * c.val, 4 * c.val + 1, 4 * c.val + 2, 4 * c.val + 3] = true → ∃ t, exec (.calibrationDone v) s = .next t ∧
      t.rb (F.calBusy c.val) = false ∧ c.val ∉ t.pwr.calQ ∧
      (∀ l < 16, s.rf (F.target l) ≠ 0 → t.rf (F.entTarget c.val l) = s.rf (F.target l) ∧
        t.rf (F.entVolt c.val l) = bits v.toNat (10 * l) 10 ∧ t.rb (F.entValid c.val l) = decide (bits v.toNat (10 * l) 10 ≠ 0)) ∧
      (∀ l < 16, s.rf (F.target l) = 0 → t.reg (F.entTarget c.val l).off = s.reg (F.entTarget c.val l).off) ∧
      (∀ d < 4, ∀ l < 16, d ≠ c.val → t.reg (F.entTarget d l).off = s.reg (F.entTarget d l).off))

/-- R578 and Table 17.5; VHOLD counts in units of 2 mV. The order OPEN before LOW is the model's reading (assumption 34). -/
def Obligations.CapacitorCheckWritesItsStatus : Prop :=
  (∀ s : State, s.pwr.cap = 1 → ∃ t, exec .capCharged s = .next t ∧ t.pwr.cap = 2 ∧ t.rf F.vhold = 900 ∧
    t.pwr.capTime = (s.now - s.pwr.capStart) * s.rf F.epochNs ∧ t.mem = s.mem ∧ t.cmds = s.cmds) ∧
  (∀ (s : State) (d : BitVec 10), s.pwr.cap = 2 → s.pins.taHeld = [] → s.shep.stopping = false →
    ∃ t, exec (.capDroopCheckEnd d) s = .next t ∧ t.pwr.cap = 0 ∧
      t.rf F.capStatus = (if s.pwr.capTime < 600000 then 3 else if capMicro s.pwr.capTime < 376 then 2 else if 5 < d.toNat then 4 else 1) ∧
      t.rf F.capUf = min 1023 (capMicro s.pwr.capTime) ∧ t.mem = s.mem) ∧
  (∀ s : State, s.pwr.cap = 1 → s.now = s.pwr.capStart → s.pins.taHeld = [] → s.shep.stopping = false →
    ∃ t, exec .capCheckTimeout s = .next t ∧ t.pwr.cap = 0 ∧ t.rf F.capStatus = 5) ∧
  (∀ s : State, s.pwr.cap = 1 → s.now - s.pwr.capStart ≠ 0 → 12000000 ≤ s.epochsNs (s.now - s.pwr.capStart) →
    s.pins.taHeld = [] → s.shep.stopping = false → ∃ t, exec .capCheckTimeout s = .next t ∧ t.pwr.cap = 0 ∧ t.rf F.capStatus = 2)

/-- R570, R572 and R573 with Table 17.4; R514 for the wait. -/
def Obligations.PowerStageSetsLevelAndCap : Prop :=
  (∀ (s : State) (q : QNum) (c : Cmd), s.phase4 q.val 0x88 = some c → c.fld 50 1 % 8 = 0 → s.rb (F.dvRunning 3) = true →
    c.powerBad = false → c.clusters ≠ [] → (∀ k ∈ c.clusters, (s.validAt k (c.fld 52 1 % 16)).isSome = true) →
    ∃ t, exec (.powerStageSetLevel q) s = .next t ∧ s.completes t c 0x00 ∧
      (∀ k ∈ c.clusters, (t.lvl k).requested = c.fld 52 1 % 16 ∧ (t.lvl k).allowed = (s.lvl k).allowed ∧ t.rf (F.level k) = t.effLevel k) ∧
      (∀ k, k ∉ c.clusters → t.lvl k = s.lvl k) ∧ s.regsBut t [0x2050] ∧
      t = { s with regs := t.regs, pwr := { s.pwr with levels := t.pwr.levels }, cmds := t.cmds }) ∧
  (∀ (s : State) (q : QNum) (c : Cmd), s.phase4 q.val 0x88 = some c → c.fld 50 1 % 8 = 0 → s.rb (F.dvRunning 3) = true →
    c.powerBad = false → (c.clusters = [] ∨ ∃ k ∈ c.clusters, s.validAt k (c.fld 52 1 % 16) = none) →
    ∃ t, exec (.powerStageSetLevel q) s = .next t ∧ s.completes t c (if c.clusters = [] then 0x01 else 0x11) ∧ s.onlyCmds t) ∧
  (∀ (s : State) (q : QNum) (c : Cmd), s.phase4 q.val 0x88 = some c → c.fld 50 1 % 8 = 1 → s.rb (F.dvRunning 3) = true →
    c.powerBad = false → 16 ≤ c.fld 54 2 % 256 → c.fld 54 2 % 256 ≤ 240 → 8 ≤ c.fld 56 1 % 32 → c.fld 56 1 % 32 ≤ 20 →
    ∃ t, exec (.powerStageSetTdp q) s = .next t ∧ s.completes t c 0x00 ∧ t.rf F.tdpCap = c.fld 54 2 % 256 ∧
      t.rf F.tdpWin = c.fld 56 1 % 32 ∧ t.pwr.tdpStart = s.now ∧ s.regsBut t [F.tdpCap.off] ∧
      t = { s with regs := t.regs, pwr := t.pwr, cmds := t.cmds }) ∧
  (∀ (s : State) (q : QNum) (c : Cmd), s.phase4 q.val 0x88 = some c → c.fld 50 1 % 8 = 1 → s.rb (F.dvRunning 3) = true →
    c.powerBad = false → ¬ (16 ≤ c.fld 54 2 % 256 ∧ c.fld 54 2 % 256 ≤ 240 ∧ 8 ≤ c.fld 56 1 % 32 ∧ c.fld 56 1 % 32 ≤ 20) →
    ∃ t, exec (.powerStageSetTdp q) s = .next t ∧ s.completes t c (if c.fld 54 2 % 256 = 0 then 0x10 else 0x11) ∧ s.onlyCmds t) ∧
  (∀ (s : State) (q : QNum) (c : Cmd), s.phase4 q.val 0x88 = some c → s.rb (F.dvRunning 3) = true → 6 ≤ c.fld 50 1 % 8 →
    ∀ i ∈ [Instr.powerStageSetLevel q, .powerStageSetTdp q, .powerStageRecal q, .powerStageRetire q, .powerStageUnretire q],
      ∃ t, exec i s = .next t ∧ s.completes t c 0x11 ∧ s.onlyCmds t) ∧
  (∀ (s : State) (q : QNum) (c : Cmd), s.phase4 q.val 0x88 = some c → c.fld 50 1 % 8 = 0 → s.rb (F.dvRunning 3) = false →
    ∃ t, exec (.powerStageSetLevel q) s = .next t ∧ s.onlyCmds t ∧ ∀ d ∈ t.cmds, d ∉ s.cmds → d.svc = true ∧ d.acted = false)

/-- R573, R574, R576 and R578 with Tables 17.3 and 17.4. -/
def Obligations.PowerStageRetiresAndChecks : Prop :=
  (∀ (s : State) (q : QNum) (c : Cmd), s.phase4 q.val 0x88 = some c → c.fld 50 1 % 8 = 3 → s.rb (F.dvRunning 3) = true →
    c.powerBad = false → ∃ t, exec (.powerStageRetire q) s = .next t ∧
      (bit s.hsa.retired (c.fld 53 1 % 16) = true → s.completes t c 0x01 ∧ s.onlyCmds t) ∧
      (bit s.hsa.retired (c.fld 53 1 % 16) = false → setBits s.hsa.retired (c.fld 53 1 % 16) 1 1 % 2 ^ 16 = 0xFFFF →
        s.completes t c 0x11 ∧ s.onlyCmds t) ∧
      (bit s.hsa.retired (c.fld 53 1 % 16) = false → setBits s.hsa.retired (c.fld 53 1 % 16) 1 1 % 2 ^ 16 ≠ 0xFFFF →
        (s.core (c.fld 53 1 % 16)).tile = none → bit t.hsa.retired (c.fld 53 1 % 16) = true ∧
          t.domOn (coreDom (c.fld 53 1 % 16)) = false ∧ c.done 0x00 ∈ t.cmds ∧ bit (t.rf (F.evRaw pgPwr)) 2 = true) ∧
      (bit s.hsa.retired (c.fld 53 1 % 16) = false → setBits s.hsa.retired (c.fld 53 1 % 16) 1 1 % 2 ^ 16 ≠ 0xFFFF →
        (s.core (c.fld 53 1 % 16)).tile ≠ none → (t.core (c.fld 53 1 % 16)).retirePend = true ∧ t.hsa = s.hsa ∧ t.regs = s.regs)) ∧
  (∀ (s : State) (q : QNum) (c : Cmd), s.phase4 q.val 0x88 = some c → c.fld 50 1 % 8 = 4 → s.rb (F.dvRunning 3) = true →
    c.powerBad = false → ∃ t, exec (.powerStageUnretire q) s = .next t ∧
      (bit s.hsa.retired (c.fld 53 1 % 16) = false → s.completes t c 0x01 ∧ s.onlyCmds t) ∧
      (bit s.hsa.retired (c.fld 53 1 % 16) = true → s.completes t c 0x00 ∧ bit t.hsa.retired (c.fld 53 1 % 16) = false ∧
        t.domOn (coreDom (c.fld 53 1 % 16)) = true ∧ t.mem = s.mem)) ∧
  (∀ (s : State) (q : QNum) (c : Cmd), s.phase4 q.val 0x88 = some c → c.fld 50 1 % 8 = 2 → s.rb (F.dvRunning 3) = true →
    c.powerBad = false → ∃ t, exec (.powerStageRecal q) s = .next t ∧ (c.clusters = [] → s.completes t c 0x01 ∧ s.onlyCmds t) ∧
      ∀ k ∈ c.clusters, k ∈ t.pwr.calQ) ∧
  (∀ (s : State) (q : QNum) (c : Cmd), s.phase4 q.val 0x88 = some c → c.fld 50 1 % 8 = 5 → s.shepUp = true →
    c.powerBad = false → ∃ t, exec (.powerStageCapCheck q) s = .next t ∧
      (s.rf F.holdState ≠ 0 → s.completes t c 0x11 ∧ s.onlyCmds t) ∧
      (s.rf F.holdState = 0 → t.pwr.cap = 1 ∧ t.pwr.capStart = s.now ∧ t.regs = s.regs ∧
        t.mem = s.mem))

/-- R9, R10, R11 and R598. -/
def Obligations.RegisterAccessesCommitAndLatch : Prop :=
  (∀ (s : State) (off : Offset) (wide : Bool) (v : W64), s.hostOk = true →
    ((wide = true ∧ off.toNat % 8 ≠ 0) ∨ off.toNat % 4 ≠ 0 ∨ ∃ r, regAt off.toNat = some r ∧ wide = true ∧ r.row.wide = false) →
    exec (.registerWrite .host off wide v) s = .next { s with pins := { s.pins with rerr := true } }) ∧
  (∀ (s : State) (off : Offset) (v : W64), s.hostOk = true → off.toNat % 4 = 0 → regAt off.toNat = none →
    exec (.registerWrite .host off false v) s = .next { s with pins := { s.pins with rerr := false } }) ∧
  (∀ (s : State) (path : Path) (v : W64), s.takes path 0x11060 = true → ∃ t, exec (.registerWrite path 0x11060 false v) s = .next t ∧
    t.rf F.provFirst = v.toNat % 2 ^ 24 ∧ s.regsBut t [0x11060] ∧ t.mem = s.mem ∧ t.cmds = s.cmds ∧ t.wlatch = s.wlatch) ∧
  (∀ (s : State) (path : Path) (off : Offset) (v : W32) (r : RegAt), regAt off.toNat = some r → r.row.wide = true → off.toNat = r.off →
    off.toNat % 4 = 0 → ¬ (r.loc.page = .dv ∧ 0x40 ≤ r.off - r.loc.base) → s.takes path off.toNat = true →
    ∃ t, exec (.regLowHalfWrite path off v) s = .next t ∧ t.wlatch = tblIns s.wlatch (pathCode path * 2 ^ 26 + r.off) v.toNat ∧
      t = { s with wlatch := t.wlatch, pins := t.pins } ∧ t.pins = { s.pins with rerr := t.pins.rerr }) ∧
  (∀ (s : State) (path : Path) (hi : W64) (lo : W32), s.takes path 0x20134 = true →
    tblFind s.wlatch (pathCode path * 2 ^ 26 + 0x20130) = some lo.toNat → ∃ t, exec (.registerWrite path 0x20134 false hi) s = .next t ∧
      t.rf F.rraData = lo.toNat + hi.toNat % 2 ^ 32 * 2 ^ 32 ∧ s.regsBut t [0x20130] ∧
      tblFind t.wlatch (pathCode path * 2 ^ 26 + 0x20130) = none ∧ t.mem = s.mem ∧ t.cmds = s.cmds) ∧
  (∀ (s : State) (path : Path) (hi : W64), s.takes path 0x20134 = true →
    tblFind s.wlatch (pathCode path * 2 ^ 26 + 0x20130) = none → ∃ t, exec (.registerWrite path 0x20134 false hi) s = .next t ∧
      t.rf F.rraData = s.rf F.rraData % 2 ^ 32 + hi.toNat % 2 ^ 32 * 2 ^ 32 ∧ s.regsBut t [0x20130] ∧ t.mem = s.mem) ∧
  (∀ (s : State) (off : Offset) (r : RegAt), s.hostOk = true → regAt off.toNat = some r → r.row.wide = true → off.toNat = r.off →
    off.toNat % 4 = 0 → ∃ t, exec (.regLowHalfRead .host off) s = .next t ∧ t.pins.rdata = s.regRead r % 2 ^ 32 ∧ t.pins.rerr = false ∧
      tblFind t.rlatch r.off = some (s.regRead r / 2 ^ 32) ∧ t.regs = s.regs ∧ t.mem = s.mem ∧ t.cmds = s.cmds)

/-- R6 and Table 0.2 (W1C), R633 with Table 19.2. -/
def Obligations.EventRegistersClearAndEnable : Prop :=
  (∀ (s : State) (path : Path) (off : Offset) (l : Loc) (v : W32), locate off.toNat = some l → off.toNat = l.base + 0x18 →
    l.page ≠ .grzSlots → l.page ≠ .db → s.takes path off.toNat = true → ∃ t, exec (.evRawClear path off v) s = .next t ∧
      (∀ i < 32, bit (t.rf (F.evRaw l.base)) i = (bit (s.rf (F.evRaw l.base)) i && !bit v.toNat i)) ∧ s.regsBut t [off.toNat] ∧
      t.pins.irqQ = s.pins.irqQ ∧ t.mem = s.mem ∧ t.cmds = s.cmds) ∧
  (∀ (s : State) (path : Path) (off : Offset) (l : Loc) (v : W32), locate off.toNat = some l → off.toNat = l.base + 0x1C →
    l.page ≠ .grzSlots → l.page ≠ .db → s.takes path off.toNat = true → ∃ t, exec (.evEnWrite path off v) s = .next t ∧
      t.rf (F.evEn l.base) = v.toNat &&& evMask l.page l.idx ∧ s.regsBut t [off.toNat] ∧ t.mem = s.mem ∧ t.cmds = s.cmds ∧
      t.pins.irqQ = (if s.rb (F.evMsgEn l.base) = true ∧ s.evPend l.base = 0 ∧
        s.rf (F.evRaw l.base) &&& (v.toNat &&& evMask l.page l.idx) ≠ 0
        then s.pins.irqQ ++ [⟨some (s.rf (F.evVector l.base)), s.rf (F.vecAddr (s.rf (F.evVector l.base))),
          s.rf (F.vecData (s.rf (F.evVector l.base))), none⟩] else s.pins.irqQ))

/-- R632 with Tables 19.2 and 19.4, R643, R201. -/
def Obligations.PageControlsQuiesceResetAndEnable : Prop :=
  (∀ (s : State) (path : Path) (n : CoreId), s.canonical → s.takes path (pgTsq n.val + 0x0C) = true → s.rb (F.pgQuiesceReq (pgTsq n.val)) = false →
    ∃ t, exec (.pageQuiesceReq path (BitVec.ofNat 26 (pgTsq n.val + 0x0C))) s = .next t ∧ t.rb (F.pgQuiesceReq (pgTsq n.val)) = true ∧
      bit (t.core n.val).quiesceReq 0 = true) ∧
  (∀ (s : State) (path : Path) (n : CoreId), s.canonical → s.takes path (pgTsq n.val + 0x0C) = true → s.rb (F.pgQuiesceReq (pgTsq n.val)) = true →
    ∃ t, exec (.pageQuiesceRelease path (BitVec.ofNat 26 (pgTsq n.val + 0x0C))) s = .next t ∧
      t.rb (F.pgQuiesceReq (pgTsq n.val)) = false ∧ t.rb (F.pgQuiesced (pgTsq n.val)) = false ∧
      bit (t.core n.val).quiesceReq 0 = (s.rb (F.pgQuiesceReq 0) || s.rb (F.pgQuiesceReq (pgCl (n.val / 4))))) ∧
  (∀ (s : State) (path : Path) (n : CoreId), s.takes path (pgMxe n.val + 0x0C) = true → s.domOn (coreDom n.val) = true →
    (s.cluster (n.val / 4)).resetting = false → s.rf F.holdState ≠ 1 →
    ∃ t, exec (.pageResetReq path (BitVec.ofNat 26 (pgMxe n.val + 0x0C))) s = .next t ∧ t.rb (F.pgResetReq (pgMxe n.val)) = true ∧
      bit (t.core n.val).engRst 0 = true ∧ t.rb (F.shdEngRst n.val) = true ∧ (t.core n.val).tile = (s.core n.val).tile ∧
      (∀ m, m ≠ n.val → t.core m = s.core m) ∧ t.mem = s.mem ∧ t.cmds = s.cmds) ∧
  (∀ (s : State) (path : Path), s.takes path 0x1100C = true → s.pageLocked ⟨.kvd, 0, 0x11000⟩ = false →
    ∃ t, exec (.pageEnable path 0x1100C) s = .next t ∧ t.rb (F.pgEn pgKvd) = true ∧ s.regsBut t [0x1100C] ∧ t.mem = s.mem ∧
      t.cmds = s.cmds) ∧
  (∀ (s : State) (path : Path), s.takes path 0x1200C = true → s.pageLocked ⟨.mp, 0, 0x12000⟩ = false →
    ∃ t, exec (.pageEnable path 0x1200C) s = .next t ∧ t.rb (F.pgEn (pgMp 0)) = true ∧ s.regsBut t [0x1200C] ∧ t.mem = s.mem ∧
      t.cmds = s.cmds)

/-- R113, R193, R608, R415, R410, R378, R209. -/
def Obligations.BlockRegistersTakeTheirWrites : Prop :=
  (∀ (s : State) (path : Path) (n : CoreId) (v : W32), s.takes path (pgMxe n.val + 0x44) = true →
    s.pageLocked ⟨.mxe, n.val, pgMxe n.val⟩ = false → ∃ t, exec (.mxeRampWrite path n v) s = .next t ∧
      t.rf (F.rampBeats n.val) = max 256 (v.toNat % 2 ^ 16 / 16 * 16) ∧
      (v.toNat % 2 ^ 16 < 256 → bit (t.rf (F.evRaw (pgMxe n.val))) 1 = true) ∧
      s.regsBut t [pgMxe n.val + 0x44, pgMxe n.val + 0x18] ∧ t.mem = s.mem ∧ t.cmds = s.cmds) ∧
  (∀ (s : State) (path : Path) (n : CoreId) (v : W32), s.takes path (pgAte n.val + 0x40) = true →
    s.pageLocked ⟨.ate, n.val, pgAte n.val⟩ = false → ∃ t, exec (.ateCtrlWrite path n v) s = .next t ∧
      t.rb (F.skipEn n.val) = bit v.toNat 0 ∧
      t.rf (F.kvAhead n.val) = (if bits v.toNat 1 4 = 0 ∨ 8 < bits v.toNat 1 4 then 8 else bits v.toNat 1 4) ∧
      (bits v.toNat 1 4 = 0 ∨ 8 < bits v.toNat 1 4 → bit (t.rf (F.evRaw (pgAte n.val))) 1 = true) ∧
      s.regsBut t [pgAte n.val + 0x40, pgAte n.val + 0x18] ∧ t.mem = s.mem ∧ t.cmds = s.cmds) ∧
  (∀ (s : State) (path : Path) (v : W32), s.takes path 0x40 = true → s.pageLocked ⟨.glb, 0, 0⟩ = false →
    ∃ t, exec (.epochNsWrite path v) s = .next t ∧
      t.rf F.epochNs = (if 100 ≤ v.toNat % 2 ^ 14 ∧ v.toNat % 2 ^ 14 ≤ 10000 then v.toNat % 2 ^ 14 else s.rf F.epochNs) ∧
      s.regsBut t [0x40] ∧ t.mem = s.mem ∧ t.cmds = s.cmds) ∧
  (∀ (s : State) (path : Path) (v : W32), s.takes path 0x10048 = true → s.pageLocked ⟨.xlt, 0, 0x10000⟩ = false →
    s.rb F.fltEn = false → bit v.toNat 31 = true → ∃ t, exec (.xltFltCfgWrite path v) s = .next t ∧ t.rb F.fltEn = true ∧
      t.rf F.fltLog2 = max 4 (v.toNat % 16) ∧ t.rf F.fltHead = 0 ∧ t.rf F.fltTail = 0 ∧ t.rb F.fltFull = false ∧ t.mem = s.mem ∧
      t.cmds = s.cmds) ∧
  (∀ (s : State) (path : Path) (v : W32), s.takes path 0x10050 = true → ∃ t, exec (.xltFltHeadWrite path v) s = .next t ∧
      t.rf F.fltHead = (if cqHeadOk (s.rf F.fltTail) (s.rf F.fltHead) (s.rf F.fltLog2) v.toNat then v.toNat else s.rf F.fltHead) ∧
      s.regsBut t [0x10050, 0x10054] ∧ t.mem = s.mem ∧ t.cmds = s.cmds) ∧
  (∀ (s : State) (path : Path) (v : W32), s.takes path 0x4058 = true → s.pageLocked ⟨.grz, 0, 0x4000⟩ = false →
    ∃ t, exec (.grzCsbInletWrite path v) s = .next t ∧ t.mem = s.mem ∧ t.cmds = s.cmds ∧ t.csbMap = s.csbMap ∧
      ∀ c < 4, t.rf (F.csbInlet c) =
        (if s.csbMap.any (fun e => decide (64 * c + (64 - max (min 64 (bits v.toNat (8 * c) 7)) (s.rf (F.csbInlet c))) ≤ e.1) &&
              decide (e.1 < 64 * c + (64 - min (min 64 (bits v.toNat (8 * c) 7)) (s.rf (F.csbInlet c)))))
            || decide (64 - min 64 (bits v.toNat (8 * c) 7) <
              ((List.range 64).map (fun p => if s.rb (F.pValid p) then s.rf (F.pMinCsb p) else 0)).sum)
         then s.rf (F.csbInlet c) else min 64 (bits v.toNat (8 * c) 7))) ∧
  (∀ (s : State) (path : Path), s.takes path 0x11068 = true → s.rf F.provCount = 0 →
    ∃ t, exec (.kvdProvGo path) s = .next t ∧ bit (t.rf (F.evRaw pgKvd)) 0 = true ∧ t.kvd = s.kvd ∧ t.mem = s.mem) ∧
  (∀ (s : State) (path : Path), s.takes path 0x11068 = true → s.rf F.provCount ≠ 0 → s.rf F.provFirst = 0 →
    ∃ t, exec (.kvdProvGo path) s = .next t ∧ t.rf (F.errInfo pgKvd) % 16 = 3 ∧ t.kvd = s.kvd ∧ t.mem = s.mem)

/-- R519, R520, R521. -/
def Obligations.EmulatedPagesQueueAndAnswer : Prop :=
  (∀ (s : State) (n : Fin 4) (o : BitVec 12) (wide : Bool), s.hostOk = true → 0x40 ≤ o.toNat → o.toNat % 4 = 0 →
    (regAt (emuOff n o)).isSome = true →
    exec (.emulatedRead n o wide) s = .next { s with emu := s.emu ++ [(0, emuOff n o, b2n wide, false)] }) ∧
  (∀ (s : State) (path : Path) (n : Fin 4) (o : BitVec 12) (v : W32) (r : RegAt), s.takes path (emuOff n o) = true → 0x40 ≤ o.toNat →
    o.toNat % 4 = 0 → regAt (emuOff n o) = some r → ∃ t, exec (.emulatedWrite path n o v) s = .next t ∧ t.mem = s.mem ∧ t.cmds = s.cmds ∧
      ((s.emu.filter (fun e => e.2.2.2 && e.2.1 / 0x1000 * 0x1000 == pgDv n.val)).length < 16 →
        t.emu = s.emu ++ [(pathCode path, r.off, v.toNat, true)] ∧ t.regs = s.regs) ∧
      (16 ≤ (s.emu.filter (fun e => e.2.2.2 && e.2.1 / 0x1000 * 0x1000 == pgDv n.val)).length →
        t.emu = s.emu ∧ t.rb (F.pgEmuTimeout (pgDv n.val)) = true ∧ s.regsBut t [pgDv n.val + 0x10])) ∧
  (∀ (s : State) (n : Fin 4) (k v : Nat) (l : List (Nat × Nat × Nat × Bool)), s.rb (F.dvRunning 0) = true →
    s.emuOf n.val = (k, pgDv n.val + 0x4C, v, true) :: l → ∃ t, exec (.emulatedWriteApply n) s = .next t ∧
      t.rf (F.dvSvc n.val) = max 1 (v % 2 ^ 32) ∧ s.regsBut t [pgDv n.val + 0x4C] ∧
      t.emu = s.emu.erase (k, pgDv n.val + 0x4C, v, true) ∧ t.mem = s.mem ∧ t.cmds = s.cmds) ∧
  (∀ (s : State) (n : Fin 4) (off : Nat) (r : RegAt) (l : List (Nat × Nat × Nat × Bool)), s.rb (F.dvRunning 0) = true → off % 4 = 0 →
    s.emuOf n.val = (0, off, 0, false) :: l → regAt off = some r → r.row.wide = false → ∃ t, exec (.emuReadAnswer n) s = .next t ∧
      t.pins.rdata = s.regRead r ∧ t.pins.rerr = false ∧ t.rb (F.pgEmuTimeout (pgDv n.val)) = false ∧
      t.emu = s.emu.erase (0, off, 0, false) ∧ s.regsBut t [pgDv n.val + 0x10] ∧ t.mem = s.mem ∧ t.cmds = s.cmds) ∧
  (∀ (s : State) (n : Fin 4) (off w : Nat), (s.emuOf n.val).find? (fun e => !e.2.2.2) = some (0, off, w, false) →
    ∃ t, exec (.emuReadTimeout n) s = .next t ∧ t.pins.rdata = (if w = 1 then 2 ^ 64 - 1 else 2 ^ 32 - 1) ∧ t.pins.rerr = false ∧
      t.rb (F.pgEmuTimeout (pgDv n.val)) = true ∧ t.emu = s.emu.erase (0, off, w, false) ∧ s.regsBut t [pgDv n.val + 0x10] ∧
      t.mem = s.mem ∧ t.cmds = s.cmds)

/-- R334, with the text after it for the present TAIL; R273; Table 9.8. -/
def Obligations.DoorbellsMoveTailWithinItsRange : Prop :=
  (∀ (s : State) (q : QNum) (v : W32), s.hostOk = true → s.ctxLive (q.val / 8) = true → s.driver q.val = none →
    v.toNat ≠ s.rf (F.qTail q.val) → ∃ t, exec (.doorbell q v) s = .next t ∧ t.mem = s.mem ∧ t.cmds = s.cmds ∧ t.queues = s.queues ∧
      t.pins = s.pins ∧
      ((0 < (v - BitVec.ofNat 32 (s.rf (F.qHead q.val))).toNat ∧
        (v - BitVec.ofNat 32 (s.rf (F.qHead q.val))).toNat ≤ 2 ^ s.rf (F.qLog2 q.val) ∧
        (v - BitVec.ofNat 32 (s.rf (F.qTail q.val))).toNat < 2 ^ 31) →
        t.rf (F.qTail q.val) = v.toNat ∧ s.regsBut t [(F.qTail q.val).off]) ∧
      (¬ (0 < (v - BitVec.ofNat 32 (s.rf (F.qHead q.val))).toNat ∧
        (v - BitVec.ofNat 32 (s.rf (F.qHead q.val))).toNat ≤ 2 ^ s.rf (F.qLog2 q.val) ∧
        (v - BitVec.ofNat 32 (s.rf (F.qTail q.val))).toNat < 2 ^ 31) →
        t.rb (F.qDbReject q.val) = true ∧ s.regsBut t [(F.qDbReject q.val).off])) ∧
  (∀ (s : State) (q : QNum), s.hostOk = true → s.ctxLive (q.val / 8) = true → s.driver q.val = none →
    ∃ t, exec (.doorbell q (BitVec.ofNat 32 (s.rf (F.qTail q.val)))) s = .next t ∧ s.regsBut t [] ∧ t = { s with regs := t.regs }) ∧
  (∀ (s : State) (q : QNum) (v : W32) (n : Nat), s.hostOk = true → s.ctxLive (q.val / 8) = true → s.driver q.val = some n →
    n < 32 → ∃ t, exec (.doorbell q v) s = .next t ∧ bit (t.rf (F.evRaw (pgSi n))) 3 = true ∧ s.regsBut t [pgSi n + 0x18] ∧
      t.mem = s.mem ∧ t.cmds = s.cmds) ∧
  (∀ (s : State) (q : QNum) (v : W32), s.ctxLive (q.val / 8) = false → exec (.doorbell q v) s = .next s)

/-- R344. -/
def Obligations.CqHeadTakesAValueInRange : Prop :=
  (∀ (s : State) (q : QNum) (v : W32), s.hostOk = true → s.rf (F.ctxState (q.val / 8)) ≠ 0 → ∃ t, exec (.cqHeadWrite q v) s = .next t ∧
      s.regsBut t [(F.cqHead q.val).off, (F.qDbReject q.val).off] ∧ t = { s with regs := t.regs } ∧
      ((BitVec.ofNat 32 (s.rf (F.cqTail q.val)) - v).toNat ≤ 2 ^ s.rf (F.cqLog2 q.val) ∧
        (v - BitVec.ofNat 32 (s.rf (F.cqHead q.val))).toNat < 2 ^ 31 →
        t.rf (F.cqHead q.val) = v.toNat ∧ t.rb (F.qDbReject q.val) = s.rb (F.qDbReject q.val)) ∧
      (¬ ((BitVec.ofNat 32 (s.rf (F.cqTail q.val)) - v).toNat ≤ 2 ^ s.rf (F.cqLog2 q.val) ∧
        (v - BitVec.ofNat 32 (s.rf (F.cqHead q.val))).toNat < 2 ^ 31) →
        t.rf (F.cqHead q.val) = s.rf (F.cqHead q.val) ∧ t.rb (F.qDbReject q.val) = true)) ∧
  (∀ (s : State) (q : QNum) (v : W32), s.rf (F.ctxState (q.val / 8)) = 0 → exec (.cqHeadWrite q v) s = .next s)

/-- R349. -/
def Obligations.RestartResumesAHaltedQueue : Prop :=
  (∀ (s : State) (q : QNum), s.rb (F.qHalted q.val) = true → exec (.slotFetch q) s = .next s) ∧
  (∀ (s : State) (q : QNum), s.hostOk = true → s.rb (F.qHalted q.val) = true → s.rb (F.qEn q.val) = true → s.cmdsOf q.val = [] →
    (∃ t, exec (.qRestart q) s = .next t ∧ t.rb (F.qHalted q.val) = false ∧ t.rf (F.qReason q.val) = 0 ∧
      t.rb (F.qDbReject q.val) = false ∧ t.rf (F.qRefetches q.val) = 0 ∧ (t.queue q.val).fetch = s.rf (F.qHead q.val) ∧
      s.regsBut t [(F.qHalted q.val).off] ∧ (∀ r, r ≠ q.val → t.queue r = s.queue r) ∧ t.mem = s.mem ∧ t.cmds = s.cmds) ∧
    (∃ t, exec (.qRestartDiscard q) s = .next t ∧ t.rb (F.qHalted q.val) = false ∧ t.rf (F.qReason q.val) = 0 ∧
      t.rb (F.qDbReject q.val) = false ∧ t.rf (F.qTail q.val) = s.rf (F.qHead q.val) ∧
      (t.queue q.val).fetch = s.rf (F.qHead q.val) ∧ s.regsBut t [(F.qHalted q.val).off, (F.qTail q.val).off] ∧
      (∀ r, r ≠ q.val → t.queue r = s.queue r) ∧ t.mem = s.mem ∧ t.cmds = s.cmds)) ∧
  (∀ (s : State) (q : QNum), (s.rb (F.qHalted q.val) = false ∨ s.rb (F.qEn q.val) = false ∨ s.cmdsOf q.val ≠ []) →
    exec (.qRestart q) s = .next s ∧ exec (.qRestartDiscard q) s = .next s)

/-- R336, R337, R338, R341 and Table 9.7. -/
def Obligations.FetchTakesSlotsInOrder : Prop :=
  (∀ (s : State) (q : QNum), s.mayFetch q.val = true → (s.queue q.val).refetch = none → (s.queue q.val).fetch ≠ s.rf (F.qTail q.val) →
    s.cqRoom q.val = false → ∃ t, exec (.slotFetch q) s = .next t ∧ t.rb (F.qCqFull q.val) = true ∧
      s.regsBut t [(F.qCqFull q.val).off] ∧ t = { s with regs := t.regs }) ∧
  (∀ (s : State) (q : QNum), s.mayFetch q.val = true → (s.queue q.val).refetch = none →
    (s.queue q.val).fetch ≠ s.rf (F.qTail q.val) → s.cqRoom q.val = true → ∃ t, exec (.slotFetch q) s = .next t ∧
      ∀ b u, (s.wb (F.qCqFull q.val) false).readSlot q.val (s.queue q.val).fetch = (.ok b, u) →
      (slotSeq b ≠ (s.queue q.val).fetch % 2 ^ 16 → (t.queue q.val).refetch = some ((s.queue q.val).fetch, u.now, []) ∧ t.cmds = u.cmds ∧
        t.regs = u.regs ∧ t.mem = u.mem) ∧
      (slotSeq b = (s.queue q.val).fetch % 2 ^ 16 → fldOf b 4 1 = 1 → fldOf b 0 1 = 0 →
        t.cmds = u.cmds ++ [newCmd q.val (s.queue q.val).fetch b 1] ∧
        (t.queue q.val).fetch = ((s.queue q.val).fetch + 1) % 2 ^ 32 ∧ (t.queue q.val).reserved = (u.queue q.val).reserved + 1 ∧
        (t.queue q.val).refetch = none ∧ t.mem = u.mem)) ∧
  (∀ (s : State) (q : QNum) (p e : Nat) (b0 : List Byte), (s.queue q.val).refetch = some (p, e, b0) → s.ctxLive (q.val / 8) = true →
    s.now - e < s.rf (F.qRefetches q.val) / 2 + 1 → exec (.seqRefetch q) s = .next s) ∧
  (∀ (s : State) (q : QNum) (p e : Nat) (b0 : List Byte), (s.queue q.val).refetch = some (p, e, b0) → s.ctxLive (q.val / 8) = true →
    s.rf (F.qRefetches q.val) / 2 + 1 ≤ s.now - e → ∃ t, exec (.seqRefetch q) s = .next t ∧
      (∀ b u, s.readSlot q.val p = (.ok b, u) → slotSeq b = p % 2 ^ 16 → b0 = [] → (s.queue q.val).fetch = p → fldOf b 4 1 = 1 →
        fldOf b 0 1 = 0 → t.cmds = u.cmds ++ [newCmd q.val p b 1] ∧ (t.queue q.val).refetch = none ∧
        (t.queue q.val).fetch = (p + 1) % 2 ^ 32 ∧ t.mem = u.mem) ∧
      ∀ b u, s.readSlot q.val p = (.ok b, u) → slotSeq b ≠ p % 2 ^ 16 → t.mem = u.mem ∧
      (s.rf (F.qRefetches q.val) < 7 → t.rf (F.qRefetches q.val) = s.rf (F.qRefetches q.val) + 1 ∧ t.cmds = u.cmds ∧
        t.queues = u.queues) ∧
      (7 ≤ s.rf (F.qRefetches q.val) → t.rf (F.qRefetches q.val) = 8 ∧ (t.queue q.val).refetch = none ∧
        t.cmds = u.cmds ++ [staleCmd q.val (s.queue q.val).fetch] ∧ (staleCmd q.val (s.queue q.val).fetch).status = 0x40 ∧
        (staleCmd q.val (s.queue q.val).fetch).opFF = true ∧ (staleCmd q.val (s.queue q.val).fetch).len = 0))

/-- R302, R304, R305, R301, R284, R299, R310, R311, R330, R342, R348, R545. -/
def Obligations.CommandsStartWaitRunAndComplete : Prop :=
  (∀ (s : State) (q : QNum) (earlier : List Cmd) (c : Cmd), splitStart [] (s.cmdsOf q.val) = some (earlier, c) →
    mayStart earlier c = true → s.ctxLive (q.val / 8) = true → c.flag 1 6 = false → c.flag 1 5 = false →
    ∃ t, exec (.commandStart q) s = .next t ∧ t.cmds = (s.setCmd { c with phase := 4, reached := true }).cmds ∧ t.mem = s.mem ∧
      (c.flag 1 0 = false → t.regs = s.regs)) ∧
  (∀ (s : State) (q : QNum) (c : Cmd), (s.cmdsOf q.val).find? (fun d => d.phase == 2) = some c →
    ∃ t, exec (.signalReread q) s = .next t ∧
      (s.sigHeld c = true → t.cmds = (s.setCmd { c with phase := 2 }).cmds ∧ t.mem = s.mem ∧ t.regs = s.regs) ∧
      (∀ u b, s.sigHeld c = false → s.ctxRead c.addrCtx (sigAddr (c.fld 24 8)) 8 = (.ok b, u) → t.mem = u.mem ∧
        t.cmds = (u.setCmd (if c.fld 32 8 ≤ leNat b then { c with phase := 4, reached := true } else { c with phase := 2 })).cmds) ∧
      (∀ u e, s.sigHeld c = false → s.ctxRead c.addrCtx (sigAddr (c.fld 24 8)) 8 = (.error e, u) → t.mem = u.mem ∧
        t.cmds = (u.setCmd { c with phase := 5, status := e, failed := true, acted := true }).cmds)) ∧
  (∀ (s : State) (q : QNum) (c : Cmd), s.phase4 q.val 0x00 = some c → ∃ t, exec (.nop q) s = .next t ∧ s.completes t c 0x00 ∧
    s.onlyCmds t) ∧
  (∀ (s : State) (q : QNum) (c : Cmd), s.phase4 q.val 0x01 = some c → ∃ t, exec (.tiles q) s = .next t ∧ s.onlyCmds t ∧
    (c.fld 56 4 = 0 → s.completes t c 0x01) ∧
    (c.fld 56 4 ≠ 0 → t.cmds = (s.setCmd { c with tiles := c.fld 56 4, acted := true }).cmds)) ∧
  (∀ (s : State) (q : QNum) (c : Cmd) (l : List Cmd), s.cmdsOf q.val = c :: l → c.phase = 5 → c.faulted = none →
    s.rf (F.ctxState (q.val / 8)) ≠ 3 → s.hasTile c.qn c.slot = false → ¬ (c.flag 1 1 = true ∧ s.writesOut c = true) →
    (s.pointersBreak c = true → ∃ t, exec (.commandComplete q) s = .next t ∧ t.afterReset 3) ∧
    (s.pointersBreak c = false → ∃ t, exec (.commandComplete q) s = .next t ∧
      (∀ u, s.putRecord c = (0, u) → ¬ (c.flag 1 6 = true ∧ c.status < 0x10) →
        t.rf (F.cqTail q.val) = (u.rf (F.cqTail q.val) + 1) % 2 ^ 32 ∧
        t.rf (F.qHead q.val) = (if (c.status = 0x40 ∧ c.opFF = true) ∨ (u.queue c.qn).headStop = true then u.rf (F.qHead q.val)
          else (c.slot + c.len) % 2 ^ 32) ∧
        s.cmd c.qn c.slot = some c ∧ t.cmd c.qn c.slot = none ∧
        (c.haltsQueue = true → t.rb (F.qHalted q.val) = true ∧ t.rf (F.qReason q.val) = c.status % 256) ∧
        (c.haltsQueue = false → t.rb (F.qHalted q.val) = u.rb (F.qHalted q.val)) ∧ t.mem = u.mem) ∧
      (∀ u e, e ≠ 0 → s.putRecord c = (e, u) → t.rb (F.qHalted q.val) = true ∧ t.rf (F.qReason q.val) = e % 256 ∧
        (t.queue q.val).headStop = true ∧ t.cmd c.qn c.slot = none ∧ t.rf (F.qHead q.val) = u.rf (F.qHead q.val) ∧
        t.rf (F.cqTail q.val) = u.rf (F.cqTail q.val) ∧ t.mem = u.mem)))

/-- R418, R420, R423, R429, R435, R545, R596, R624, R648, R658. What a read response carries is the model's choice (assumption 6): the row brings the line. -/
def Obligations.MemoryResponsesEndTheirTransactions : Prop :=
  (∀ (s : State) (p : PortId) (id : Fin 2048) (data : Line) (ok poison : Bool) (x : Txn), s.txn p.val id.val = some x → x.op = 0 →
    x.slot < 64 → s.rf (F.slInflight x.slot) ≠ 0 → s.waiting = [] → (∀ e ∈ x.before ++ x.after, lineOf e.hpa = lineOf x.hpa ∧ e.hpa % 64 + e.bytes.length ≤ 64) →
    ∃ u b, exec (.mpReadResponse p id data ok poison) s = .next (match x.client with
        | .tile n a => u.giveLine n a x.hpa b (x.readLine data ok poison).2
        | .runOn n a => u.deliverAhead n a x.hpa b (x.readLine data ok poison).2
        | .runDrop n => u.inc (F.wduDrop n) 1
        | _ => u) ∧
      u.txn p.val id.val = none ∧ u.rf (F.mpReads p.val) = s.rf (F.mpReads p.val) - 1 ∧
      (ok = true → (∀ i < 64, u.byteAt (x.hpa / 64 * 64 + i) =
          ((x.before ++ x.after).foldl (laySent (x.hpa / 64 * 64)) (natLe 64 data.toNat, poison)).1.getD i 0) ∧
        u.linePoison x.hpa = ((x.before ++ x.after).foldl (laySent (x.hpa / 64 * 64)) (natLe 64 data.toNat, poison)).2) ∧
      (ok = true → s.memBut u (x.hpa / 64 * 64) 64) ∧ (ok = false → s.memSame u) ∧
      ((ok = false ∨ poison = true) → bit (u.rf (F.evRaw (pgMp p.val))) 0 = true ∧
        u.rf (F.mpFabErr p.val) = (s.rf (F.mpFabErr p.val) + 1) % 2 ^ 64) ∧
      ((x.readLine data ok poison).2 = true → u.rf (F.errCode (pgMp p.val)) = 0x30) ∧
      (ok = true → poison = false → u.rf (F.mpFabErr p.val) = s.rf (F.mpFabErr p.val)) ∧ u.cmds = s.cmds ∧ u.cores = s.cores) ∧
  (∀ (s : State) (p : PortId) (id : Fin 2048) (ok : Bool) (x : Txn), s.txn p.val id.val = some x → x.op = 1 → x.slot < 64 →
    s.rf (F.slInflight x.slot) ≠ 0 → s.waiting = [] → ∃ u, exec (.mpWriteResponse p id ok) s = .next (match x.client with
        | .command q k => if ok then u else u.modCmd q k Cmd.writeFails
        | cl => u.wrote cl) ∧ u.txn p.val id.val = none ∧
      u.rf (F.mpWrites p.val) = s.rf (F.mpWrites p.val) - 1 ∧ u.mem = s.mem ∧ u.cores = s.cores ∧ u.cmds = s.cmds ∧
      (ok = true → u.rf (F.mpFabErr p.val) = s.rf (F.mpFabErr p.val)) ∧
      (ok = false → bit (u.rf (F.evRaw (pgMp p.val))) 0 = true ∧ u.rf (F.errCode (pgMp p.val)) = 0x30 ∧
        u.rf (F.mpFabErr p.val) = (s.rf (F.mpFabErr p.val) + 1) % 2 ^ 64)) ∧
  (∀ (s : State) (p : PortId) (id : Fin 2048) (ok : Bool) (x : Txn) (q k : Nat), s.txn p.val id.val = some x → x.op = 2 → x.slot < 64 →
    s.rf (F.slInflight x.slot) ≠ 0 → s.waiting = [] → x.client = .signal q k →
    (ok = true → s.linePoison x.hpa = false → ∃ u, exec (.mpAtomicResponse p id true) s = .next u.rereadAll ∧
      u.txn p.val id.val = none ∧ leNat (u.rawBytes x.hpa 8) = (leNat (s.rawBytes x.hpa 8) + x.addend) % 2 ^ 64 ∧
      s.memBut u x.hpa 8 ∧ u.cmds = s.cmds) ∧
    ((ok = false ∨ s.linePoison x.hpa = true) → ∃ t, exec (.mpAtomicResponse p id ok) s = .next t ∧ t.mem = s.mem ∧
      t.rb (F.qHalted q) = true ∧ t.rf (F.qReason q) = 0x30 ∧ bit (t.rf (F.evRaw (pgMp p.val))) 4 = true ∧
      t.rf (F.mpFabErr p.val) = (s.rf (F.mpFabErr p.val) + 1) % 2 ^ 64)) ∧
  (∀ (s : State) (p : PortId) (id : Fin 2048) (data : Line) (ok poison : Bool) (x : Txn), s.txn p.val id.val = some x →
    (x.op ≠ 0 → exec (.mpReadResponse p id data ok poison) s = .next s) ∧ (x.op ≠ 1 → exec (.mpWriteResponse p id ok) s = .next s) ∧
    (x.op ≠ 2 → exec (.mpAtomicResponse p id ok) s = .next s) ∧
    (s.rf (F.slInflight x.slot) = 0 → (x.op = 0 → ∃ t, exec (.mpReadResponse p id data ok poison) s = .next t ∧ t.afterReset 3) ∧
      (x.op = 1 → ∃ t, exec (.mpWriteResponse p id ok) s = .next t ∧ t.afterReset 3) ∧
      (x.op = 2 → ∃ t, exec (.mpAtomicResponse p id ok) s = .next t ∧ t.afterReset 3))) ∧
  (∀ (s : State) (p : PortId) (id : Fin 2048) (data : Line) (ok poison : Bool), s.txn p.val id.val = none → s.waiting = [] →
    ∃ t, exec (.mpReadResponse p id data ok poison) s = .next t ∧ exec (.mpWriteResponse p id ok) s = .next t ∧
      exec (.mpAtomicResponse p id ok) s = .next t ∧ t = { s with boot := { s.boot with discard := t.boot.discard } } ∧
      (p.val, id.val) ∉ t.boot.discard)

/-- R434, R433, R134, R438. -/
def Obligations.PatrolScrubReportsWhatItFinds : Prop :=
  ∀ s : State, (s.rb F.scrubEn = false → ∀ w, exec (.patrolScrubVisit w) s = .next s) ∧
    (s.isReady = true → s.rb F.scrubEn = true → exec (.patrolScrubVisit .clean) s = .next s ∧
      (∃ t, exec (.patrolScrubVisit .corrected) s = .next t ∧ t.rf F.sramCe = (s.rf F.sramCe + 1) % 2 ^ 64 ∧
        bit (t.rf (F.evRaw (pgMp 0))) 2 = true ∧ s.regsBut t [F.sramCe.off, pgMp 0 + 0x18] ∧ t.mem = s.mem ∧ t.csb = s.csb) ∧
      (∀ n h l, (s.core n.val).tile = none → ∃ t, exec (.patrolScrubVisit (.cbsHalf n h l)) s = .next t ∧
        t.rb (F.cbsValid n.val h.val) = false ∧ t.rf F.sramUe = (s.rf F.sramUe + 1) % 2 ^ 64 ∧
        bit (t.rf (F.evRaw (pgMp 0))) 3 = true ∧ bit (t.rf (F.evRaw (pgWdu n.val))) 1 = true ∧
        s.regsBut t [F.sramUe.off, pgMp 0 + 0x18, pgWdu n.val + 0x18, (F.cbsReg n.val h.val).off] ∧
        t.mem = s.mem ∧ t.csb = s.csb) ∧
      (∀ c l, ∃ t, exec (.patrolScrubVisit (.csb c l)) s = .next t ∧ c.val * 2 ^ 18 + l.toNat ∈ t.csbPoison ∧ t.csb = s.csb ∧
        (∀ x ∈ s.csbPoison, x ∈ t.csbPoison) ∧ t.rf F.sramUe = (s.rf F.sramUe + 1) % 2 ^ 64 ∧ t.mem = s.mem) ∧
      (∀ b, ∃ t, exec (.patrolScrubVisit (.shared b)) s = .next t ∧ t.afterReset 2))

/-- R269, R271, R272, R601, R602 and Tables 7.8 to 7.10. A frame is written line by line (the model's choice). -/
def Obligations.InletsReceiveFrames : Prop :=
  (∀ (s : State) (n : InletId) (data : W32) (be : Fin 5) (ue full : Bool), s.siOpen n = true → (s.inlet n.val).inFrame = false →
    s.rf (F.siState n.val) = 1 → s.siQuiet = false → (s.inlet n.val).release < 2 ^ 64 →
    s.rf (F.siFrame n.val) < (s.inlet n.val).release + s.rf (F.siSlots n.val) →
    sub32 (s.rf (F.qTail (8 * s.rf (F.siCtx n.val) + s.rf (F.siQueue n.val)))) (s.rf (F.qHead (8 * s.rf (F.siCtx n.val) + s.rf (F.siQueue n.val))))
      < 2 ^ s.rf (F.qLog2 (8 * s.rf (F.siCtx n.val) + s.rf (F.siQueue n.val))) →
    be.val < s.siFrameBytes n.val → be.val ≤ s.rf (F.siSlotBytes n.val) →
    ∃ t, exec (.siFrameStart n data be false ue full) s = .next t ∧ t.rf (F.siState n.val) = 2 ∧ (t.inlet n.val).inFrame = true ∧
      (t.inlet n.val).got = (if full then 0 else be.val) ∧ (t.inlet n.val).bytes = (if full then 0 else be.val) ∧
      (t.inlet n.val).start = s.now ∧ (t.inlet n.val).units = b2n ue ∧ (t.inlet n.val).flags = (if full then 4 else 0) ∧
      (∀ m, m ≠ n.val → t.inlet m = s.inlet m) ∧ s.regsBut t [(F.siState n.val).off] ∧ t.mem = s.mem ∧ t.csb = s.csb ∧ t.cmds = s.cmds) ∧
  (∀ (s : State) (n : InletId) (data : W32) (be : Fin 5) (fe ue full : Bool), s.siOpen n = true → (s.inlet n.val).inFrame = false →
    s.rf (F.siState n.val) = 1 → s.siQuiet = true → ∃ t, exec (.siFrameStart n data be fe ue full) s = .next t ∧
      t.rf (F.siDropped n.val) = (s.rf (F.siDropped n.val) + 1) % 2 ^ 64 ∧ bit (t.rf (F.evRaw (pgSi n.val))) 1 = true ∧
      t.inlets = s.inlets ∧ s.regsBut t [(F.siDropped n.val).off, pgSi n.val + 0x18] ∧ t.mem = s.mem ∧ t.cmds = s.cmds) ∧
  (∀ (s : State) (n : InletId) (data : W32) (be : Fin 5) (ue : Bool), s.siOpen n = true → (s.inlet n.val).inFrame = true →
    bit (s.inlet n.val).flags 2 = false → (s.inlet n.val).got + be.val < s.siFrameBytes n.val →
    (s.inlet n.val).bytes + be.val ≤ s.rf (F.siSlotBytes n.val) →
    (∃ t, exec (.siDataWord n data be ue false) s = .next t ∧
      ((s.inlet n.val).bytes % 64 + be.val < 64 → (t.inlet n.val).got = (s.inlet n.val).got + be.val ∧
        (t.inlet n.val).bytes = (s.inlet n.val).bytes + be.val ∧ (t.inlet n.val).units = (s.inlet n.val).units + b2n ue ∧
        (t.inlet n.val).last = s.now ∧ (t.inlet n.val).inFrame = true ∧ (t.inlet n.val).flags = (s.inlet n.val).flags ∧
        (t.inlet n.val).part.length = (s.inlet n.val).part.length + be.val ∧ (∀ m, m ≠ n.val → t.inlet m = s.inlet m) ∧
        t = { s with inlets := t.inlets }) ∧
      (64 ≤ (s.inlet n.val).bytes % 64 + be.val →
        ((t.inlet n.val).inFrame = true ∧ (t.inlet n.val).got = (s.inlet n.val).got + be.val ∧
          (t.inlet n.val).bytes = (s.inlet n.val).bytes + be.val ∧
          (t.inlet n.val).part.length = ((s.inlet n.val).bytes + be.val) % 64) ∨
        ((t.inlet n.val).inFrame = false ∧ t.rf (F.siState n.val) = 3 ∧ bit (t.rf (F.evRaw (pgSi n.val))) 0 = true))) ∧
    (∃ t, exec (.siDataWord n data be ue true) s = .next t ∧ (t.inlet n.val).got = (s.inlet n.val).got ∧
      (t.inlet n.val).bytes = (s.inlet n.val).bytes ∧ bit (t.inlet n.val).flags 2 = true ∧
      (t.inlet n.val).units = (s.inlet n.val).units + b2n ue ∧ (t.inlet n.val).inFrame = true ∧ t = { s with inlets := t.inlets })) ∧
  (∀ (s : State) (n : InletId) (data : W32) (ue : Bool), s.siOpen n = true → (s.inlet n.val).inFrame = true →
    (s.inlet n.val).part = [] → (s.inlet n.val).got < s.siFrameBytes n.val → ∃ t, exec (.siFrameEnd n data 0 ue false) s = .next t ∧
    ∀ v w u, v = (s.setInlet n.val { s.inlet n.val with last := s.now, units := (s.inlet n.val).units + b2n ue }).setInlet n.val
        { s.inlet n.val with last := s.now, units := (s.inlet n.val).units + b2n ue, flags := (s.inlet n.val).flags ||| 1 } →
      w = (if v.siPoisoned n.val then v.setInlet n.val { v.inlet n.val with flags := (v.inlet n.val).flags ||| 16 } else v) →
      w.frameStored n.val u → t.rf (F.siFrame n.val) = (u.rf (F.siFrame n.val) + 1) % 2 ^ 64 ∧
      t.rf (F.siState n.val) = 1 ∧ (t.inlet n.val).inFrame = false ∧ bit (t.rf (F.evRaw (pgSi n.val))) 2 = true ∧ t.mem = u.mem) ∧
  (∀ (s : State) (n : InletId), ∃ t, exec (.siRstNAssert n) s = .next t ∧ Clk.si n ∈ t.pins.resync ∧ (t.inlet n.val).inFrame = false ∧
      t.rb (F.siEn n.val) = s.rb (F.siEn n.val) ∧ t.mem = s.mem ∧ t.cmds = s.cmds ∧
      ((s.inlet n.val).inFrame = true → t.rf (F.siDropped n.val) = (s.rf (F.siDropped n.val) + 1) % 2 ^ 64 ∧
        bit (t.rf (F.evRaw (pgSi n.val))) 1 = true ∧ t.rf (F.siState n.val) = 1) ∧
      ((s.inlet n.val).inFrame = false → t.regs = s.regs ∧ t.inlets = s.inlets)) ∧
  (∀ (s : State) (n : InletId), s.isReady = true → (s.inlet n.val).inFrame = true → s.rf (F.siTimeout n.val) ≠ 0 →
    s.rf (F.siTimeout n.val) ≤ s.now - (s.inlet n.val).last → (s.inlet n.val).part = [] → (s.inlet n.val).got < s.siFrameBytes n.val →
    ∃ t, exec (.siFrameTimeout n) s = .next t ∧
    ∀ v w u, v = s.setInlet n.val { s.inlet n.val with flags := (s.inlet n.val).flags ||| 9 ||| 1 } →
      w = (if v.siPoisoned n.val then v.setInlet n.val { v.inlet n.val with flags := (v.inlet n.val).flags ||| 16 } else v) →
      w.frameStored n.val u → t.rf (F.siFrame n.val) = (u.rf (F.siFrame n.val) + 1) % 2 ^ 64 ∧
      t.rf (F.siState n.val) = 1 ∧ (t.inlet n.val).inFrame = false ∧ bit (t.rf (F.evRaw (pgSi n.val))) 2 = true ∧ t.mem = u.mem) ∧
  (∀ (s : State) (n : InletId) (data : W32) (be : Fin 5) (fe ue full : Bool), s.siOpen n = false →
    exec (.siFrameStart n data be fe ue full) s = .next s ∧ exec (.siDataWord n data be ue full) s = .next s ∧
    exec (.siFrameEnd n data be ue full) s = .next s)

/-- R273, R274, R276 and Table 7.10. -/
def Obligations.InletsEnableAndDisable : Prop :=
  (∀ (s : State) (path : Path) (n : InletId) (f : BitVec 4), s.takes path (pgSi n.val + 0x40) = true →
    s.pageLocked ⟨.si, n.val, pgSi n.val⟩ = false → s.rb (F.siEn n.val) = false → ∃ t, exec (.siEnable path n f) s = .next t ∧
      t.rf (F.siFormat n.val) = f.toNat ∧ t.mem = s.mem ∧ t.cmds = s.cmds ∧
      ((s.wf (F.siFormat n.val) f.toNat).siRefuse n.val = 0 → t.rb (F.siEn n.val) = true ∧ t.rf (F.siFrame n.val) = 0 ∧
        t.rf (F.siDropped n.val) = 0 ∧ t.rf (F.siState n.val) = 1 ∧ t.inlet n.val = Inlet.init ∧
        t.driver (8 * s.rf (F.siCtx n.val) + s.rf (F.siQueue n.val)) = some n.val) ∧
      ((s.wf (F.siFormat n.val) f.toNat).siRefuse n.val ≠ 0 → t.rb (F.siEn n.val) = false ∧
        bit (t.rf (F.evRaw (pgSi n.val))) 4 = true ∧ t.rf (F.errCode (pgSi n.val)) = (s.wf (F.siFormat n.val) f.toNat).siRefuse n.val)) ∧
  (∀ (s : State) (n : Nat), n < 32 → (s.rf (F.siW n) = 0 → s.siRefuse n = 0x10) ∧
    (s.rf (F.siW n) ≠ 0 → s.rf (F.siH n) ≠ 0 → s.rf (F.siCh n) ≠ 0 → s.rf (F.siSlots n) ≠ 0 → s.rf (F.siSlotBytes n) ≠ 0 →
      (s.rf (F.siQueue n) = 0 ∨ 9 ≤ s.rf (F.siFormat n)) → s.siRefuse n = 0x11)) ∧
  (∀ (s : State) (path : Path) (n : InletId) (f : BitVec 4), s.takes path (pgSi n.val + 0x40) = true →
    s.pageLocked ⟨.si, n.val, pgSi n.val⟩ = false → s.rb (F.siEn n.val) = true → ∃ t, exec (.siDisable path n f) s = .next t ∧
      t.rb (F.siEn n.val) = false ∧ t.rf (F.siState n.val) = 0 ∧ t.inlet n.val = Inlet.init ∧ t.mem = s.mem ∧ t.cmds = s.cmds ∧
      t.rf (F.siDropped n.val) = (s.rf (F.siDropped n.val) + (if (s.inlet n.val).inFrame then 1 else 0)) % 2 ^ 64 ∧
      t.driver (8 * s.rf (F.siCtx n.val) + s.rf (F.siQueue n.val)) ≠ some n.val)

/-- R604, R464, R495, R455, R457, R467, R466, R485. -/
def Obligations.PortsTrainKeyAndFail : Prop :=
  (∀ (s : State) (p : LinkId) (ready : Bool), s.isReady = true → s.flock.due = none → s.rf (F.lkState p.val) = 3 →
    ∃ t, exec (.lkPhyLoss p ready) s = .next t ∧ t.rf (F.lkState p.val) = 6 ∧ bit (t.rf (F.evRaw (pgLk p.val))) 0 = true ∧
      (t.link p.val).held = [] ∧ (t.link p.val).waitQ = [] ∧ bit t.pins.phyReady p.val = ready ∧ t.mem = s.mem ∧ t.cmds = s.cmds) ∧
  (∀ (s : State) (p : LinkId), s.isReady = true → s.flock.due = none → s.rf (F.lkState p.val) = 1 →
    ∃ t, exec (.lkPhyLoss p false) s = .next t ∧ t.rf (F.lkState p.val) = 0 ∧ (t.link p.val).held = [] ∧ (t.link p.val).waitQ = [] ∧
      t.mem = s.mem ∧ t.cmds = s.cmds) ∧
  (∀ (s : State) (p : LinkId), s.isReady = true → s.rf (F.lkState p.val) = 1 → p.val % 2 = 1 → ∃ t, exec (.lkTrainDone p) s = .next t ∧
      t.rf (F.lkState p.val) = 2 ∧ (t.link p.val).cred = [64, 64, 32, 32, 16, 16] ∧ (t.link p.val).txSeq = 0 ∧
      (t.link p.val).rxSeq = 0 ∧ (∀ m, m ≠ p.val → t.link m = s.link m) ∧ t.mem = s.mem ∧ t.cmds = s.cmds) ∧
  (∀ (s : State) (p : LinkId), s.isReady = true → s.rf (F.lkState p.val) = 1 → ∃ t, exec (.lkTrainDone p) s = .next t ∧
      t.rf (F.lkState p.val) = 2 ∧ (t.link p.val).rxSeq = 0 ∧ t.mem = s.mem ∧ t.cmds = s.cmds) ∧
  (∀ (s : State) (p pp : LinkId) (peer : W64) (lo hi : BitVec 256) (sec : BitVec 384), s.isReady = true → s.shepUp = true →
    s.rf (F.lkState p.val) = 2 → s.flock.due = none → ∃ t, exec (.lkSessionKeyed p true peer pp lo hi sec) s = .next t ∧
      t.rf (F.lkState p.val) = 3 ∧ t.rf (F.lkPeerPort p.val) = pp.val ∧ (t.link p.val).peer = peer.toNat ∧
      (t.link p.val).key = some (linkKey lo.toNat hi.toNat sec.toNat) ∧ (t.link p.val).lastRx = s.now ∧ t.mem = s.mem ∧ t.cmds = s.cmds) ∧
  (∀ (s : State) (p : LinkId), s.flock.due = none → (s.link p.val).held ≠ [] → 8 ≤ s.now - (s.link p.val).ackStart →
    s.rf (F.lkState p.val) = 3 → ∃ t, exec (.linkAckTimeout p) s = .next t ∧ t.mem = s.mem ∧ t.cmds = s.cmds ∧
      ((∀ e ∈ (s.link p.val).held, e.resent < 4) → t.rf (F.lkState p.val) = 3 ∧
        (t.link p.val).held = (s.link p.val).held.map (fun e => { e with resent := e.resent + 1 }) ∧
        (t.link p.val).sent = ((s.link p.val).held.map (fun e => e.flit)).reverse ++ (s.link p.val).sent ∧
        t.rf (F.lkRetries p.val) = (s.rf (F.lkRetries p.val) + (s.link p.val).held.length) % 2 ^ 64) ∧
      ((∃ e ∈ (s.link p.val).held, 4 ≤ e.resent) → t.rf (F.lkState p.val) = 6 ∧ (t.link p.val).held = [])) ∧
  (∀ (s : State) (p : LinkId), s.flock.due = none → s.rf (F.lkState p.val) = 3 → 64 ≤ s.now - (s.link p.val).lastRx →
    ∃ t, exec (.linkSilenceExpiry p) s = .next t ∧ t.rf (F.lkState p.val) = 6 ∧ bit (t.rf (F.evRaw (pgLk p.val))) 0 = true ∧
      (t.link p.val).held = [] ∧ (t.link p.val).waitQ = [] ∧ t.mem = s.mem ∧ t.cmds = s.cmds) ∧
  (∀ (s : State) (p : LinkId), s.flock.due = none → s.rf (F.lkState p.val) = 1 → s.rf F.flkTrain ≤ s.now - (s.link p.val).start →
    ∃ t, exec (.flkTrainExpiry p) s = .next t ∧ t.rf (F.lkState p.val) = 0 ∧ t.links = s.links ∧ t.mem = s.mem ∧ t.cmds = s.cmds) ∧
  (∀ (s : State) (p : LinkId), s.flock.due = none → s.rf (F.lkState p.val) = 2 → s.rf F.flkSilent ≤ s.now - (s.link p.val).start →
    ∃ t, exec (.flkSilentExpiry p) s = .next t ∧ t.rf (F.lkState p.val) = 4 ∧ (t.link p.val).held = [] ∧ (t.link p.val).waitQ = [] ∧
      t.mem = s.mem ∧ t.cmds = s.cmds) ∧
  (∀ (s : State) (path : Path) (p : LinkId), s.takes path (pgLk p.val + 0x40) = true → s.pageLocked ⟨.lk, p.val, pgLk p.val⟩ = false →
    s.rb (F.lkEn p.val) = false → ∃ t, exec (.lkEnable path p) s = .next t ∧ t.rb (F.lkEn p.val) = true ∧
      t.rf (F.lkState p.val) = b2n (bit s.pins.phyReady p.val) ∧ (t.link p.val).key = none ∧ (t.link p.val).held = [] ∧
      t.mem = s.mem ∧ t.cmds = s.cmds) ∧
  (∀ (s : State) (path : Path) (p : LinkId), s.takes path (pgLk p.val + 0x40) = true → s.pageLocked ⟨.lk, p.val, pgLk p.val⟩ = false →
    s.flock.due = none → s.rb (F.lkEn p.val) = true → ∃ t, exec (.lkDisable path p) s = .next t ∧ t.rb (F.lkEn p.val) = false ∧
      t.rf (F.lkState p.val) = 0 ∧ (t.link p.val).held = [] ∧ (t.link p.val).waitQ = [] ∧ t.mem = s.mem ∧ t.cmds = s.cmds)

/-- R449, R450, R453, R455, R456, R457, R462, R495. -/
def Obligations.FlitsPassTheHopChecks : Prop :=
  (∀ (s : State) (p : LinkId) (nonce : BitVec 96) (f : Flit), s.portQuiet p → (hdrOf f.toNat).typ < 14 →
    s.rf (F.lkState p.val) ≠ 3 → s.rf (F.lkState p.val) ≠ 2 → exec (flitInstr (hdrOf f.toNat).typ p nonce f) s = .next s) ∧
  (∀ (s : State) (p : LinkId) (nonce : BitVec 96) (f : Flit), s.portQuiet p → (hdrOf f.toNat).typ < 2 →
    s.rf (F.lkState p.val) = 3 →
    (openFlit (s.flitKey p.val 127) (natL 12 nonce.toNat) f = none →
      exec (flitInstr (hdrOf f.toNat).typ p nonce f) s = .next s) ∧
    ((openFlit (s.flitKey p.val 127) (natL 12 nonce.toNat) f).isSome = true → (hdrOf f.toNat).typ = 0 →
      ∃ t, exec (.idleFlit p nonce f) s = .next t ∧ t.rf (F.lkRx p.val) = (s.rf (F.lkRx p.val) + 1) % 2 ^ 64 ∧
        (t.link p.val).lastRx = s.now ∧ (t.link p.val).rxSeq = (s.link p.val).rxSeq ∧ t.mem = s.mem ∧ t.cmds = s.cmds) ∧
    ((openFlit (s.flitKey p.val 127) (natL 12 nonce.toNat) f).isSome = true → (hdrOf f.toNat).typ = 1 →
      (∀ e ∈ (s.link p.val).held, e.resent < 4) → ∃ t, exec (.nak p nonce f) s = .next t ∧
        t.rf (F.lkRx p.val) = (s.rf (F.lkRx p.val) + 1) % 2 ^ 64 ∧
        (t.link p.val).held = ((s.accepted p.val f).link p.val).held.map (fun e => { e with resent := e.resent + 1 }) ∧
        t.rf (F.lkRetries p.val) = (s.rf (F.lkRetries p.val) + ((s.accepted p.val f).link p.val).held.length) % 2 ^ 64 ∧
        t.mem = s.mem ∧ t.cmds = s.cmds)) ∧
  (∀ (s : State) (p : LinkId) (nonce : BitVec 96) (f : Flit), s.portQuiet p → s.rf (F.lkState p.val) = 3 →
    1 < (hdrOf f.toNat).typ → (hdrOf f.toNat).typ < 14 → s.takesKey p.val f = true →
    (flitLseq f.toNat ≠ (s.link p.val).rxSeq → exec (flitInstr (hdrOf f.toNat).typ p nonce f) s = .next s) ∧
    (flitLseq f.toNat = (s.link p.val).rxSeq → (hdrOf f.toNat).key < 64 →
      (s.rf (F.slState (hdrOf f.toNat).key) ≠ 1 ∨ s.rf (F.slGen (hdrOf f.toNat).key) ≠ (hdrOf f.toNat).gen) →
      ∃ t, exec (flitInstr (hdrOf f.toNat).typ p nonce f) s = .next t ∧
        t.rf (F.lkStale p.val) = (s.rf (F.lkStale p.val) + 1) % 2 ^ 64 ∧ bit (t.rf (F.evRaw (pgLk p.val))) 1 = true ∧
        (t.link p.val).rxSeq = ((s.link p.val).rxSeq + 1) % 256 ∧ t.rf (F.lkRx p.val) = s.rf (F.lkRx p.val) ∧ t.mem = s.mem ∧
        t.cmds = s.cmds) ∧
    (flitLseq f.toNat = (s.link p.val).rxSeq → (hdrOf f.toNat).key = 127 →
      openFlit (s.flitKey p.val 127) (natL 12 nonce.toNat) f = none →
      ∃ t, exec (flitInstr (hdrOf f.toNat).typ p nonce f) s = .next t ∧ (t.link p.val).rxSeq = (s.link p.val).rxSeq ∧
        t.rf (F.lkRx p.val) = s.rf (F.lkRx p.val) ∧ t.mem = s.mem ∧ t.cmds = s.cmds ∧
        ((s.link p.val).rejects < 4 → (t.link p.val).rejects = (s.link p.val).rejects + 1 ∧
          t.rf (F.lkTx p.val) = (s.rf (F.lkTx p.val) + 1) % 2 ^ 64 ∧ t.rf (F.lkState p.val) = 3) ∧
        (4 ≤ (s.link p.val).rejects → t.rf (F.lkState p.val) = 6 ∧ (t.link p.val).held = [])) ∧
    (∀ pay, s.hopTakes p nonce f pay → ((hdrOf f.toNat).flock ≠ s.rf F.flockId ∧ 4 < (hdrOf f.toNat).typ ∨
        typeClass (hdrOf f.toNat).typ ≠ some (hdrOf f.toNat).cls) →
      ∃ t, exec (flitInstr (hdrOf f.toNat).typ p nonce f) s = .next t ∧
        t.rf (F.lkDrops p.val) = (s.rf (F.lkDrops p.val) + 1) % 2 ^ 64 ∧ t.rf (F.lkRx p.val) = (s.rf (F.lkRx p.val) + 1) % 2 ^ 64 ∧
        (t.link p.val).rxSeq = ((s.link p.val).rxSeq + 1) % 256 ∧ t.flock = s.flock ∧ t.mem = s.mem ∧ t.cmds = s.cmds))

/-- R463, R464, R465, R481, R482. Where the parts of a MGMT payload stand is the model's choice (assumption 61). -/
def Obligations.ManagementFlitsBuildTheFlock : Prop :=
  (∀ (s : State) (p : LinkId) (nonce : BitVec 96) (f : Flit) (pay : List Byte), s.portQuiet p → s.rf (F.lkState p.val) = 3 →
    s.hopTakes p nonce f pay → (hdrOf f.toNat).typ = 2 → (hdrOf f.toNat).cls = 2 →
    ∃ t, exec (.discover p nonce f) s = .next t ∧ t.mem = s.mem ∧ t.cmds = s.cmds ∧
      (s.rb F.flkBw = true → t.rf (F.lkState p.val) = 5) ∧
      (s.rb F.flkBw = false → fldOf pay 0 1 ≤ fldOf pay 1 1 + 1 → s.settled = false →
        t.flock = { s.flock with due := some (p.val, discBody (fldOf pay 0 1) (fldOf pay 1 1 + 1) (fldOf pay 2 4)
          (setBits (fldOf pay 6 4) (2 * fldOf pay 1 1) 2 p.val)) })) ∧
  (∀ (s : State) (p : LinkId) (nonce : BitVec 96) (f : Flit) (pay : List Byte), s.portQuiet p → s.rf (F.lkState p.val) = 3 →
    s.hopTakes p nonce f pay → (hdrOf f.toNat).typ = 3 → (hdrOf f.toNat).cls = 2 → s.rb F.flkBw = true → s.rf F.flkState = 2 →
    s.flock.rejoin = none → fldOf pay 1 1 = 0 → bit (fldOf pay 10 1) 0 = false →
    s.flock.asked.filter (fun a => !(a.1.length == fldOf pay 0 1 && portsNat a.1 == fldOf pay 2 4)) ≠ [] →
    ∃ t, exec (.discoverReply p nonce f) s = .next t ∧ t.flock.nodes = s.flock.nodes ++ [nodeOf pay] ∧
      t.flock.asked = s.flock.asked.filter (fun a => !(a.1.length == fldOf pay 0 1 && portsNat a.1 == fldOf pay 2 4)) ∧
      t.mem = s.mem ∧ t.cmds = s.cmds) ∧
  (∀ (s : State) (p : LinkId) (nonce : BitVec 96) (f : Flit) (pay : List Byte), s.portQuiet p → s.rf (F.lkState p.val) = 3 →
    s.hopTakes p nonce f pay → (hdrOf f.toNat).typ = 4 → (hdrOf f.toNat).cls = 2 → s.rb F.flkBw = false → s.flock.joined = false →
    ∃ t, exec (.routeFlit p nonce f) s = .next t ∧ t.rf F.flockId = (hdrOf f.toNat).flock ∧ t.rf F.flkMember = fldOf pay 0 1 % 64 ∧
      t.rf F.flkX = fldOf pay 1 1 % 8 ∧ t.rf F.flkY = fldOf pay 2 1 % 8 ∧ t.rf F.flkCount = fldOf pay 5 1 % 128 ∧
      t.rf F.flkState = fldOf pay 6 1 % 8 ∧ t.flock.joined = true ∧ t.mem = s.mem ∧ t.cmds = s.cmds) ∧
  (∀ (s : State) (p : LinkId) (nonce : BitVec 96) (f : Flit) (pay : List Byte), s.flitEnds p nonce f pay → (hdrOf f.toNat).typ = 5 →
    s.rb F.flkBw = true → ∃ t, exec (.heartbeatFlit p nonce f) s = .next t ∧ t.mem = s.mem ∧ t.cmds = s.cmds ∧
      (s.flock.lost.contains (hdrOf f.toNat).src = false → tblFind t.flock.hb (hdrOf f.toNat).src = some s.now) ∧
      (s.flock.lost.contains (hdrOf f.toNat).src = true → t.flock = s.flock)) ∧
  (∀ (s : State) (p : LinkId) (nonce : BitVec 96) (f : Flit) (pay : List Byte), s.flitEnds p nonce f pay → (hdrOf f.toNat).typ = 6 →
    ∃ t, exec (.hbAck p nonce f) s = .next t ∧ t.flock = { s.flock with hbAck := s.now, bwLost := false } ∧ t.mem = s.mem ∧
      t.cmds = s.cmds)

/-- R468 to R471, R476, R477, R479, R495, R498, R505. Where the parts of the payloads stand is the model's choice (assumption 61). -/
def Obligations.RequestFlitsActAtTheirEnd : Prop :=
  (∀ (s : State) (p : LinkId) (nonce : BitVec 96) (f : Flit) (pay : List Byte), s.flitEnds p nonce f pay → (hdrOf f.toNat).typ = 7 →
    fldOf pay 0 4 % 2 ^ 26 = 0x11060 → bit (fldOf pay 4 1) 0 = true → bit (fldOf pay 4 1) 1 = false →
    ∃ t, exec (.regReq p nonce f) s = .next t ∧ t.rf F.provFirst = fldOf pay 5 8 % 2 ^ 24 ∧ t.mem = s.mem ∧ t.cmds = s.cmds) ∧
  (∀ (s : State) (p : LinkId) (nonce : BitVec 96) (f : Flit) (pay : List Byte) (e : Nat), s.flitEnds p nonce f pay →
    (hdrOf f.toNat).typ = 8 → s.flock.rra = some (e, (hdrOf f.toNat).opId) → ∃ t, exec (.regRsp p nonce f) s = .next t ∧
      t.rb F.rraBusy = false ∧ t.rf F.rraStatus = 0 ∧ t.flock.rra = none ∧ bit (t.rf (F.evRaw (pgLk 0))) 5 = true ∧
      t.rf F.rraData = (if s.rb F.rraWrite then s.rf F.rraData else fldOf pay 0 8) ∧ t.mem = s.mem ∧ t.cmds = s.cmds) ∧
  (∀ (s : State) (p : LinkId) (nonce : BitVec 96) (f : Flit) (pay : List Byte), s.flitEnds p nonce f pay → (hdrOf f.toNat).typ = 9 →
    bit (fldOf pay 2 1) 0 = false → s.ctxLive (fldOf pay 0 2 % 2 ^ 15 / 8) = true → s.driver (fldOf pay 0 2 % 2 ^ 15) = none →
    tailOk (s.rf (F.qHead (fldOf pay 0 2 % 2 ^ 15))) (s.rf (F.qTail (fldOf pay 0 2 % 2 ^ 15))) (s.rf (F.qLog2 (fldOf pay 0 2 % 2 ^ 15)))
      (fldOf pay 3 4) = true →
    ∃ t, exec (.doorbellFlit p nonce f) s = .next t ∧ t.rf (F.qTail (fldOf pay 0 2 % 2 ^ 15)) = fldOf pay 3 4 ∧ t.mem = s.mem ∧
      t.cmds = s.cmds) ∧
  (∀ (s : State) (p : LinkId) (nonce : BitVec 96) (f : Flit) (pay : List Byte), s.flitEnds p nonce f pay → (hdrOf f.toNat).typ = 10 →
    s.rb F.flkBw = true → ∃ t, exec (.irqFlit p nonce f) s = .next t ∧ bit (t.rf F.fwdIrqPend) (hdrOf f.toNat).src = true ∧
      t.pins.irqQ = s.pins.irqQ ++ [⟨some (s.rf F.fwdVector), s.rf (F.vecAddr (s.rf F.fwdVector)), s.rf (F.vecData (s.rf F.fwdVector)), none⟩] ∧
      t.mem = s.mem ∧ t.cmds = s.cmds) ∧
  (∀ (s : State) (p : LinkId) (nonce : BitVec 96) (f : Flit) (pay : List Byte) (g : Group), s.flitEnds p nonce f pay →
    (hdrOf f.toNat).typ = 11 → s.group (hdrOf f.toNat).group (hdrOf f.toNat).ctx = some g → (hdrOf f.toNat).opId = g.counter % 1024 →
    ∃ t, exec (.collReady p nonce f) s = .next t ∧
      t.group (hdrOf f.toNat).group (hdrOf f.toNat).ctx = some { g with early := g.early ++ [(hdrOf f.toNat).src] } ∧ t.mem = s.mem ∧
      t.cmds = s.cmds) ∧
  (∀ (s : State) (p : LinkId) (nonce : BitVec 96) (f : Flit) (pay : List Byte) (g : Group) (k : Coll) (c : Cmd),
    State.flitEnds { s with flock := { s.flock with colls := [] } } p nonce f pay → (hdrOf f.toNat).typ = 12 → s.flock.colls = [k] →
    s.group (hdrOf f.toNat).group (hdrOf f.toNat).ctx = some g → k.group = g.idx → k.ctx = g.ctx → (hdrOf f.toNat).opId = k.opId →
    s.cmd k.qn k.slot = some c → c.coOp = 1 → k.ready = false → k.sent = 0 → s.collCut c g = false → k.got < allSteps 1 g.ranks.length * c.coFlits →
    ((s.tookFlit p.val f).collWrite c g.ranks.length (recvChunk c.coRev 1 g.ranks.length g.rank (k.got / c.coFlits) * c.coBytes +
      224 * (k.got % c.coFlits)) pay).1 = 0 →
    ∃ t u, exec (.collData p nonce f) s = .next t ∧ (s.tookFlit p.val f).collWrite c g.ranks.length
      (recvChunk c.coRev 1 g.ranks.length g.rank (k.got / c.coFlits) * c.coBytes + 224 * (k.got % c.coFlits)) pay = (0, u) ∧ t.mem = u.mem ∧
      (∃ k', t.flock.colls = [k'] ∧ k'.got = k.got + 1 ∧ k'.last = u.now ∧ k'.sent = 0) ∧ t.cmds = u.cmds) ∧
  (∀ (s : State) (p : LinkId) (nonce : BitVec 96) (f : Flit) (pay : List Byte), s.flitEnds p nonce f pay → (hdrOf f.toNat).typ = 13 →
    s.shepUp = true →
    (fldOf pay 0 1 = 1 → s.linkSlotFree (fldOf pay 1 1 % 64) = true → ∃ t, exec (.groupLinkKeyFlit p nonce f) s = .next t ∧
      t.rf (F.slState (fldOf pay 1 1 % 64)) = 1 ∧ t.rf (F.slKind (fldOf pay 1 1 % 64)) = 2 ∧
      t.rf (F.slGen (fldOf pay 1 1 % 64)) = fldOf pay 2 2 ∧
      tblGet 0 t.keys (fldOf pay 1 1 % 64) = groupKey (fldOf pay 1 1 % 64) (fldOf pay 2 2) (bNat (toNats ((pay.drop 4).take 32))) ∧
      t.mem = s.mem ∧ t.cmds = s.cmds) ∧
    (fldOf pay 0 1 = 4 → s.rf (F.slState (fldOf pay 1 1 % 64)) = 1 → s.rf (F.slKind (fldOf pay 1 1 % 64)) = 2 →
      s.rf (F.slGen (fldOf pay 1 1 % 64)) = fldOf pay 2 2 → ∃ t, exec (.groupLinkKeyFlit p nonce f) s = .next t ∧
        t.rf (F.slState (fldOf pay 1 1 % 64)) = 2 ∧ t.keys = s.keys ∧ t.mem = s.mem ∧ t.cmds = s.cmds)) ∧
  (∀ (s : State) (p : LinkId) (nonce : BitVec 96) (f : Flit) (pay : List Byte), s.portQuiet p → s.rf (F.lkState p.val) = 2 →
    s.hopTakes p nonce f pay → (hdrOf f.toNat).typ = 13 → (hdrOf f.toNat).cls = 2 → s.shepUp = true →
    ∃ t, exec (.spdmFlit p nonce f) s = .next t ∧ t.rf (F.lkState p.val) = 2 ∧
      (t.link p.val).rxSeq = ((s.link p.val).rxSeq + 1) % 256 ∧ t.rf (F.lkRx p.val) = (s.rf (F.lkRx p.val) + 1) % 2 ^ 64 ∧
      t.mem = s.mem ∧ t.cmds = s.cmds)

/-- R464, R481, R482, R470. -/
def Obligations.FlockTimersMarkTheLost : Prop :=
  (∀ s : State, s.isReady = true → s.rb F.flkBw = true → s.rf F.flkState = 1 → s.settled = true → s.rb (F.dvRunning 0) = true →
    ∃ t, exec .flockDiscovery s = .next t ∧ t.flock.nodes = [s.ownNode] ∧ 2 ≤ t.rf F.flkState ∧ t.mem = s.mem ∧ t.cmds = s.cmds) ∧
  (∀ s : State, s.isReady = true → s.flock.joined = true → s.rb F.flkBw = false → s.rb (F.dvRunning 0) = true →
    s.rf F.hbPeriod ≤ s.now - s.flock.hbSent → ∃ t, exec .heartbeatPeriod s = .next t ∧ t.flock = { s.flock with hbSent := s.now } ∧
      t.mem = s.mem ∧ t.cmds = s.cmds ∧ ∀ p < 4, s.routeTo 0 = p → s.rf (F.lkState p) = 3 → (s.link p).waitQ = [] →
        (s.link p).held.length < 64 → 0 < (s.link p).cred.getD 4 0 → 0 < (s.link p).cred.getD 5 0 →
        (t.link p).held.length = (s.link p).held.length + 1 ∧ t.rf (F.lkTx p) = (s.rf (F.lkTx p) + 1) % 2 ^ 64) ∧
  (∀ (s : State) (m : Fin 64) (e : Nat), tblFind s.flock.hb m.val = some e → s.rb F.flkBw = true → s.rb (F.dvRunning 0) = true →
    s.flock.lost.contains m.val = false → s.rf F.hbLoss ≤ s.now - e → ∃ t, exec (.memberLost m) s = .next t ∧
      bit (t.rf F.flkLost) m.val = true ∧ bit (t.rf F.flkMembers) m.val = false ∧ t.flock.lost.contains m.val = true ∧
      (∀ k < 64, k ≠ m.val → bit (t.rf F.flkLost) k = bit (s.rf F.flkLost) k ∧ bit (t.rf F.flkMembers) k = bit (s.rf F.flkMembers) k) ∧
      bit (t.rf (F.evRaw (pgLk 0))) 3 = true ∧ s.regsBut t [F.flkLost.off, F.flkMembers.off, pgLk 0 + 0x18] ∧ t.mem = s.mem ∧
      t.cmds = s.cmds) ∧
  (∀ s : State, s.isReady = true → s.flock.joined = true → s.rb F.flkBw = false → s.flock.bwLost = false →
    s.rf F.hbLoss ≤ s.now - s.flock.hbAck → ∃ t, exec .bellwetherLost s = .next t ∧ bit (t.rf (F.evRaw (pgLk 0))) 4 = true ∧
      t.flock = { s.flock with bwLost := true } ∧ s.regsBut t [pgLk 0 + 0x18] ∧ t.mem = s.mem ∧ t.cmds = s.cmds) ∧
  (∀ s : State, s.flock.bwLost = true → exec .bellwetherLost s = .next s) ∧
  (∀ (s : State) (e k : Nat), s.flock.rra = some (e, k) → s.rf F.rraTimeout ≤ s.now - e → ∃ t, exec .rraTimeout s = .next t ∧
      t.rb F.rraBusy = false ∧ t.rf F.rraStatus = 0x61 ∧ t.flock = { s.flock with rra := none } ∧
      bit (t.rf (F.evRaw (pgLk 0))) 5 = true ∧ t.rf F.rraData = (if s.rb F.rraWrite then s.rf F.rraData else 2 ^ 64 - 1) ∧
      t.mem = s.mem ∧ t.cmds = s.cmds)

/-- R469, R470, R471, R483, R484. -/
def Obligations.RemoteAccessAndForwardedDoorbells : Prop :=
  (∀ (s : State) (path : Path) (tmo : BitVec 16), s.takes path 0x20138 = true → s.rb F.rraBusy = false → s.routeTo (s.rf F.rraMember) = 7 →
    ∃ t, exec (.flkRraGo path tmo) s = .next t ∧ t.rb F.rraBusy = false ∧ t.rf F.rraStatus = 0x61 ∧ t.rf F.rraTimeout = tmo.toNat ∧
      bit (t.rf (F.evRaw (pgLk 0))) 5 = true ∧ t.flock.rra = none ∧ t.mem = s.mem ∧ t.cmds = s.cmds) ∧
  (∀ (s : State) (path : Path) (tmo : BitVec 16), s.takes path 0x20138 = true → s.rb F.rraBusy = false →
    s.routeTo (s.rf F.rraMember) < 4 → ∃ t, exec (.flkRraGo path tmo) s = .next t ∧ t.rb F.rraBusy = true ∧ t.rf F.rraTimeout = tmo.toNat ∧
      t.flock = { s.flock with rra := some (s.now, (s.flock.rraTag + 1) % 1024), rraTag := (s.flock.rraTag + 1) % 1024 } ∧
      t.mem = s.mem ∧ t.cmds = s.cmds) ∧
  (∀ (s : State) (path : Path) (tmo : BitVec 16), s.takes path 0x20138 = true → s.rb F.rraBusy = true →
    ∃ t, exec (.flkRraGo path tmo) s = .next t ∧ t.rf F.rraTimeout = tmo.toNat ∧ t.rb F.rraBusy = true ∧
      t.rf F.rraStatus = s.rf F.rraStatus ∧ t.flock = s.flock ∧ s.regsBut t [0x20138] ∧ t.mem = s.mem ∧ t.cmds = s.cmds) ∧
  (∀ (s : State) (path : Path) (hi lo : W32), s.takes path 0x20144 = true →
    tblFind s.wlatch (pathCode path * 2 ^ 26 + 0x20140) = some lo.toNat → s.routeTo (bits hi.toNat 16 6) = 4 → bit hi.toNat 15 = false →
    s.ctxLive (bits hi.toNat 0 15 / 8) = true → s.driver (bits hi.toNat 0 15) = none →
    tailOk (s.rf (F.qHead (bits hi.toNat 0 15))) (s.rf (F.qTail (bits hi.toNat 0 15))) (s.rf (F.qLog2 (bits hi.toNat 0 15))) lo.toNat = true →
    ∃ t, exec (.fwdDb path hi) s = .next t ∧ t.rf (F.qTail (bits hi.toNat 0 15)) = lo.toNat ∧
      s.regsBut t [(F.qTail (bits hi.toNat 0 15)).off] ∧ t.mem = s.mem ∧ t.cmds = s.cmds) ∧
  (∀ (s : State) (path : Path) (m : Fin 64), s.takes path 0x20150 = true → ∃ t, exec (.flkRejoin path m) s = .next t ∧ t.mem = s.mem ∧
      t.cmds = s.cmds ∧
      (s.flock.lost.contains m.val = true → (∃ q ∈ s.flock.plans, q.num = m.val) → t.flock = { s.flock with rejoin := some m.val }) ∧
      (s.flock.lost.contains m.val = false → t.flock = s.flock ∧ t.links = s.links ∧ s.regsBut t []))

/-- R472, R473, R514. -/
def Obligations.GroupsBindAndUnbind : Prop :=
  (∀ (s : State) (q : QNum) (c : Cmd), s.flockCmd q.val false = some c → s.rb (F.dvRunning 0) = true → ∃ t, exec (.flockBind q) s = .next t ∧
    (c.fbRanks = 0 → s.completes t c 0x10 ∧ s.onlyCmds t) ∧
    (c.fbRanks ≠ 0 → (s.rf (F.ctxState c.target) = 0 ∨ (∃ g ∈ s.flock.groups, g.idx = c.fbGroup) ∨ 64 < c.fbRanks ∨ c.fbRanks ≤ c.fbRank) →
      s.completes t c 0x11 ∧ s.onlyCmds t)) ∧
  (∀ (s : State) (q : QNum) (c : Cmd) (b : List Byte), s.flockCmd q.val false = some c → s.rb (F.dvRunning 0) = true →
    c.fbRanks ≠ 0 → c.fbRanks ≤ 64 → c.fbRank < c.fbRanks → c.target < 4096 → s.rf (F.ctxState c.target) ≠ 0 →
    (∀ g ∈ s.flock.groups, g.idx ≠ c.fbGroup) → (s.ctxRead c.ctx (c.fld 56 8 % 2 ^ 52) (4 * c.fbRanks)).1 = .ok b →
    ∃ t u, exec (.flockBind q) s = .next t ∧ s.ctxRead c.ctx (c.fld 56 8 % 2 ^ 52) (4 * c.fbRanks) = (.ok b, u) ∧ t.mem = u.mem ∧ t.regs = u.regs ∧
      ((rankTable b c.fbRanks)[c.fbRank]? = some (u.rf F.flkMember, c.target) → (∀ r ∈ rankTable b c.fbRanks, u.routeTo r.1 ≠ 7) →
        u.completes t c 0x00 ∧
        t.flock = { u.flock with groups := u.flock.groups ++ [⟨c.fbGroup, c.target, rankTable b c.fbRanks, c.fbRank, c.fbKey, 0, []⟩] }) ∧
      (((rankTable b c.fbRanks)[c.fbRank]? ≠ some (u.rf F.flkMember, c.target) ∨ ∃ r ∈ rankTable b c.fbRanks, u.routeTo r.1 = 7) →
        u.completes t c 0x11 ∧ t.flock = u.flock)) ∧
  (∀ (s : State) (q : QNum) (c : Cmd), s.flockCmd q.val true = some c → s.rb (F.dvRunning 0) = true → ∃ t, exec (.flockUnbind q) s = .next t ∧
    s.completes t c 0x00 ∧ (∀ g ∈ t.flock.groups, ¬ (g.idx = c.fbGroup ∧ g.ctx = c.target)) ∧
    (∀ g ∈ s.flock.groups, ¬ (g.idx = c.fbGroup ∧ g.ctx = c.target) → g ∈ t.flock.groups) ∧ t.regs = s.regs ∧ t.mem = s.mem) ∧
  (∀ (s : State) (q : QNum) (c : Cmd), s.flockCmd q.val false = some c → s.rb (F.dvRunning 0) = false → ∃ t, exec (.flockBind q) s = .next t ∧
    t.cmds = (s.waitSvc c).cmds ∧ s.onlyCmds t)

/-- R474, R475, R477, R478, R479, R480. -/
def Obligations.CollectivesStartRunAndTimeOut : Prop :=
  (∀ (s : State) (q : QNum) (c : Cmd) (i : Instr), i ∈ [Instr.collectiveReduceScatter q, .collectiveAllGather q, .collectiveAllReduce q] →
    s.phase4 q.val 0x07 = some c → (c.coOp = 0 → i = .collectiveReduceScatter q) → (c.coOp = 1 → i = .collectiveAllGather q) →
    (c.coOp = 2 → i = .collectiveAllReduce q) → ∃ t, exec i s = .next t ∧
      (s.group c.coGroup c.ctx = none → s.completes t c 0x11 ∧ s.onlyCmds t) ∧
      (c.coOp = 3 → s.completes t c 0x11 ∧ s.onlyCmds t) ∧
      (∀ g, s.group c.coGroup c.ctx = some g → c.coOp ≠ 3 → c.coTimeout = 0 → s.completes t c 0x10 ∧ s.onlyCmds t) ∧
      (∀ g, s.group c.coGroup c.ctx = some g → c.coOp ≠ 3 → c.coTimeout ≠ 0 → c.coCount = 0 → s.completes t c 0x01 ∧
        t.group c.coGroup c.ctx = some { g with counter := g.counter + 1, early := [] } ∧ t.regs = s.regs ∧ t.mem = s.mem) ∧
      (∀ g, s.group c.coGroup c.ctx = some g → c.coOp ≠ 3 → c.coTimeout ≠ 0 → c.coCount ≠ 0 → g.ranks.length = 1 →
        s.collOf g = none → s.flock.colls.length < 16 → s.rb (F.inPart c.ctx) = true →
        s.poolGrants .reads (s.rf (F.ctxPart c.ctx)) 256 (c.qn, c.slot, 0) = true →
        ∃ u st, (((s.setGroup { g with counter := g.counter + 1, early := [] }).poolLeave (c.qn, c.slot, 0)).collCopy c 1 0
          (c.coFlits + 1) 0) = (st, u) ∧ u.completes t c st ∧ t.mem = u.mem ∧
          t.group c.coGroup c.ctx = some { g with counter := g.counter + 1, early := [] })) ∧
  (∀ (s : State) (q : QNum) (c : Cmd) (i : Instr) (g : Group), (i = .collectiveReduceScatter q ∧ c.coOp = 0 ∨ i = .collectiveAllReduce q ∧ c.coOp = 2) →
    s.phase4 q.val 0x07 = some c → s.group c.coGroup c.ctx = some g → c.coTimeout ≠ 0 → c.coCount ≠ 0 → 1 < g.ranks.length →
    s.collOf g = none → s.flock.colls.length < 16 → (∀ k ∈ s.flock.colls, ¬ (k.qn = c.qn ∧ k.slot = c.slot)) → s.rb (F.inPart c.ctx) = true →
    s.poolGrants .reads (s.rf (F.ctxPart c.ctx)) 256 (c.qn, c.slot, 0) = true → s.rf (F.pReads (s.rf (F.ctxPart c.ctx))) < 2 ^ 14 - 256 →
    g.early.contains (g.at (ringNext c.coRev g.ranks.length g.rank)).1 = false →
    s.routeTo (g.at (ringNext c.coRev g.ranks.length g.rank)).1 ≠ 7 → s.routeTo (g.at (ringPrev c.coRev g.ranks.length g.rank)).1 ≠ 7 →
    ∃ t, exec i s = .next t ∧ t.flock.colls = s.flock.colls ++ [⟨c.qn, c.slot, c.ctx, s.rf (F.ctxPart c.ctx), g.idx, g.counter % 1024, false,
        0, 0, [], s.now⟩] ∧ t.rf (F.pReads (s.rf (F.ctxPart c.ctx))) = s.rf (F.pReads (s.rf (F.ctxPart c.ctx))) + 256 ∧
      t.cmds = (s.setCmd { c with acted := true }).cmds ∧ t.mem = s.mem) ∧
  (∀ (s : State) (q : QNum) (k : Coll) (c : Cmd), s.flock.colls.find? (fun x => x.qn == q.val) = some k → s.cmd k.qn k.slot = some c →
    c.coTimeout ≤ s.now - k.last → k.part < 64 → ∃ t, exec (.collectiveTimeout q) s = .next t ∧
      t.rf (F.pReads k.part) = s.rf (F.pReads k.part) - 256 ∧ t.coll k.qn k.slot = none ∧
      (∃ st, (st = 0x60 ∨ st = 0x61) ∧ t.cmds = (s.modCmd k.qn k.slot (fun d => d.done st)).cmds) ∧ t.csb = s.csb ∧
      (s.group k.group k.ctx = none → t.mem = s.mem) ∧
      ∀ g, s.group k.group k.ctx = some g → ∀ a, (∀ h bs, Wr.mem h bs ∈ s.collDst c g.ranks.length → (∀ i < 64, a % 2 ^ 52 ≠ (h / 64 * 64 + i) % 2 ^ 52) ∧
        ∀ i < bs.length, a % 2 ^ 52 ≠ (h + i) % 2 ^ 52) → t.byteAt a = s.byteAt a) ∧
  (∀ (s : State) (q : QNum) (k : Coll) (c : Cmd), s.flock.colls.find? (fun x => x.qn == q.val) = some k → s.cmd k.qn k.slot = some c →
    s.now - k.last < c.coTimeout → exec (.collectiveTimeout q) s = .next s)

/-- R504, R505 and Table 14.12. -/
def Obligations.LinkKeysInstallOnMembersOrEnd : Prop :=
  (∀ (s : State) (q : QNum) (c : Cmd), s.keyBindCmd q.val 3 = some c → ∃ t, exec (.keyBindLink q) s = .next t ∧
    (c.fld 51 1 % 64 < 2 → s.completes t c 0x11 ∧ s.onlyCmds t) ∧
    (2 ≤ c.fld 51 1 % 64 → c.kbMembers = [] → s.completes t c 0x10 ∧ s.onlyCmds t) ∧
    (2 ≤ c.fld 51 1 % 64 → c.kbMembers ≠ [] → s.rb F.flkBw = false → s.completes t c 0x11 ∧ s.onlyCmds t)) ∧
  (∀ (s : State) (q : QNum) (c : Cmd), s.keyBindCmd q.val 3 = some c → s.shepUp = true → s.rb (F.dvRunning 0) = true →
    s.rb F.flkBw = true → c.kbMembers = [s.rf F.flkMember] → s.linkSlotFree (c.fld 51 1 % 64) = true → s.routeTo (s.rf F.flkMember) ≠ 7 →
    ∃ t, exec (.keyBindLink q) s = .next t ∧ t.rf (F.slState (c.fld 51 1 % 64)) = 1 ∧ t.rf (F.slKind (c.fld 51 1 % 64)) = 2 ∧
      t.rf (F.slGen (c.fld 51 1 % 64)) = (s.rf (F.slGen (c.fld 51 1 % 64)) + 1) % 2 ^ 16 ∧ t.flock.job = none ∧ t.mem = s.mem ∧
      s.regsBut t [(F.slState (c.fld 51 1 % 64)).off] ∧ (∀ d ∈ t.cmds, d.qn = c.qn → d.slot = c.slot → d.phase = 5 ∧ d.status = 0)) ∧
  (∀ (s : State) (q : QNum) (j : KeyJob), s.flock.job = some j → j.qn = q.val → 1000 ≤ s.now - j.start →
    ∃ t, exec (.keyLinkTimeout q) s = .next t ∧ t.flock = { s.flock with job := none } ∧
      t.cmds = (s.modCmd j.qn j.slot (fun c => c.done 0x61)).cmds ∧ t.mem = s.mem ∧
      (j.kslot < 64 → j.gen < 2 ^ 16 → j.held = [s.rf F.flkMember] → s.rf (F.slState j.kslot) = 1 → s.rf (F.slKind j.kslot) = 2 →
        s.rf (F.slGen j.kslot) = j.gen → t.rf (F.slState j.kslot) = 2)) ∧
  (∀ (s : State) (q : QNum) (j : KeyJob), s.flock.job = some j → s.now - j.start < 1000 → exec (.keyLinkTimeout q) s = .next s)

/-- R490, R614, R615, R650 and Table 14.4. -/
def Obligations.TrustMessagesFollowTheTable : Prop :=
  (∀ (s : State) (k : BitVec 256), s.pins.porN = true → s.taOpen = true → s.pins.taHeld = [] → s.rf F.trust = 0 →
    ∃ t, exec (.taLock k) s = .next t ∧ t.rf F.trust = 1 ∧ t.shep.wk = k.toNat ∧ t.rf F.wkSrc = 1 ∧
      t.rf F.wkId = (s.rf F.wkId + 1) % 2 ^ 32 ∧ bit (t.rf (F.evRaw pgShm)) 0 = true ∧ t.shep.lockDigest = s.lockDigest ∧
      t.pins.taRsp = 0x101 :: s.pins.taRsp ∧ t.mem = s.mem ∧ t.cmds = s.cmds) ∧
  (∀ s : State, s.pins.porN = true → s.taOpen = true → s.pins.taHeld = [] → s.rf F.trust = 1 → ∃ t, exec .taStart s = .next t ∧
      t.rf F.trust = 2 ∧ bit (t.rf (F.evRaw pgShm)) 0 = true ∧ t.pins.taRsp = 0x102 :: s.pins.taRsp ∧ t.shep = s.shep ∧ t.mem = s.mem ∧
      t.cmds = s.cmds) ∧
  (∀ s : State, s.pins.porN = true → s.taOpen = true → s.pins.taHeld = [] → s.rf F.trust ≠ 0 → ∃ t, exec .taStop s = .next t ∧ t.mem = s.mem ∧
      (s.confCtxs = [] → t.rf F.trust = 0 ∧ t.rf F.wkSrc = 0 ∧ t.shep.stopping = false ∧ t.pins.taRsp = 0x100 :: s.pins.taRsp ∧
        bit (t.rf (F.evRaw pgShm)) 0 = true ∧ t.cmds = s.cmds) ∧
      (∀ c l, s.confCtxs = c :: l → c < 4096 → t.shep.stopping = true ∧ t.rf (F.ctxState c) = 3 ∧ t.rf F.trust = s.rf F.trust ∧
        t.pins.taRsp = s.pins.taRsp)) ∧
  (∀ (s : State) (d : BitVec 384), s.pins.porN = true → s.taOpen = true → s.pins.taHeld = [] → (s.rf F.trust = 1 ∨ s.rf F.trust = 2) →
    ∃ t, exec (.taPermit d) s = .next t ∧ t.shep.permit = some (bNat (natL 48 d.toNat)) ∧ t.rb F.permit = true ∧
      t.rf F.trust = s.rf F.trust ∧ t.pins.taRsp = (s.rf F.trust + 0x100) :: s.pins.taRsp ∧ s.regsBut t [F.permit.off] ∧ t.mem = s.mem ∧
      t.cmds = s.cmds) ∧
  (∀ s : State, s.pins.porN = true → s.taOpen = true → s.pins.taHeld = [] →
    exec .taQuery s = .next { s with pins := { s.pins with taRsp := (s.rf F.trust + 0x100) :: s.pins.taRsp } }) ∧
  (∀ (s : State) (k : BitVec 256) (d : BitVec 384) (i : Instr), s.pins.porN = true → s.taOpen = true → s.pins.taHeld = [] →
    (i = .taReservedMessage ∨ (i = .taLock k ∧ s.rf F.trust ≠ 0) ∨ (i = .taStart ∧ s.rf F.trust ≠ 1) ∨ (i = .taStop ∧ s.rf F.trust = 0) ∨
      (i = .taPermit d ∧ s.rf F.trust ≠ 1 ∧ s.rf F.trust ≠ 2)) →
    exec i s = .next { s with pins := { s.pins with taRsp := s.rf F.trust :: s.pins.taRsp } }) ∧
  (∀ (s : State) (k : BitVec 256) (d : BitVec 384) (i : Instr), s.pins.porN = true → (s.taOpen = false ∨ s.pins.taHeld ≠ []) →
    i ∈ [Instr.taLock k, .taStart, .taStop, .taPermit d, .taQuery, .taReservedMessage] →
    ∃ m, exec i s = .next { s with pins := { s.pins with taHeld := s.pins.taHeld ++ [m] } })

/-- R502. -/
def Obligations.KeySlotsDrainIntoQuarantine : Prop :=
  (∀ (s : State) (n : SlotId), s.rf (F.slState n.val) = 2 → s.rf (F.slInflight n.val) = 0 → ∃ t, exec (.keySlotDrained n) s = .next t ∧
    t.rf (F.slState n.val) = 0 ∧ t.rf (F.slQuar n.val) = 1 ∧ t.rf (F.slBound n.val) = 0 ∧ tblGet 0 t.keys n.val = 0 ∧
    t.rf (F.slGen n.val) = s.rf (F.slGen n.val) ∧ bit (t.rf (F.evRaw pgShm)) 2 = true ∧
    (∀ c < 4096, s.rb (F.keyBound c) = true → s.rf (F.keySlot c) = n.val → t.rb (F.keyBound c) = false) ∧
    (∀ c < 4096, t.rf (F.keySlot c) = s.rf (F.keySlot c) ∧ t.rf (F.keyGen c) = s.rf (F.keyGen c)) ∧
    (∀ c < 4096, s.rf (F.keySlot c) ≠ n.val → t.rb (F.keyBound c) = s.rb (F.keyBound c)) ∧ t.mem = s.mem ∧ t.cmds = s.cmds) ∧
  (∀ (s : State) (n : SlotId), (s.rf (F.slState n.val) ≠ 2 ∨ s.rf (F.slInflight n.val) ≠ 0) → exec (.keySlotDrained n) s = .next s) ∧
  (∀ (s : State) (n : SlotId), s.rf (F.slQuar n.val) = 1 → s.reached (.key n.val) 256 = true → ∃ t, exec (.keyQuarantineEnd n) s = .next t ∧
    t.rf (F.slQuar n.val) = 0 ∧ s.regsBut t [(F.slQuar n.val).off] ∧ t.rf (F.slState n.val) = s.rf (F.slState n.val) ∧ t.mem = s.mem ∧
    t.cmds = s.cmds) ∧
  (∀ (s : State) (n : SlotId), s.reached (.key n.val) 256 = false → exec (.keyQuarantineEnd n) s = .next s)

/-- R504, R318 and Tables 14.10 to 14.12. In which order the checks are made is Table 14.12's. -/
def Obligations.KeyBindBindsCreatesAndRetires : Prop :=
  (∀ (s : State) (q : QNum) (c : Cmd) (i : Instr), ((i = .keyBindBind q ∧ s.keyBindCmd q.val 0 = some c) ∨
      (i = .keyBindCreate q ∧ s.keyBindCmd q.val 1 = some c) ∨ (i = .keyBindRetire q ∧ s.keyBindCmd q.val 2 = some c)) →
    (s.kbCheck c ≠ 0 → ∃ t, exec i s = .next t ∧ s.completes t c (s.kbCheck c) ∧ s.onlyCmds t) ∧
    (s.kbCheck c = 0 → s.shepUp = false → ∃ t, exec i s = .next t ∧ t.cmds = (s.waitSvc c).cmds ∧ s.onlyCmds t)) ∧
  (∀ (s : State) (c : Cmd), c.kbOp < 3 →
    (c.kbSlot = 0 → s.kbCheck c = 0x11) ∧
    (c.kbOp = 0 → (s.rf (F.slState c.kbSlot) ≠ 1 ∨ s.rf (F.slKind c.kbSlot) = 2) → s.kbCheck c = 0x11) ∧
    (c.kbOp = 1 → (s.rf (F.slState c.kbSlot) ≠ 0 ∨ s.rb (F.slQuar c.kbSlot) = true) → s.kbCheck c = 0x11) ∧
    (c.kbOp = 2 → 2 ≤ c.kbSlot → s.rf (F.slState c.kbSlot) ≠ 1 → s.kbCheck c = 0x01)) ∧
  (∀ (s : State) (q : QNum) (c : Cmd), s.keyBindCmd q.val 0 = some c → s.kbCheck c = 0 → s.shepUp = true →
    s.rb (F.keyBound c.target) = false → ∃ t, exec (.keyBindBind q) s = .next t ∧ s.completes t c 0x00 ∧
      t.rb (F.keyBound c.target) = true ∧ t.rf (F.keySlot c.target) = c.kbSlot ∧ t.rf (F.keyGen c.target) = s.rf (F.slGen c.kbSlot) ∧
      t.rf (F.slBound c.kbSlot) = (s.rf (F.slBound c.kbSlot) + 1) % 2 ^ 13 ∧
      s.regsBut t [(F.keyBound c.target).off, (F.slBound c.kbSlot).off] ∧ t.keys = s.keys ∧ t.mem = s.mem) ∧
  (∀ (s : State) (q : QNum) (c : Cmd), s.keyBindCmd q.val 1 = some c → s.kbCheck c = 0 → s.shepUp = true →
    s.rb (F.keyBound c.target) = false → ∃ t, exec (.keyBindCreate q) s = .next t ∧ s.completes t c 0x00 ∧
      t.rf (F.slState c.kbSlot) = 1 ∧ t.rf (F.slKind c.kbSlot) = c.kbKind ∧
      t.rf (F.slGen c.kbSlot) = (s.rf (F.slGen c.kbSlot) + 1) % 2 ^ 16 ∧ t.rb (F.keyBound c.target) = true ∧
      t.rf (F.keySlot c.target) = c.kbSlot ∧ t.rf (F.keyGen c.target) = t.rf (F.slGen c.kbSlot) ∧
      s.regsBut t [(F.keyBound c.target).off, (F.slBound c.kbSlot).off] ∧ t.mem = s.mem) ∧
  (∀ (s : State) (q : QNum) (c : Cmd), s.keyBindCmd q.val 2 = some c → s.kbCheck c = 0 → s.shepUp = true →
    ∃ t, exec (.keyBindRetire q) s = .next t ∧ s.completes t c 0x00 ∧ t.rf (F.slState c.kbSlot) = 2 ∧
      s.regsBut t [(F.slState c.kbSlot).off] ∧ t.keys = s.keys ∧ t.mem = s.mem)

/-- R507, R508 and Table 14.14. -/
def Obligations.TeardownClosesAndFreesAContext : Prop :=
  (∀ (s : State) (q : QNum) (c : Cmd), s.phase4 q.val 0x85 = some c → ∃ t, exec (.teardown q) s = .next t ∧
    (c.target = 0 ∨ s.rf (F.ctxState c.target) = 0 ∨ s.rf (F.ctxState c.target) = 3 → s.completes t c 0x11 ∧ s.onlyCmds t) ∧
    (s.teardownBad c = false → t.rf (F.ctxState c.target) = 3 ∧
      (∃ k ∈ t.closing, k.ctx = c.target ∧ k.cmd = some (c.qn, c.slot) ∧ k.cause = 0) ∧
      (∀ d ∈ t.cmds, d.ctx = c.target → d.failed = false → 3 ≤ d.phase) ∧ t.mem = s.mem)) ∧
  (∀ (s : State) (x : CtxId) (k : Closing), s.closing.find? (fun y => y.ctx == x.val) = some k → s.isReady = true →
    s.drained x.val = true → s.shep.stopping = false → s.pins.taHeld = [] → ∃ t, exec (.teardownComplete x) s = .next t ∧
      t.rf (F.ctxState x.val) = 0 ∧ tblFind t.cmdKeys x.val = none ∧ (∀ y ∈ t.closing, y.ctx ≠ x.val) ∧
      t.rb (F.keyBound x.val) = false ∧
      (k.cause ≠ 0 → t.rf F.lastCtx = x.val ∧ t.rf F.lastCause = (k.cause - 1) % 4 ∧ bit (t.rf (F.evRaw 0)) 1 = true)) ∧
  (∀ (s : State) (x : CtxId), s.drained x.val = false → exec (.teardownComplete x) s = .next s)

/-- R325, R326, R327, R410, R411, R412 and Tables 9.4, 9.5, 11.11, 11.12. That reports wait while EN is 0 is DEDUCED (assumption 55). -/
def Obligations.ContextsAreSetUpAndResumed : Prop :=
  (∀ (s : State) (q : QNum) (c : Cmd), s.phase4 q.val 0x80 = some c →
    (∀ e u, s.setupCheck c = (.error e, u) → exec (.ctxSetup q) s = .next (u.setCmd (c.done e))) ∧
    (∀ bs u, s.ctxRead 0 (c.fld 56 8 % 2 ^ 52 / 32 * 32) 256 = (.ok bs, u) → (c.target = 0 ∨ u.rf (F.ctxState c.target) ≠ 0) →
      exec (.ctxSetup q) s = .next (u.setCmd (c.done 0x11)))) ∧
  (∀ (s : State) (q : QNum) (c : Cmd), s.phase4 q.val 0x80 = some c → s.shepUp = true → ∃ t, exec (.ctxSetup q) s = .next t ∧
    ∀ u w bs, s.setupCheck c = (.ok bs, u) → u.takeDrbg.2.ctxWrite 0 (c.fld 64 8 % 2 ^ 52 / 64 * 64)
      (ofNats (u.takeDrbg.2.keyRecord c.target (u.takeDrbg.1 % 2 ^ 256))) (.command c.qn c.slot) = (0, w) → w.completes t c 0x00 ∧ t.mem = w.mem ∧ t.rf (F.ctxState c.target) = 1 ∧
      tblFind t.cmdKeys c.target = some (u.takeDrbg.1 % 2 ^ 256) ∧ t.rf (F.xltMode c.target) = 0 ∧ t.rf (F.tally c.target) = 0 ∧
      t.rb (F.inPart c.target) = false ∧ t.rb (F.keyBound c.target) = false ∧ (∀ n < 16, t.rf (F.segLimit c.target n) = 0) ∧
      (∀ k < 8, t.rf (F.qBase (8 * c.target + k)) = setupFld bs k 0 8 / 4096 * 4096 % 2 ^ 52 ∧
        t.rf (F.cqBase (8 * c.target + k)) = setupFld bs k 8 8 / 4096 * 4096 % 2 ^ 52 ∧
        t.rf (F.qLog2 (8 * c.target + k)) = max 4 (setupFld bs k 16 4 % 16) ∧
        t.rb (F.qEn (8 * c.target + k)) = bit (setupFld bs k 16 4) 31 ∧ t.rf (F.qTail (8 * c.target + k)) = 0 ∧
        t.rf (F.qHead (8 * c.target + k)) = 0 ∧ t.rf (F.cqTail (8 * c.target + k)) = 0 ∧ t.rf (F.cqHead (8 * c.target + k)) = 0)) ∧
  (∀ (s : State) (q : QNum) (c : Cmd), s.phase4 q.val 0x40 = some c → c.target < 4096 → ∃ t, exec (.ctxResume q) s = .next t ∧ t.mem = s.mem ∧
    (s.rf (F.ctxState c.target) ≠ 2 → s.completes t c 0x01 ∧ s.onlyCmds t) ∧
    (s.rf (F.ctxState c.target) = 2 → s.ctxRuns c.target = true → t = s) ∧
    (s.rf (F.ctxState c.target) = 2 → s.ctxRuns c.target = false → t.rf (F.ctxState c.target) = 1 ∧ t.rf (F.faults c.target) = 0 ∧
      s.regsBut t [(F.ctxState c.target).off, (F.faults c.target).off, (F.errCode pgXlt).off, (F.errInfo pgXlt).off,
        (F.errAddr pgXlt).off, (F.pgError pgXlt).off] ∧
      (∀ d ∈ t.cmds, d.qn = c.qn → d.slot = c.slot → d.phase = 5 ∧ d.status = 0) ∧
      (∀ d ∈ t.cmds, d.ctx = c.target → (d.qn = c.qn → d.slot ≠ c.slot) → d.faulted = none))) ∧
  (∀ (s : State) (r : Report) (rest : List Report), s.xlt.reports = r :: rest → s.isReady = true → s.rb (F.dvRunning 1) = true →
    s.encrypts 1 = false → s.fltRoom = true → ∃ t, exec .faultReportPost s = .next t ∧ t.xlt.reports = rest ∧
      t.rf F.fltTail = (s.rf F.fltTail + 1) % 2 ^ 32 ∧ t.rf F.xltReports = (s.rf F.xltReports + 1) % 2 ^ 64 ∧
      bit (t.rf (F.evRaw pgXlt)) 0 = true ∧
      (∀ i < 32, t.byteAt (s.rf F.fltBase + 32 * (s.rf F.fltTail % 2 ^ s.rf F.fltLog2) + i) =
        (r.bytes (recPhase (s.rf F.fltTail) (s.rf F.fltLog2))).getD i 0) ∧
      s.memBut t (s.rf F.fltBase + 32 * (s.rf F.fltTail % 2 ^ s.rf F.fltLog2)) 32) ∧
  (∀ (s : State) (r : Report) (rest : List Report), s.xlt.reports = r :: rest → s.isReady = true → s.rb (F.dvRunning 1) = true →
    s.fltRoom = false → ∃ t, exec .faultReportPost s = .next t ∧ t.rb F.fltFull = true ∧ bit (t.rf (F.evRaw pgXlt)) 1 = true ∧
      t.xlt = s.xlt ∧ t.mem = s.mem ∧ t.cmds = s.cmds)

/-- R389, R390, R404, R405, R406, R407 and Table 11.10. -/
def Obligations.TranslationChangesDrain : Prop :=
  (∀ (s : State) (q : QNum) (c : Cmd), s.phase4 q.val 0x81 = some c → s.rb (F.dvRunning 1) = true → ∃ t, exec (.segSet q) s = .next t ∧
    (c.fld 50 2 = 0 → s.completes t c 0x01 ∧ s.onlyCmds t) ∧
    (c.fld 50 2 ≠ 0 → s.rf (F.ctxState c.target) = 0 → s.completes t c 0x11 ∧ s.onlyCmds t)) ∧
  (∀ (s : State) (q : QNum) (c : Cmd), s.phase4 q.val 0x81 = some c → s.rb (F.dvRunning 1) = true → c.fld 50 2 ≠ 0 →
    c.target < 4096 → s.rf (F.ctxState c.target) ≠ 0 → ∃ t, exec (.segSet q) s = .next t ∧
    ∀ u bs, s.ctxRead 0 (c.fld 56 8 % 2 ^ 52 / 16 * 16) 256 = (.ok bs, u) →
    (∀ n < 16, bit (c.fld 50 2) n = true → segBad bs n = false) → u.ctxRuns c.target = false →
      (∀ n < 16, bit (c.fld 50 2) n = true → t.rf (F.segBase c.target n) = fldOf bs (16 * n) 8 % 2 ^ 48 / 2 ^ 21 * 2 ^ 21 ∧
        t.rf (F.segLimit c.target n) = fldOf bs (16 * n + 8) 4 % 2 ^ 27 ∧ t.rf (F.segRights c.target n) = fldOf bs (16 * n + 12) 1 % 8) ∧
      (∀ n < 16, bit (c.fld 50 2) n = false → t.reg (F.segBase c.target n).off = u.reg (F.segBase c.target n).off ∧
        t.reg (F.segLimit c.target n).off = u.reg (F.segLimit c.target n).off) ∧
      (∀ e, e ∈ t.xlt.tlb ↔ e ∈ u.xlt.tlb ∧ e.ctx ≠ c.target) ∧ t.xlt.holds.contains (c.target, c.qn, c.slot) = true ∧
      t.cmds = (u.setCmd { c with acted := true }).cmds ∧ t.mem = u.mem) ∧
  (∀ (s : State) (q : QNum) (c : Cmd), s.phase4 q.val 0x82 = some c → s.rb (F.dvRunning 1) = true → ∃ t, exec (.xltRoot q) s = .next t ∧
    (s.rf (F.ctxState c.target) = 0 → s.completes t c 0x11 ∧ s.onlyCmds t) ∧
    (c.target < 4096 → s.rf (F.ctxState c.target) ≠ 0 → s.ctxRuns c.target = false →
      t.rf (F.xltMode c.target) = c.fld 50 1 % 4 ∧ t.rf (F.vmid c.target) = c.fld 52 2 ∧
      t.rf (F.s1Root c.target) = c.fld 56 8 / 4096 * 4096 % 2 ^ 52 ∧ t.rf (F.s2Root c.target) = c.fld 64 8 / 4096 * 4096 % 2 ^ 52 ∧
      s.regsBut t [(F.xltMode c.target).off, (F.s1Root c.target).off, (F.s2Root c.target).off] ∧
      (∀ e, e ∈ t.xlt.tlb ↔ e ∈ s.xlt.tlb ∧ e.ctx ≠ c.target) ∧ t.xlt.holds.contains (c.target, c.qn, c.slot) = true ∧
      t.cmds = (s.setCmd { c with acted := true }).cmds ∧ t.mem = s.mem)) ∧
  (∀ (s : State) (q : QNum) (c : Cmd), s.phase4 q.val 0x83 = some c → s.rb (F.dvRunning 1) = true → ∃ t, exec (.xltInvalidate q) s = .next t ∧
    s.regsBut t ((List.range 4).map (fun cl => (F.clWalks cl).off)) ∧ t.mem = s.mem ∧ (5 ≤ c.fld 50 1 % 8 → s.completes t c 0x11) ∧
    (2 ≤ c.fld 50 1 % 8 → c.fld 50 1 % 8 < 5 → c.ctx ≠ 0 → s.completes t c 0x13) ∧
    (c.fld 50 1 % 8 = 1 → c.target < 4096 → c.fld 64 4 = 0 → s.completes t c 0x01) ∧
    ((c.fld 50 1 % 8 = 0 ∧ c.target < 4096) ∨ ((c.fld 50 1 % 8 = 2 ∨ c.fld 50 1 % 8 = 4) ∧ c.ctx = 0) ∨
        (c.fld 50 1 % 8 = 1 ∧ c.target < 4096 ∧ c.fld 64 4 ≠ 0 ∧ c.invRange.2 ≤ 2 ^ 48) ∨
        (c.fld 50 1 % 8 = 3 ∧ c.ctx = 0 ∧ c.fld 64 4 ≠ 0 ∧ c.invRange.2 ≤ 2 ^ 48) →
      (∀ e, e ∈ t.xlt.tlb ↔ e ∈ s.xlt.tlb ∧ ¬ (
        (c.fld 50 1 % 8 = 0 ∧ e.ctx = c.target) ∨
        (c.fld 50 1 % 8 = 1 ∧ e.ctx = c.target ∧ e.eva < c.invRange.2 ∧ c.invRange.1 < e.eva + e.size) ∨
        (c.fld 50 1 % 8 = 2 ∧ s.rf (F.vmid e.ctx) = c.fld 52 2) ∨
        (c.fld 50 1 % 8 = 3 ∧ s.rf (F.vmid e.ctx) = c.fld 52 2 ∧ e.ipa < c.invRange.2 ∧ c.invRange.1 < e.ipa + e.size) ∨
        c.fld 50 1 % 8 = 4)) ∧ t.cmds = (s.setCmd { c with acted := true }).cmds)) ∧
  (∀ (s : State) (q : QNum) (c : Cmd), s.cmds.find? (fun c => c.qn == q.val && c.phase == 4 && c.acted
      && (c.opcode == 0x81 || c.opcode == 0x82 || c.opcode == 0x83)) = some c → s.rb (F.dvRunning 1) = true →
    (∀ d ∈ s.xlt.drains, d.qn = c.qn → d.slot = c.slot → d.txns = []) → (∀ r ∈ s.waiting, r.drains.contains (c.qn, c.slot) = false) →
    ∃ t, exec (.invalidationDrainDone q) s = .next t ∧
      s.completes t c 0x00 ∧ (∀ h ∈ t.xlt.holds, ¬ (h.2.1 = c.qn ∧ h.2.2 = c.slot)) ∧
      (∀ n < 16, ∀ h < 2, t.rb (F.cbsValid n h) = (s.rb (F.cbsValid n h) && !s.invCovers c (s.rf (F.cbsCtx n h)))) ∧ t.mem = s.mem) ∧
  (∀ (s : State) (q : QNum) (c : Cmd), s.cmds.find? (fun c => c.qn == q.val && c.phase == 4 && c.acted
      && (c.opcode == 0x81 || c.opcode == 0x82 || c.opcode == 0x83)) = some c →
    ((∃ d ∈ s.xlt.drains, d.qn = c.qn ∧ d.slot = c.slot ∧ d.txns ≠ []) ∨ ∃ r ∈ s.waiting, r.drains.contains (c.qn, c.slot) = true) → exec (.invalidationDrainDone q) s = .next s)

/-- R358, R359, R361, R364, R365, R380 and Table 10.2. -/
def Obligations.CoresAreDividedAmongContexts : Prop :=
  (∀ (s : State) (q : QNum) (c : Cmd), s.phase4 q.val 0x87 = some c → ∃ t, exec (.partitionSet q) s = .next t ∧ t.mem = s.mem ∧
    (c.flag 50 0 = false → c.flag 50 1 = false → s.completes t c 0x01 ∧ s.onlyCmds t) ∧
    ((c.flag 50 0 = true ∨ c.flag 50 1 = true) → s.partBad c = true → s.completes t c 0x11 ∧ s.onlyCmds t) ∧
    ((c.flag 50 0 = true ∨ c.flag 50 1 = true) → s.partBad c = false → s.completes t c 0x00) ∧
    (c.flag 50 0 = true → s.partBad c = false →
      t.rf (F.pClass (c.fld 51 1 % 64)) = c.fld 52 1 % 4 ∧ t.rb (F.pBorrow (c.fld 51 1 % 64)) = c.flag 52 2 ∧
      t.rb (F.pValid (c.fld 51 1 % 64)) = c.flag 52 3 ∧ t.rf (F.pMinCsb (c.fld 51 1 % 64)) = c.fld 60 1 % 2 ^ 7 ∧
      t.rf (F.pMinXlt (c.fld 51 1 % 64)) = c.fld 61 1 ∧ t.rf (F.pMinDir (c.fld 51 1 % 64)) = c.fld 62 1 ∧
      t.rf (F.pMinReads (c.fld 51 1 % 64)) = c.fld 56 2 % 2 ^ 14 ∧ t.rf (F.pMinKv (c.fld 51 1 % 64)) = c.fld 58 2 % 2 ^ 13) ∧
    (c.flag 50 1 = true → s.partBad c = false → t.rf (F.ctxPart c.target) = c.fld 51 1 % 64 ∧ t.rb (F.inPart c.target) = true ∧
      t.rf (F.prio c.target) = c.fld 53 1 % 8 ∧ t.rf (F.csbGran c.target) = c.fld 54 1 % 2 ^ 7 ∧ t.rf (F.slowK c.target) = c.fld 55 1 % 32 ∧
      t.rf (F.csbBound c.target) = 0 ∧ t.slowOf c.target = ⟨0, 0, s.now⟩) ∧
    (c.flag 50 0 = true → c.flag 50 1 = false → s.partBad c = false →
      s.regsBut t [(F.pClass (c.fld 51 1 % 64)).off, (F.pMinReads (c.fld 51 1 % 64)).off])) ∧
  (∀ (s : State) (q : QNum) (c : Cmd), s.phase4 q.val 0x86 = some c → c.flag 66 0 = false → ∃ t, exec (.grazeUpdate q) s = .next t ∧
    (c.target ≠ 0 → s.completes t c 0x11 ∧ s.onlyCmds t) ∧ (c.target = 0 → c.fld 64 2 = 0 → s.completes t c 0x10 ∧ s.onlyCmds t) ∧
    (c.target = 0 → 256 < c.fld 64 2 → s.completes t c 0x11 ∧ s.onlyCmds t)) ∧
  (∀ (s : State) (q : QNum) (c : Cmd), s.phase4 q.val 0x86 = some c → c.flag 66 0 = false → c.target = 0 →
    c.fld 64 2 ≠ 0 → c.fld 64 2 ≤ 256 → ∃ t, exec (.grazeUpdate q) s = .next t ∧
    ∀ u bs, s.ctxRead 0 (c.fld 56 8 % 2 ^ 52 / 32 * 32) (32 * c.fld 64 2) = (.ok bs, u) →
    (u.imageBad (c.fld 64 2) bs ≠ 0 → u.completes t c (u.imageBad (c.fld 64 2) bs) ∧ u.onlyCmds t) ∧
    (u.imageBad (c.fld 64 2) bs = 0 → s.rb F.grzEn = true → t.rb F.grzPending = true ∧
      t.grz.pend = some (c.qn, false) ∧ t.rf F.grzActive = s.rf F.grzActive ∧ t.cmds = (u.setCmd { c with acted := true }).cmds ∧
      t.mem = u.mem ∧ (∀ i < c.fld 64 2, ∀ w < 4,
        t.rf (F.grzWord (1 - s.rf F.grzActive) i w) = fldOf (slotBytesOf bs i) (8 * w) 8)) ∧
    (u.imageBad (c.fld 64 2) bs = 0 → s.rb F.grzEn = false → 2 ≤ bs.length → t.rb F.grzEn = true ∧
      t.rb F.grzPending = false ∧ t.rf F.grzActive = 1 - s.rf F.grzActive ∧ t.rf F.grzSlot = 0 ∧ t.rf F.grzCycles = 0 ∧
      t.rf F.grzLeft = fldOf bs 0 2 ∧ bit (t.rf (F.evRaw pgGrz)) 1 = true)) ∧
  (∀ (s : State) (q : QNum) (c : Cmd), s.phase4 q.val 0x86 = some c → c.flag 66 0 = true → ∃ t, exec (.grazeDisable q) s = .next t ∧
    t.regs = s.regs ∧ t.mem = s.mem ∧ (c.target ≠ 0 → s.completes t c 0x11) ∧
    (c.target = 0 → s.rb F.grzEn = false → s.completes t c 0x00) ∧
    (c.target = 0 → s.rb F.grzEn = true → t.grz = { s.grz with pend := some (c.qn, true) } ∧
      t.cmds = (s.setCmd { c with acted := true }).cmds)) ∧
  (∀ s : State, s.isReady = true → s.rb F.grzEn = true →
    bits (s.rf (F.grzWord (s.rf F.grzActive) (s.rf F.grzSlot) 0)) 0 16 ≤ s.grz.count → ∃ t, exec .grazingSlotEnd s = .next t ∧
      (s.rf F.grzSlot + 1 < s.slotsOf (s.rf F.grzActive) → s.rf F.grzSlot + 1 < 256 → t.rf F.grzSlot = s.rf F.grzSlot + 1 ∧
        t.grz.count = 0 ∧ t.rf F.grzCycles = s.rf F.grzCycles ∧ t.rf F.grzActive = s.rf F.grzActive) ∧
      (s.slotsOf (s.rf F.grzActive) ≤ s.rf F.grzSlot + 1 → t.rf F.grzCycles = (s.rf F.grzCycles + 1) % 2 ^ 64 ∧ t.grz.count = 0 ∧
        t.grz.pend = none ∧ (s.grz.pend = none → t.rf F.grzSlot = 0 ∧ t.rf F.grzActive = s.rf F.grzActive ∧ t.rb F.grzEn = true) ∧
        (∀ k, s.grz.pend = some (k, false) → t.rf F.grzSlot = 0 ∧ t.rf F.grzActive = 1 - s.rf F.grzActive ∧ t.rb F.grzPending = false) ∧
        (∀ k, s.grz.pend = some (k, true) → t.rb F.grzEn = false))) ∧
  (∀ (s : State) (x : CtxId), s.isReady = true → s.rf (F.ctxState x.val) ≠ 0 → s.now % 2 ^ s.rf (F.slowK x.val) = 0 →
    (s.slowOf x.val).since ≠ s.now → ∃ t, exec (.slowdownWindowClose x) s = .next t ∧ t.rf (F.slowVal x.val) = slowRatio (s.slowOf x.val) ∧
      t.rf (F.slowWin x.val) = s.rf (F.slowK x.val) ∧ t.slowOf x.val = ⟨0, 0, s.now⟩ ∧ s.regsBut t [(F.slowVal x.val).off] ∧
      t.mem = s.mem ∧ t.cmds = s.cmds) ∧
  (∀ (s : State) (x : CtxId), s.now % 2 ^ s.rf (F.slowK x.val) ≠ 0 → exec (.slowdownWindowClose x) s = .next s)

/-- R219, R221, R226 to R229 and Table 6.8. -/
def Obligations.DirectoryCommandsCheckThenRunTiles : Prop :=
  (∀ (s : State) (q : QNum) (c : Cmd), s.dirCmd q.val 0x03 = some c → ∃ t, exec (.kvAppend q) s = .next t ∧
    ∀ u b, s.tileRead c.ctx (c.record 0) 64 = (.ok b, u) → u.onlyCmds t ∧
      (appendCheck (u.rf F.slotBytes) c (seqOf b) ≠ 0 → u.completes t c (appendCheck (u.rf F.slotBytes) c (seqOf b))) ∧
      (appendCheck (u.rf F.slotBytes) c (seqOf b) = 0 → t.cmds = (u.setCmd { c with tiles := fldOf c.ops 28 2, acted := true }).cmds)) ∧
  (∀ (s : State) (q : QNum) (c : Cmd), s.dirCmd q.val 0x04 = some c → ∃ t, exec (.kvFork q) s = .next t ∧
    ∀ u w b d, s.tileRead c.ctx (c.record 0) 64 = (.ok b, u) → u.tileRead c.ctx (c.record 8) 64 = (.ok d, w) → w.onlyCmds t ∧
      (forkCheck (dirArg 4 c.ops) c.dirReserved (seqOf b) (seqOf d) ≠ 0 →
        w.completes t c (forkCheck (dirArg 4 c.ops) c.dirReserved (seqOf b) (seqOf d))) ∧
      (forkCheck (dirArg 4 c.ops) c.dirReserved (seqOf b) (seqOf d) = 0 → t.cmds = (w.setCmd { c with
        tiles := ceilDiv (2 * (seqOf b).layers * (seqOf b).heads * ceilDiv (dirArg 4 c.ops) 64) 2048, acted := true }).cmds)) ∧
  (∀ (s : State) (q : QNum) (c : Cmd), s.dirCmd q.val 0x05 = some c → ∃ t, exec (.kvFree q) s = .next t ∧
    ∀ u b, s.tileRead c.ctx (c.record 0) 64 = (.ok b, u) → u.onlyCmds t ∧
      (freeCheck c.dirReserved (seqOf b) ≠ 0 → u.completes t c (freeCheck c.dirReserved (seqOf b))) ∧
      (freeCheck c.dirReserved (seqOf b) = 0 → t.cmds = (u.setCmd { c with
        tiles := ceilDiv (2 * (seqOf b).layers * (seqOf b).heads * (seqOf b).high) 2048, acted := true }).cmds)) ∧
  (∀ (s : State) (q : QNum) (c : Cmd), s.dirCmd q.val 0x06 = some c → ∃ t, exec (.kvTrim q) s = .next t ∧
    ∀ u b, s.tileRead c.ctx (c.record 0) 64 = (.ok b, u) →
      (trimCheck (dirArg 6 c.ops) c.dirReserved (seqOf b) ≠ 0 → u.completes t c (trimCheck (dirArg 6 c.ops) c.dirReserved (seqOf b)) ∧
        u.onlyCmds t) ∧
      (trimCheck (dirArg 6 c.ops) c.dirReserved (seqOf b) = 0 → ((seqOf b).length - dirArg 6 c.ops) / 64 < (seqOf b).high →
        t.cmds = (u.setCmd { c with tiles := ceilDiv (2 * (seqOf b).layers * (seqOf b).heads *
          ((seqOf b).high - ((seqOf b).length - dirArg 6 c.ops) / 64)) 2048, acted := true }).cmds ∧ u.onlyCmds t) ∧
      (trimCheck (dirArg 6 c.ops) c.dirReserved (seqOf b) = 0 → (seqOf b).high ≤ ((seqOf b).length - dirArg 6 c.ops) / 64 →
        ∃ st, ∀ d ∈ t.cmds, d.qn = c.qn → d.slot = c.slot → d.phase = 5 ∧ d.status = st)) ∧
  (∀ (m : Nat) (c : Cmd) (r p : Seq), (r.hasZero = true → appendCheck m c r = 0x10 ∧
      (∀ bad, freeCheck bad r = 0x10 ∧ (∀ n, trimCheck n bad r = 0x10) ∧ ∀ l, forkCheck l bad r p = 0x10)) ∧
    (r.hasZero = false → p.hasZero = false → (c.dirReserved = true → appendCheck m c r = 0x11) ∧
      freeCheck true r = 0x11 ∧ (∀ n, trimCheck n true r = 0x11) ∧ ∀ l, forkCheck l true r p = 0x11) ∧
    (r.hasZero = false → headDims.contains r.dim = true →
      (c.dirReserved = false → fldOf c.ops 30 2 = 0 → appendCheck m c r = 0x01) ∧
      (c.dirReserved = false → fldOf c.ops 30 2 ≠ 0 → fldOf c.ops 28 2 ≠ 0 → 1048576 < r.length + fldOf c.ops 30 2 →
        appendCheck m c r = 0x31) ∧
      (r.high = 0 → freeCheck false r = 0x01) ∧ trimCheck 0 false r = 0x01 ∧ (∀ n, r.length < n → trimCheck n false r = 0x11))) ∧
  (∀ (s : State) (q : QNum) (c : Cmd) (i : Instr), ((i = .kvAppend q ∧ s.dirCmd q.val 0x03 = some c) ∨
      (i = .kvFork q ∧ s.dirCmd q.val 0x04 = some c) ∨ (i = .kvFree q ∧ s.dirCmd q.val 0x05 = some c) ∨
      (i = .kvTrim q ∧ s.dirCmd q.val 0x06 = some c)) → ∃ t, exec i s = .next t ∧
    ∀ u st, s.tileRead c.ctx (c.record 0) 64 = (.err st, u) → t.mem = u.mem ∧ t.kvd = u.kvd ∧
      t.cmds = (u.modCmd c.qn c.slot (fun d => { d.fail st c.next with phase := 5 })).cmds) ∧
  (∀ (s : State) (c : Cmd), 3 ≤ c.opcode → c.opcode ≤ 6 → c.opFF = false → 0x10 ≤ c.status → c.status < 256 →
    (s.kvdError c).rf (F.errCode pgKvd) = c.status ∧ (s.kvdError c).rb (F.pgError pgKvd) = true)

/-- R142 to R146, R212 to R214, R231, R545 and Table 6.1. -/
def Obligations.AllocatorRefillsFailsAndReclaims : Prop :=
  (∀ s : State, s.isReady = true → s.rb (F.dvRunning 2) = true → s.ringCount ≠ 0 → s.kvd.fifo.length < 4096 →
    ∃ t, exec .kvFifoRefill s = .next t ∧ ∀ b e, s.readHpa 0 (s.ringAddr s.kvd.ringHead) 4 = some b → s.dirRaw (leNat b) = some e →
      (e.st = 2 → t.afterReset 3) ∧
      (e.st ≠ 2 → t.kvd = { s.kvd with ringHead := (s.kvd.ringHead + 1) % 2 ^ 32, fifo := s.kvd.fifo ++ [leNat b] } ∧ t.cmds = s.cmds ∧
      (s.encrypts 0 = false → t.dirRaw (leNat b) = some { e with st := 2 } ∧ s.memBut t (s.dirAddr (leNat b)) 16))) ∧
  (∀ s : State, (s.ringCount = 0 ∨ 4096 ≤ s.kvd.fifo.length ∨ s.rb (F.dvRunning 2) = false) → exec .kvFifoRefill s = .next s) ∧
  (∀ (s : State) (q : QNum) (c : Cmd), s.frontCmd q.val = some c → s.isReady = true → s.rb (F.dvRunning 2) = true → c.opcode = 3 →
    s.grz.waiters.contains (Pool.kv.code, (c.qn, c.slot, c.next)) = true →
    (s.kvd.fifo.length + s.ringCount + s.pinfold < App.blocks (fldOf c.ops 30 2) → ∃ t, exec (.kvFull q) s = .next t ∧
      bit (t.rf (F.evRaw pgKvd)) 2 = true ∧ { c with status := 0x32, detail := c.next, failed := true, phase := 5 } ∈ t.cmds ∧
      (∀ w ∈ t.grz.waiters, w.2 ≠ (c.qn, c.slot, c.next)) ∧ t.kvd = s.kvd ∧ t.mem = s.mem ∧
      s.regsBut t [(F.evRaw pgKvd).off, (F.errCode pgKvd).off]) ∧
    (App.blocks (fldOf c.ops 30 2) ≤ s.kvd.fifo.length + s.ringCount + s.pinfold → exec (.kvFull q) s = .next s)) ∧
  (∀ (s : State) (x : Nat) (rest : List Nat), s.kvd.reclaims = x :: rest → s.rb F.reclaimBusy = true →
    ∃ t, exec .kvReclaimDone s = .next t ∧ ∀ u, s.reclaimAll x (List.range (s.rf F.dirCount)) = .ok u →
      t.kvd = { u.kvd with reclaims := rest } ∧ t.mem = u.mem ∧ bit (t.rf (F.evRaw pgKvd)) 5 = true ∧
      t.rb F.reclaimBusy = !rest.isEmpty ∧ (∀ y l, rest = y :: l → t.rf F.reclaimCtx = y % 4096) ∧
      ((∀ id < s.rf F.dirCount, ∃ e, s.dirRaw id = some e ∧ ¬ (e.st = 3 ∧ e.owner = x)) → t.mem = s.mem ∧ t.kvd.fifo = s.kvd.fifo)) ∧
  (∀ (s : State) (q : QNum) (c : Cmd), s.phase4 q.val 0x02 = some c → ∃ t, exec (.weightHint q) s = .next t ∧ t.mem = s.mem ∧ t.kvd = s.kvd ∧
    (c.fld 56 4 = 0 → s.completes t c 0x01 ∧ s.onlyCmds t) ∧ (4096 < c.fld 56 4 → s.completes t c 0x11 ∧ s.onlyCmds t) ∧
    (c.fld 56 4 ≠ 0 → c.fld 56 4 ≤ 4096 → s.rf (F.segLimit c.ctx (bits (c.fld 48 8) 48 4)) * 2 ^ 21 <
        c.fld 48 8 % 2 ^ 48 / 2 ^ 21 * 2 ^ 21 + c.fld 56 4 * 2 ^ 21 → s.completes t c 0x22 ∧ s.onlyCmds t) ∧
    (c.fld 56 4 ≠ 0 → c.fld 56 4 ≤ 4096 → c.fld 48 8 % 2 ^ 48 / 2 ^ 21 * 2 ^ 21 + c.fld 56 4 * 2 ^ 21 ≤
        s.rf (F.segLimit c.ctx (bits (c.fld 48 8) 48 4)) * 2 ^ 21 →
      ∃ u bad, s.hintProbe c (bits (c.fld 48 8) 48 4)
          ((List.range (c.fld 56 4)).map (fun i => c.fld 48 8 % 2 ^ 48 / 2 ^ 21 * 2 ^ 21 + i * 2 ^ 21)) = (u, bad) ∧
        t.xlt = u.xlt ∧ t.regs = u.regs ∧
        ((∀ r ∈ u.xlt.reports, ¬ (r.hint = true ∧ r.qn = c.qn ∧ r.slot = c.slot)) →
          ∀ d ∈ t.cmds, d.qn = c.qn → d.slot = c.slot → d.phase = 5 ∧ d.status = if bad then 0x30 else 0) ∧
        ((∃ r ∈ u.xlt.reports, r.hint = true ∧ r.qn = c.qn ∧ r.slot = c.slot) →
          ∀ d ∈ t.cmds, d.qn = c.qn → d.slot = c.slot → d.phase = 4 ∧ d.acted = true)))

/-- R290 to R294, R299, R301, R370, R384, R397, R400, R408. -/
def Obligations.TilesAreAdmittedAndEnd : Prop :=
  (∀ (s : State) (q : QNum) (x : CoreId) (c : Cmd), s.ctxMayRun (q.val / 8) = true → s.rf F.holdState = 0 →
    s.quiesces x.val = false → s.pruneWaiters.frontCmd q.val = some c → s.pruneWaiters.mayTry x.val (s.rf (F.ctxPart c.ctx)) c = true →
    ∃ t, exec (.tileAdmission q x) s = .next t ∧ (∀ r, s.pruneWaiters.checkTile x.val c = .error r → t = r) ∧
    ∀ tl u d a, s.pruneWaiters.checkTile x.val c = .ok (tl, u) → d = (u.cmd c.qn c.slot).getD c → a = u.askOf x.val d ⟨u, x.val, tl⟩ →
      (u.orderMet d ⟨u, x.val, tl⟩ d.next = false → t = u) ∧
      (∀ v, u.orderMet d ⟨u, x.val, tl⟩ d.next = true → u.tryAsk x.val tl.part a (d.qn, d.slot, d.next) = (false, v) → t = v) ∧
      (∀ v w t', tl.part < 64 → u.orderMet d ⟨u, x.val, tl⟩ d.next = true → u.tryAsk x.val tl.part a (d.qn, d.slot, d.next) = (true, v) →
        v.droverHands x.val d = true → v.coreFree x.val = true → v.pick x.val = some d.qn → v.domOn (coreDom x.val) = true →
        v.admitPlace x.val d tl a = w → w.tileOn x.val = some t' → t = w.advance x.val ∧
        t'.qn = tl.qn ∧ t'.slot = tl.slot ∧ t'.index = tl.index ∧ t'.entry = tl.entry ∧ w.rb (F.tsqActive x.val) = true ∧
        w.rf (F.tsqCtx x.val) = tl.ctx % 4096 ∧ w.rf (F.tsqQueue x.val) = tl.qn % 2 ^ 15 ∧ w.rf (F.tsqIndex x.val) = tl.index % 2 ^ 32 ∧
        w.rf (F.pReads tl.part) = (v.rf (F.pReads tl.part) + a.reads) % 2 ^ 14)) ∧
  (∀ (w w' : State) (x : CoreId) (tl : Tile) (a : Access) (eva : Nat), w.tileOn x.val = some tl → tl.kind ≠ 0 → tl.kind ≠ 4 →
    Tx.runs ⟨w, x.val, tl⟩ = .error (.need a) → a.direct = false → segMap w tl.ctx a.seg a.off a.right = .ok eva →
    w.cached (some x.val) tl.ctx eva = (none, w') → (w.advance x.val).tileOn x.val = some { tl with waits := tl.waits ++ [(a, true)] }) ∧
  (∀ (s : State) (x : CoreId) (tl : Tile) (a : Access), s.tileOn x.val = some tl → tl.waits.find? (fun w => w.2) = some (a, true) →
    s.coreRuns x.val = true → s.joined (x.val / 4) tl.ctx (s.pageOf tl.ctx a) = [(x.val, a)] →
    ∃ t, exec (.translationWalkDone x) s = .next t ∧
    ∀ r u, s.walkFill (some (x.val / 4)) tl.ctx ((s.rf (F.segBase tl.ctx a.seg) + a.off) % 2 ^ 48) = (r, u) →
      (∀ h slot id v, r.use ((s.rf (F.segBase tl.ctx a.seg) + a.off) % 2 ^ 48) a.right = .ok h → tl.kind ≠ 0 → tl.kind ≠ 4 →
        u.takeWalk (some x.val) r = v → v.ctxSlot tl.ctx = some slot → v.waiting = [] →
        v.lineBusy (readReq h tl.ctx slot (.tile x.val a)) = false → freeTag (v.tagUsed (v.portOf h)) 0 1024 = some id →
        t.tileOn x.val = some { tl with waits := tl.waits.filter (fun w => w.1 != a) ++ [(a, false)] } ∧
        (∃ y, t.txns = v.txns ++ [y] ∧ y.port = v.portOf h ∧ y.id = id ∧ y.op = 0 ∧ y.hpa = h ∧ y.ctx = tl.ctx ∧ y.slot = slot ∧
          y.client = .tile x.val a) ∧ t.mem = s.mem ∧ t.cmds = s.cmds) ∧
      (∀ k st l ipa v, r.use ((s.rf (F.segBase tl.ctx a.seg) + a.off) % 2 ^ 48) a.right = .fault k st l ipa →
        u.stopTile x.val tl = .ok v → tl.ctx = tl.qn / 8 → v.rf (F.ctxState tl.ctx) = 1 → v.xlt.reported = [] →
        t.tileOn x.val = none ∧ t.rf (F.ctxState tl.ctx) = 2 ∧ t.xlt.reports = v.xlt.reports ++
          [⟨(v.rf (F.segBase tl.ctx a.seg) + a.off) % 2 ^ 48, a.seg, ipa, tl.ctx, k, st, l, false, a.right, tl.qn, tl.slot, v.now⟩])) ∧
  (∀ (s : State) (x : CoreId) (tl : Tile), s.tileOn x.val = some tl → tl.ready = true → tl.aborting = false → s.coreRuns x.val = true →
    tl.part < 64 → tl.kv = [] → tl.pins = [] → tl.fin = none → ∃ t, exec (.tileEndNormal x) s = .next t ∧
    (tl.kind ≠ 4 → ∀ tu s' r ws u v tv, (if tl.kind = 5 then s.blocksNow x.val tl tl.blocks [] else .ok (tl, s)) = .ok (tu, s') →
      Tx.result ⟨s', x.val, tu⟩ = .ok r → r.poison = false → r.kv = [] → (∀ e ∈ r.events, e.1 % 0x1000 = 0) →
      (∀ e ∈ r.counts, e.1.off ≠ (F.tsqTiles x.val).off) → s'.placeRes x.val tu r = (.ok (ws, []), u) → (u.ctxSlot tu.ctx).isSome = true →
      tv = { tu with fin := some ⟨{ r with outs := [] }, ws, [], false, false⟩ } →
      v = forL ws (fun w s => s.doWr x.val tu ((s.ctxSlot tu.ctx).getD 0) w) (u.putTile x.val tv) → v.tileOn x.val = some tv →
      (∀ w ∈ v.waiting, w.core ≠ some x.val) → (v.core x.val).retirePend = false →
      t.tileOn x.val = none ∧ t.rb (F.tsqActive x.val) = false ∧ t.rf (F.tsqTiles x.val) = (v.rf (F.tsqTiles x.val) + 1) % 2 ^ 64 ∧
      (∀ d ∈ t.cmds, d.qn = tl.qn → d.slot = tl.slot → d.ended.contains tl.index = true)) ∧
    (tl.kind = 4 → tl.half < 2 → (s.core x.val).retirePend = false → ∀ bs, Tx.cbTile ⟨s, x.val, tl⟩ = .ok bs → t.tileOn x.val = none ∧
      t.rb (F.cbsValid x.val tl.half) = true ∧ t.rf (F.cbsCtx x.val tl.half) = tl.ctx % 4096 ∧
      t.rf (F.wduCbLoads x.val) = (s.rf (F.wduCbLoads x.val) + 1) % 2 ^ 64)) ∧
  (∀ (s : State) (x : CoreId) (tl : Tile), s.tileOn x.val = some tl → (tl.ready = false ∨ tl.aborting = true) →
    exec (.tileEndNormal x) s = .next s) ∧
  (∀ (s : State) (q : QNum), s.ctxMayRun (q.val / 8) = true → s.rf F.holdState = 0 →
    (∃ n < 16, s.coreFree n = true ∧ s.pick n = some q.val) → ∃ t, exec (.parkedResume q) s = .next t ∧ t.mem = s.mem ∧
      (∀ d ∈ t.cmds, d.qn = q.val → d.parked = false) ∧
      ((s.queue q.val).save ≠ [] → s.saveRecord q.val = none → ∀ c ∈ s.cmds, c.qn = q.val → c.parked = true →
        ∀ d ∈ t.cmds, d.qn = q.val → d.slot = c.slot → d.phase = 5 ∧ d.status = 0x40 ∧ d.halts = true) ∧
      (∀ c bs e b u, s.cmdsOf q.val = [c] → c.parked = true → (s.queue q.val).save ≠ [] → s.saveRecord q.val = some bs →
        (List.range (fldOf bs 2 1 % 4)).find? (fun e => saveFld bs e 4 4 == c.slot) = some e → s.reread c = (.ok b, u) →
        { c with bytes := b, parked := false, next := saveFld bs e 8 4 } ∈ t.cmds))

/-- R3, R16, R103 to R110, R346, R379, R539, R540, R558, R600, R607. What a core does not itself know of an engine's progress comes with the row (assumption 93). -/
def Obligations.TimeAdvancesRampsAndMessages : Prop :=
  (∀ (s : State) (b : BitVec 64) (j : BitVec 36) (p : BitVec 80), s.pins.porN = true → ∃ t, exec (.epochPulse b j p) s = .next t ∧
    t.rf F.epochCount = (s.rf F.epochCount + 1) % 2 ^ 64 ∧ t.mem = s.mem ∧ t.cmds = s.cmds ∧ t.csb = s.csb ∧ t.keys = s.keys ∧
    (s.isReady = false → s.regsBut t [F.epochCount.off]) ∧
    (s.isReady = true → s.regsBut t ([F.epochCount.off, F.grzLeft.off] ++ (List.range 4).map (fun c => (F.monBeats c).off)) ∧
      (∀ c < 4, t.rf (F.monBeats c) = (if s.domOn (clusterDom c) then bits b.toNat (16 * c) 16 else 0) ∧
        t.rf (F.monTj c) = bits j.toNat (9 * c) 9) ∧
      (∀ n < 4, (t.drover n).dog = (s.drover n).dog + b2n (s.rb (F.dvRunning n))) ∧
      (∀ q, (t.queue q).dog = dogTick (s.cmds.any (fun c => c.qn == q && s.dogCounts c)) (s.queue q).progress (s.queue q).dog ∧
        (t.queue q).progress = false) ∧
      (∀ n < 16, (s.core n).engRst = 0 → ∀ e < 4, (t.core n).dogs.getD e 0 = dogTick
        (bit (match s.tileOn n with | some tl => kindEngines tl.kind | none => 0) e) (s.progressed p.toNat n e) ((s.core n).dogs.getD e 0)) ∧
      (∀ n < 16, (s.core n).engRst ≠ 0 → (t.core n).dogs = (s.core n).dogs ∧ (t.core n).rstAge = (s.core n).rstAge + 1) ∧
      t.boot.shepDog = s.boot.shepDog + b2n s.shepUp ∧ t.grz.count = s.grz.count + b2n (s.rb F.grzEn) ∧
      t.rf F.grzLeft = s.rf F.grzLeft - b2n (s.rb F.grzEn))) ∧
  (∀ (s : State) (b : BitVec 64) (j : BitVec 36) (p : BitVec 80), s.pins.porN = false → exec (.epochPulse b j p) s = .next s) ∧
  (∀ (s : State) (x : CoreId), s.rb (F.mxeFiller x.val) = true → (s.core x.val).fillLeft ≠ 0 → ((s.core x.val).act = 1 ∨ (s.core x.val).act = 2) →
    s.coreRuns x.val = true → ∃ t, exec (.mxeFillGapExpiry x) s = .next t ∧ t.rf (F.mxePhase x.val) = 3 ∧ t.rb (F.mxeFiller x.val) = true ∧
      t.rf (F.mxeFill x.val) = (s.rf (F.mxeFill x.val) + (s.core x.val).fillLeft) % 2 ^ 64 ∧ (t.core x.val).act = 3 ∧
      (t.core x.val).fillLeft = 0 ∧ ((s.core x.val).act = 2 → (t.core x.val).ramp = s.rf (F.rampBeats x.val)) ∧
      s.regsBut t [(F.mxePhase x.val).off, (F.mxeFill x.val).off] ∧ t.mem = s.mem ∧ t.cmds = s.cmds) ∧
  (∀ (s : State) (x : CoreId), (s.rb (F.mxeFiller x.val) = false ∨ (s.core x.val).fillLeft = 0) → exec (.mxeFillGapExpiry x) s = .next s) ∧
  (∀ (s : State) (x : CoreId), s.coreRuns x.val = true → (s.core x.val).act = 1 → ∃ t, exec (.mxeRampInterval x) s = .next t ∧
    t.rf (F.mxeQuiet x.val) = (s.rf (F.mxeQuiet x.val) + ((s.core x.val).ramp / 16 - (s.core x.val).ramp / 16 * s.rf (F.mxeLevel x.val) / 16)) % 2 ^ 64 ∧
    s.regsBut t [(F.mxeLevel x.val).off, (F.mxePhase x.val).off, (F.mxeQuiet x.val).off] ∧ t.mem = s.mem ∧ t.cmds = s.cmds ∧
    (16 ≤ s.rf (F.mxeLevel x.val) → t.rf (F.mxeLevel x.val) = s.rf (F.mxeLevel x.val) ∧ t.rf (F.mxePhase x.val) = 2 ∧ (t.core x.val).act = 2) ∧
    (s.rf (F.mxeLevel x.val) < 16 → t.rf (F.mxeLevel x.val) = s.rf (F.mxeLevel x.val) + 1 ∧
      t.rf (F.mxePhase x.val) = s.rf (F.mxePhase x.val) ∧ (t.core x.val).act = 1)) ∧
  (∀ (s : State) (x : CoreId), s.coreRuns x.val = true → (s.core x.val).act = 3 → ∃ t, exec (.mxeRampInterval x) s = .next t ∧
    t.rf (F.mxeLevel x.val) = s.rf (F.mxeLevel x.val) - 1 ∧ t.mem = s.mem ∧ t.cmds = s.cmds ∧
    t.rf (F.mxeFill x.val) = (s.rf (F.mxeFill x.val) + (s.core x.val).ramp / 16 * s.rf (F.mxeLevel x.val) / 16) % 2 ^ 64 ∧
    t.rf (F.mxeQuiet x.val) = (s.rf (F.mxeQuiet x.val) + ((s.core x.val).ramp / 16 - (s.core x.val).ramp / 16 * s.rf (F.mxeLevel x.val) / 16)) % 2 ^ 64 ∧
    (s.rf (F.mxeLevel x.val) ≤ 1 → t.rf (F.mxePhase x.val) = 0 ∧ (t.core x.val).act = 0 ∧ bit (t.rf (F.evRaw (pgMxe x.val))) 2 = true)) ∧
  (∀ (s : State) (m : IrqMsg) (l : List IrqMsg), s.pins.irqQ = m :: l → s.irqFree m = false → exec .irqMessageSend s = .next s) ∧
  (∀ (s : State) (m : IrqMsg) (l : List IrqMsg) (v : Nat), s.pins.irqQ = m :: l → s.irqFree m = true → m.vec = some v →
    (s.rf F.hostState ≠ 0 → v < 64 → ∃ t, exec .irqMessageSend s = .next t ∧ t.pins = { s.pins with irqQ := l } ∧
      bit (t.rf F.irqHeld) v = true ∧ (∀ k < 64, k ≠ v → bit (t.rf F.irqHeld) k = bit (s.rf F.irqHeld) k) ∧ s.regsBut t [F.irqHeld.off] ∧
      t.mem = s.mem) ∧
    (s.rf F.hostState = 0 → (s.flock.joined = false ∨ s.rb F.flkBw = true) → s.xing .hrp = true →
      exec .irqMessageSend s = .next { s with pins := { s.pins with irqQ := l, irqSent := m :: s.pins.irqSent } }) ∧
    (s.rf F.hostState = 0 → (s.flock.joined = false ∨ s.rb F.flkBw = true) → s.xing .hrp = false → exec .irqMessageSend s = .next s) ∧
    (s.rf F.hostState = 0 → s.flock.joined = true → s.rb F.flkBw = false → ∃ t, exec .irqMessageSend s = .next t ∧
      t.pins.irqQ = l ∧ t.pins.irqSent = s.pins.irqSent ∧ t.mem = s.mem ∧ ∀ p < 4, s.routeTo 0 = p → s.rf (F.lkState p) = 3 →
        (s.link p).waitQ = [] → (s.link p).held.length < 64 → 0 < (s.link p).cred.getD 0 0 → 0 < (s.link p).cred.getD 1 0 →
        (t.link p).held.length = (s.link p).held.length + 1 ∧ t.rf (F.lkTx p) = (s.rf (F.lkTx p) + 1) % 2 ^ 64))

/-- R539, R543, R546 to R551, Tables 16.4, 16.5, 16.11. -/
def Obligations.SheepdogsClimbTheResetLadder : Prop :=
  (∀ (s : State) (x : CoreId) (e : Nat) (i : Instr), ((∃ g : Eng, i = .engineSheepdogExpiry x g ∧ g.ctorIdx = e ∧ e < 4) ∨
      (i = .tsqSheepdogExpiry x ∧ e = 4)) →
    (s.rf (F.shdLimit x.val e) ≤ (s.core x.val).dogs.getD e 0 → s.rf F.holdState ≠ 1 → ∃ t, exec i s = .next t ∧
      bit (t.rf (F.shdExpired x.val)) e = true ∧ t.rf (F.shdLast x.val) = s.now ∧ t.mem = s.mem ∧ t.cmds = s.cmds ∧
      ((s.cluster (x.val / 4)).resetting = false → bit (t.core x.val).engRst e = true ∧ t.rb (F.shdEngRst x.val) = true) ∧
      ((s.cluster (x.val / 4)).resetting = true → (t.core x.val).engRst = (s.core x.val).engRst)) ∧
    ((s.core x.val).dogs.getD e 0 < s.rf (F.shdLimit x.val e) → exec i s = .next s)) ∧
  (∀ (s : State) (x : CoreId), s.isReady = true → (s.core x.val).engRst ≠ 0 → (s.cluster (x.val / 4)).resetting = false →
    ∃ t, exec (.engineResetComplete x) s = .next t ∧ (t.core x.val).engRst = 0 ∧ t.rb (F.shdEngRst x.val) = false ∧
      t.rf (F.shdResets x.val) = (s.rf (F.shdResets x.val) + 1) % 2 ^ 64 ∧ bit (t.rf (F.evRaw (pgShd x.val))) 0 = true ∧
      (∀ tl, s.tileOn x.val = some tl → tl.kv = [] → tl.pins = [] → tl.part < 64 → t.tileOn x.val = none) ∧
      (∀ tl c, s.tileOn x.val = some tl → tl.kv = [] → tl.pins = [] → tl.part < 64 → tl.ctx < 4096 → s.rf (F.ctxState tl.ctx) ≠ 3 →
        s.cmd tl.qn tl.slot = some c → bit (fldOf tl.entry 1 1) 5 = false → c.stopped.contains tl.index = false →
        ∀ d ∈ t.cmds, d.qn = tl.qn → d.slot = tl.slot → d.stopped.contains tl.index = true) ∧
      (∀ tl c, s.tileOn x.val = some tl → tl.kv = [] → tl.pins = [] → tl.part < 64 → 0 < tl.ctx → tl.ctx < 4096 →
        (s.rf (F.ctxState tl.ctx) = 1 ∨ s.rf (F.ctxState tl.ctx) = 2) → s.cmd tl.qn tl.slot = some c →
        (bit (fldOf tl.entry 1 1) 5 = true ∨ c.stopped.contains tl.index = true) →
        t.rf (F.ctxState tl.ctx) = 3 ∧ bit (t.rf (F.evRaw (pgShd x.val))) 2 = true)) ∧
  (∀ (s : State) (x : CoreId), (s.core x.val).engRst = 0 → exec (.engineResetComplete x) s = .next s) ∧
  (∀ (s : State) (x : CoreId), (s.core x.val).engRst ≠ 0 → s.toEpochs 250000 ≤ (s.core x.val).rstAge →
    (s.cluster (x.val / 4)).resetting = false → ∃ t, exec (.engineResetLimit x) s = .next t ∧ (t.cluster (x.val / 4)).resetting = true ∧
      bit (t.rf (F.evRaw (pgShd x.val))) 1 = true ∧ t.mem = s.mem ∧ t.cmds = s.cmds ∧
      (∀ i < 4, t.rb (F.shdClRst (4 * (x.val / 4) + i)) = true ∧ (t.core (4 * (x.val / 4) + i)).engRst = 0)) ∧
  (∀ (s : State) (c : ClId), s.isReady = true → (s.cluster c.val).resetting = true → (∀ i < 4, (s.core (4 * c.val + i)).tile = none) →
    ∃ t, exec (.clusterResetComplete c) s = .next t ∧ (t.cluster c.val).resetting = false ∧ (t.cluster c.val).dirCache = [] ∧
      (∀ a, c.val * 2 ^ 24 ≤ a → a < (c.val + 1) * 2 ^ 24 → tblGet 0 t.csb a = 0) ∧
      (∀ i < 4, t.rb (F.shdClRst (4 * c.val + i)) = false ∧ t.rf (F.shdExpired (4 * c.val + i)) = 0 ∧
        (bit s.hsa.retired (4 * c.val + i) = false → t.rb (F.domain (coreDom (4 * c.val + i))) = true)) ∧
      (∀ x, 0 < x → x < 4096 → (∃ e ∈ s.csbMap, e.1 / 64 = c.val ∧ (e.2 - 1) / 64 = x) →
        (s.rf (F.ctxState x) = 1 ∨ s.rf (F.ctxState x) = 2) → t.rf (F.ctxState x) = 3)) ∧
  (∀ (s : State) (c : ClId), (s.cluster c.val).resetting = false → exec (.clusterResetComplete c) s = .next s) ∧
  (∀ (s : State) (q : QNum), s.rf (F.qShd q.val) ≠ 0 → s.rf (F.qShd q.val) ≤ (s.queue q.val).dog →
    ∃ t, exec (.queueSheepdogExpiry q) s = .next t ∧ (t.queue q.val).dog = 0 ∧
      (q.val / 8 = 0 → bit (t.rf (F.evRaw 0)) 0 = true ∧ s.regsBut t [(F.evRaw 0).off] ∧ t.cmds = s.cmds ∧ t.mem = s.mem) ∧
      (q.val / 8 ≠ 0 → (s.rf (F.ctxState (q.val / 8)) = 1 ∨ s.rf (F.ctxState (q.val / 8)) = 2) → t.rf (F.ctxState (q.val / 8)) = 3 ∧
        (∃ k ∈ t.closing, k.ctx = q.val / 8 ∧ k.cause = 1 ∧ k.cmd = none))) ∧
  (∀ (s : State) (q : QNum), (s.rf (F.qShd q.val) = 0 ∨ (s.queue q.val).dog < s.rf (F.qShd q.val)) →
    exec (.queueSheepdogExpiry q) s = .next s) ∧
  (∀ (s : State) (x : CoreId) (tl : Tile), s.tileOn x.val = some tl →
    (tl.aborting = true → (s.core x.val).engRst = 0 → tl.kv = [] → tl.pins = [] → tl.part < 64 → ∃ t, exec (.abortAck x) s = .next t ∧
      t.tileOn x.val = none ∧ t.rb (F.tsqActive x.val) = false ∧ t.rf (F.pReads tl.part) = s.rf (F.pReads tl.part) - tl.reads) ∧
    (tl.aborting = true → s.reached (.ctxAbort tl.ctx) (s.toEpochs 20000) = true → ∃ t, exec (.abortAckTimeout x) s = .next t ∧
      (t.core x.val).engRst = (s.core x.val).engRst ||| (if kindEngines tl.kind = 0 then 0b10000 else kindEngines tl.kind) ∧
      t.rb (F.shdEngRst x.val) = true ∧ t.mem = s.mem ∧ t.cmds = s.cmds) ∧
    (tl.aborting = false → exec (.abortAck x) s = .next s ∧ exec (.abortAckTimeout x) s = .next s))

/-- R318, R514 to R516, R518, R523, R525, R527, R529, R531, R539, R541, R554 and Table 15.2. -/
def Obligations.FirmwareCrashesAndRestarts : Prop :=
  (∀ g : Region, g.w = true → g.allows 4 = false) ∧
  (∀ (s : State) (n : Fin 4) (cause : Nat) (i : Instr), s.rb (F.dvRunning n.val) = true →
      ((∃ k : Fin 3, i = .droverCrash n k ∧ cause = k.val + 1) ∨
        (i = .droverSheepdogExpiry n ∧ cause = 4 ∧ s.toEpochs 1000000 ≤ (s.drover n.val).dog)) →
    ((s.boot.crashes.filter (fun e => decide (s.now - e < 2 ^ 20))).length < 2 → ∃ t, exec i s = .next t ∧ t.rb (F.dvRunning n.val) = false ∧
      t.rb (F.dvRestarting n.val) = true ∧ t.rf (F.dvCause n.val) = cause ∧ t.rf (F.dvCrashEpoch n.val) = s.now ∧
      t.rf (F.dvTotal n.val) = min 65535 (s.rf (F.dvTotal n.val) + 1) ∧
      (∀ k < 4, t.rf (F.dvWindow k) = (s.boot.crashes.filter (fun e => decide (s.now - e < 2 ^ 20))).length + 1) ∧
      t.mem = s.mem ∧ t.cmds = s.cmds ∧ ∀ k < 4, k ≠ n.val → t.rb (F.dvRunning k) = s.rb (F.dvRunning k)) ∧
    (2 ≤ (s.boot.crashes.filter (fun e => decide (s.now - e < 2 ^ 20))).length → ∃ t, exec i s = .next t ∧ t.afterReset 4)) ∧
  (∀ (s : State) (n : Fin 4) (k : Fin 3), s.rb (F.dvRunning n.val) = false → exec (.droverCrash n k) s = .next s ∧
    exec (.droverSheepdogExpiry n) s = .next s) ∧
  (∀ (s : State) (n : Fin 4), s.rb (F.dvRestarting n.val) = true →
    (∃ t, exec (.droverRestartDone n true) s = .next t ∧ t.rb (F.dvRunning n.val) = true ∧ t.rb (F.dvRestarting n.val) = false ∧
      t.rb (F.dvSlot n.val) = (s.drover n.val).slotB ∧ bit (t.rf (F.evRaw pgShm)) 7 = true ∧ t.mem = s.mem ∧ (t.drover n.val).component = none ∧
      (t.drover n.val).regions = (List.range 4).map (regionOf ((s.droverImage (s.drover n.val).slotB).elim 0 (fun i => i.2)) 0)) ∧
    ((s.boot.crashes.filter (fun e => decide (s.now - e < 2 ^ 20))).length < 2 → ∃ t, exec (.droverRestartDone n false) s = .next t ∧
      t.rb (F.dvRestarting n.val) = true ∧ t.rb (F.dvRunning n.val) = false ∧ t.rf (F.dvCause n.val) = 5)) ∧
  (∀ s : State, s.isReady = true → s.shepUp = true → s.toEpochs 200000000 ≤ s.boot.shepDog →
    (s.boot.shepRestart = none → ∃ t, exec (.shepherdSheepdogExpiry true) s = .next t ∧ t.boot.shepHalted = true ∧ t.rb F.mbPaused = true ∧
      t.boot.shepRestart = some s.now ∧ s.regsBut t [F.mbPaused.off] ∧ t.mem = s.mem ∧ t.cmds = s.cmds) ∧
    (∀ e, s.boot.shepRestart = some e → s.now - e < 2 ^ 20 → ∃ t, exec (.shepherdSheepdogExpiry true) s = .next t ∧ t.afterReset 5) ∧
    (∃ t, exec (.shepherdSheepdogExpiry false) s = .next t ∧ t.afterReset 5)) ∧
  (∀ s : State, s.boot.shepHalted = true → ∃ t, exec .shepherdRestartDone s = .next t ∧ t.boot.shepHalted = false ∧ t.rb F.mbPaused = false ∧
    bit (t.rf (F.evRaw pgShm)) 8 = true) ∧
  (∀ (s : State) (n : Fin 4), exec (.kickRegisterWrite none) s = .next { s with boot := { s.boot with shepDog := 0 } } ∧
    ∃ t, exec (.kickRegisterWrite (some n)) s = .next t ∧ (t.drover n.val).dog = 0 ∧ t.regs = s.regs ∧ t.mem = s.mem ∧ t.cmds = s.cmds ∧
      ∀ k, k ≠ n.val → t.drover k = s.drover k) ∧
  (∀ (s : State) (q : QNum) (c : Cmd) (d : Nat), (s.cmdsOf q.val).find? (fun c => c.phase == 4 && !c.acted && c.svc) = some c →
    c.duty = some d →
    (s.rb (F.dvRunning d) = false → s.rf (F.dvSvc d) < s.now - c.svcStart → ∃ t, exec (.dvSvcTimeout q) s = .next t ∧
      s.completes t c 0x71 ∧ s.onlyCmds t) ∧
    ((s.rb (F.dvRunning d) = true ∨ s.now - c.svcStart ≤ s.rf (F.dvSvc d)) → exec (.dvSvcTimeout q) s = .next s)) ∧
  (∀ (s : State) (q : QNum) (c : Cmd), (s.cmdsOf q.val).find? (fun c => c.phase == 4 && !c.acted && c.svc && c.shepSvc) = some c →
    (s.shepUp = false → exec (.shepherdServiceDone q) s = .next s) ∧
    (∀ u w bs, s.shepUp = true → c.opcode = 0x80 → s.setupCheck c = (.ok bs, u) →
      u.takeDrbg.2.ctxWrite 0 (c.fld 64 8 % 2 ^ 52 / 64 * 64)
        (ofNats (u.takeDrbg.2.keyRecord c.target (u.takeDrbg.1 % 2 ^ 256))) (.command c.qn c.slot) = (0, w) →
      ∃ t, exec (.shepherdServiceDone q) s = .next t ∧ t.rf (F.ctxState c.target) = 1 ∧ t.mem = w.mem ∧
        ∀ d ∈ t.cmds, d.qn = c.qn → d.slot = c.slot → d.phase = 5 ∧ d.status = 0)) ∧
  (∀ (s : State) (u : Update), s.shep.update = some u → u.shepherd = true → u.step = 2 → s.rf F.holdState = 0 → s.shep.stopping = false →
    s.pins.taHeld = [] → ∃ t, exec .shepherdUpdateResume s = .next t ∧ t.rb F.mbPaused = false ∧ t.shep.svnShep = u.svn ∧
      t.shep.update = none ∧ bit (t.rf (F.evRaw pgShm)) 8 = true ∧ t.mem = s.mem ∧
      (∀ d ∈ t.cmds, d.qn = u.qn → d.slot = u.slot → d.phase = 5 ∧ d.status = 0) ∧
      ((s.rf F.trust = 1 ∨ s.rf F.trust = 2) → s.shep.permit ≠ some u.digest → t.rf F.trust = 3 ∧ t.rf F.trustCause = 1) ∧
      ((s.rf F.trust = 1 ∨ s.rf F.trust = 2) → s.shep.permit = some u.digest → t.rf F.trust = s.rf F.trust ∧ t.shep.permit = none))

/-- R556 to R560 and Table 16.8. -/
def Obligations.HostLossHoldsAndAttachRestores : Prop :=
  (∀ s : State, s.isReady = true → s.rf F.hostState = 0 → s.rf F.hostLossEpochs ≠ 0 → s.reached .hostBeat (s.rf F.hostLossEpochs) = true →
    ∃ t, exec .hostLoss s = .next t ∧ bit (t.rf (F.evRaw 0)) 3 = true ∧
      (s.rf F.detachPolicy = 0 → t.rf F.hostState = 1 ∧ s.regsBut t [F.hostState.off, (F.evRaw 0).off] ∧ t.mem = s.mem ∧ t.cmds = s.cmds) ∧
      (s.rf F.detachPolicy = 1 → t.rf F.hostState = 2 ∧ ∀ n < 16, bit (t.core n).quiesceReq 1 = true)) ∧
  (∀ s : State, (s.rf F.hostState ≠ 0 ∨ s.rf F.hostLossEpochs = 0 ∨ s.reached .hostBeat (s.rf F.hostLossEpochs) = false) →
    exec .hostLoss s = .next s) ∧
  (∀ (s : State) (v : W32), (s.isReady = true → s.rf F.hostState = 0 → ∃ t, exec (.hostBeat v) s = .next t ∧ t.elapsed .hostBeat = some 0 ∧
      t.regs = s.regs ∧ t.mem = s.mem ∧ t.cmds = s.cmds ∧ t.pins = s.pins) ∧
    ((s.isReady = false ∨ s.rf F.hostState ≠ 0) → exec (.hostBeat v) s = .next s)) ∧
  (∀ (s : State) (w : W64), s.isReady = true → w.toNat ≠ s.rf F.attachToken → ∃ t, exec (.attachWrite w) s = .next t ∧
    t.rf F.badTokens = min 255 (s.rf F.badTokens + 1) ∧ t.rf F.hostState = s.rf F.hostState ∧ s.regsBut t [F.badTokens.off] ∧ t.mem = s.mem ∧
    t.pins = s.pins) ∧
  (∀ (s : State) (w : W64), s.isReady = true → w.toNat = s.rf F.attachToken → (s.rf F.hostState = 1 ∨ s.rf F.hostState = 3) →
    ∃ t l, exec (.attachWrite w) s = .next t ∧ t.rf F.hostState = 0 ∧ t.rf F.badTokens = 0 ∧ t.rf F.irqHeld = 0 ∧
      bit (t.rf (F.evRaw 0)) 4 = true ∧ t.elapsed .hostBeat = some 0 ∧
      t.pins.irqQ = s.pins.irqQ ++ ((List.range 64).filter (fun v => bit (s.rf F.irqHeld) v)).map
        (fun v => ⟨some v, s.rf (F.vecAddr v), s.rf (F.vecData v), none⟩) ++ l ∧
      (s.rf F.hostState = 1 → t.mem = s.mem ∧ t.cmds = s.cmds) ∧
      (s.rf F.hostState = 3 → t.rf F.holdState = 0 ∧ ∀ n < 16, bit (t.core n).quiesceReq 1 = false)) ∧
  (∀ (s : State) (w : W64), (s.isReady = false ∨ (w.toNat = s.rf F.attachToken ∧ (s.rf F.hostState = 0 ∨ s.rf F.hostState = 2))) →
    exec (.attachWrite w) s = .next { s with wlatch := tblDel s.wlatch 0x68 }) ∧
  (∀ (s : State) (v : Save) (b : Bool), s.rf F.hostState = 2 → s.isReady = true → s.newest = some (v, b) → v.preserve = true →
    v.superseded = false → (∀ t ∈ s.txns, t.op = 0) → (∀ r ∈ s.waiting, r.op = 0) → s.xing .hrp = true → ∃ t, exec .preserveMessage s = .next t ∧ t.rf F.hostState = 3 ∧
      t.pins = { s.pins with irqSent := ⟨none, s.rf F.preserveAddr, s.rf F.preserveData, none⟩ :: s.pins.irqSent } ∧
      s.regsBut t [F.hostState.off] ∧ t.mem = s.mem ∧ t.cmds = s.cmds) ∧
  (∀ s : State, (s.rf F.hostState ≠ 2 ∨ s.newest = none ∨ ∃ t ∈ s.txns, t.op ≠ 0) → exec .preserveMessage s = .next s) ∧
  (∀ s : State, exec (.attachFresh false) s = .next s) ∧
  (∀ s : State, s.isReady = true → ∃ t, exec (.attachFresh true) s = .next t ∧ t.afterReset 9 ∧
    ∀ v b, s.newest = some (v, b) → ∃ v', t.newest = some (v', b) ∧ v'.superseded = true)

/-- R526, R527, R529, R532 to R536 and Tables 15.4, 15.5. -/
def Obligations.FirmwareIsStagedAndTheMailboxAnswers : Prop :=
  (∀ (s : State) (q : QNum) (c : Cmd) (i : Instr), ((i = .fwStageDrover q ∧ s.fwStage q.val false = some c) ∨
      (i = .fwStageShepherd q ∧ s.fwStage q.val true = some c)) →
    (c.fwCheck ≠ 0 → ∃ t, exec i s = .next t ∧ s.completes t c c.fwCheck ∧ s.onlyCmds t) ∧
    (c.fwCheck = 0 → s.shepUp = false → ∃ t, exec i s = .next t ∧ t.cmds = (s.waitSvc c).cmds ∧ s.onlyCmds t)) ∧
  (∀ c : Cmd, (c.target ≠ 0 → c.fwCheck = 0x11) ∧ (c.target = 0 → (c.fld 50 1 % 4 = 0 ∨ c.fld 50 1 % 4 = 3) → c.fwCheck = 0x11) ∧
    (c.target = 0 → (c.fld 50 1 % 4 = 1 ∨ c.fld 50 1 % 4 = 2) → (c.fld 64 4 = 0 → c.fwCheck = 0x10) ∧
      (524288 < c.fld 64 4 → c.fwCheck = 0x11) ∧ (c.fld 64 4 ≠ 0 → c.fld 64 4 ≤ 524288 → c.fwCheck = 0))) ∧
  (∀ (s : State) (q : QNum) (c : Cmd), s.fwStage q.val false = some c → c.fwCheck = 0 → s.shepUp = true →
    ∃ t r u, exec (.fwStageDrover q) s = .next t ∧ s.fwImage c = (r, u) ∧ t.mem = u.mem ∧
      (∀ e, r = .error e → u.completes t c e ∧ u.onlyCmds t) ∧
      (∀ bs, r = .ok bs → t.shep.update = some ⟨c.qn, c.slot, false, imageSvn bs, imageDigest bs, 3⟩ ∧ t.rb (F.dvRunning 3) = false ∧
        t.rb (F.dvRestarting 3) = true ∧ (t.drover 3).slotB = !u.rb (F.dvSlot 0) ∧ t.droverImage (!u.rb (F.dvSlot 0)) =
          some (imageSvn bs, imageDigest bs) ∧ t.cmds = (u.setCmd { c with acted := true }).cmds)) ∧
  (∀ (s : State) (q : QNum) (c : Cmd), s.fwStage q.val true = some c → c.fwCheck = 0 → s.shepUp = true →
    ∃ t r u, exec (.fwStageShepherd q) s = .next t ∧ s.fwImage c = (r, u) ∧ t.mem = u.mem ∧
      (∀ e, r = .error e → u.completes t c e ∧ u.onlyCmds t) ∧
      (∀ bs, r = .ok bs → t.shep.update = some ⟨c.qn, c.slot, true, imageSvn bs, imageDigest bs, if u.rb F.mbBusy then 1 else 2⟩ ∧
        t.shep.sessions = [] ∧ t.rf F.sessions = 0 ∧ t.rb F.mbPaused = !u.rb F.mbBusy ∧
        t.cmds = (u.setCmd { c with acted := true }).cmds)) ∧
  (∀ (s : State) (g : Byte) (op : Nat) (i : Instr), ((i = .mbInfo g ∧ op = 1) ∨ (i = .mbLogRead g ∧ op = 2) ∨ (i = .mbSpdm g ∧ op = 3) ∨
      (i = .mbStage g ∧ op = 4)) →
    (s.pins.porN = true → (s.rb F.mbBusy = true ∨ s.rb F.mbPaused = true) → ∃ t, exec i s = .next t ∧ bit (t.rf (F.evRaw pgShm)) 5 = true ∧
      t.shep = s.shep ∧ s.regsBut t [(F.evRaw pgShm).off] ∧ t.mem = s.mem ∧ t.cmds = s.cmds) ∧
    (s.pins.porN = true → s.rb F.mbBusy = false → s.rb F.mbPaused = false → ∃ t, exec i s = .next t ∧ t.rb F.mbBusy = true ∧
      t.rb F.mbDone = false ∧ t.shep = { s.shep with mb := some ⟨op, g.toNat, s.rf F.mbLen, s.rf F.mbBuf, s.rf F.mbArg, none⟩ } ∧
      s.regsBut t [F.mbBusy.off] ∧ t.mem = s.mem ∧ t.cmds = s.cmds) ∧
    (s.pins.porN = false → exec i s = .next s)) ∧
  (∀ (s : State) (r : MbReq) (res : Nat) (rsp : List Byte), s.shep.mb = some r → s.shepServes = true → s.mbAnswer r = some (res, rsp) →
    s.encrypts 1 = false → rsp.length ≤ 65536 → res < 256 → r.tag < 256 → ∃ t, exec .mbRequestDone s = .next t ∧ t.shep.mb = none ∧
      t.rb F.mbBusy = false ∧ t.rb F.mbDone = true ∧ t.rf F.mbResult = res ∧ t.rf F.mbRlen = rsp.length ∧ t.rf F.mbTag = r.tag ∧
      bit (t.rf (F.evRaw pgShm)) 4 = true ∧ (∀ i < rsp.length, t.byteAt (r.buf + i) = rsp.getD i 0) ∧ s.memBut t r.buf rsp.length ∧
      t.cmds = s.cmds) ∧
  (∀ s : State, (s.shep.mb = none ∨ s.shepServes = false) → exec .mbRequestDone s = .next s)

/-- R492, R493, R494 and Tables 14.5 to 14.7. The response codes and the flags' places are PRESUMED from SPDM 1.3 (assumption 69). -/
def Obligations.SpdmRequestsAreAnswered : Prop :=
  (∀ (s : State) (r : MbReq), s.spdmReq = some r →
    exec .getVersion s = .next (s.spdmSay r 0x04 [0x13]) ∧ exec .getCapabilities s = .next (s.spdmSay r 0x61 [0x2F6]) ∧
    exec (.negotiateAlgorithms true) s = .next (s.spdmSay r 0x63 [0x80, 0x02, 0x10, 0x02, 0x01]) ∧
    exec (.negotiateAlgorithms false) s = .next (s.spdmError r 0x01) ∧
    exec .getDigests s = .next (s.spdmSay r 0x01 [1, bNat (sha384 s.certs)]) ∧
    (∀ k, exec (.spdmUnsupportedRequest k) s = .next (s.spdmError r 0x07)) ∧
    (∀ code fs, (s.spdmSay r code fs).shep = { s.shep with mb := some { r with answer := some (ofNats (Config.spdmBytes code fs)) } } ∧
      (s.spdmSay r code fs).regs = s.regs ∧ (s.spdmSay r code fs).mem = s.mem ∧ (s.spdmSay r code fs).cmds = s.cmds)) ∧
  (∀ (s : State) (r : MbReq) (slot : BitVec 4) (off len : BitVec 16), s.spdmReq = some r →
    ((slot ≠ 0 ∨ s.certs.length ≤ off.toNat) → exec (.getCertificate slot off len) s = .next (s.spdmError r 0x01)) ∧
    (slot = 0 → off.toNat < s.certs.length → ∃ part, part = (s.certs.drop off.toNat).take len.toNat ∧
      exec (.getCertificate slot off len) s = .next (s.spdmSay r 0x02 ([part.length, s.certs.length - off.toNat - part.length] ++ part)))) ∧
  (∀ (s : State) (r : MbReq) (slot : BitVec 4) (nonce : BitVec 256), s.spdmReq = some r →
    (slot ≠ 0 → exec (.challenge slot nonce) s = .next (s.spdmError r 0x01)) ∧
    (slot = 0 → ∃ t d, exec (.challenge slot nonce) s = .next t ∧ d < 2 ^ 256 ∧ t.shep.mb = some { r with answer := some (ofNats
        (Config.spdmBytes 0x03 ([0x83, nonce.toNat, d, bNat (sha384 s.certs), s.measSummary] ++
          [s.signed [0x83, nonce.toNat, d, bNat (sha384 s.certs), s.measSummary]]))) } ∧ t.regs = s.regs ∧ t.mem = s.mem)) ∧
  (∀ (s : State) (r : MbReq) (k : Byte) (nonce : BitVec 256), s.spdmReq = some r →
    (6 < k.toNat → k.toNat ≠ 255 → ∀ g, exec (.getMeasurements k g nonce) s = .next (s.spdmError r 0x01)) ∧
    (k.toNat = 0 → exec (.getMeasurements k false nonce) s = .next (s.spdmSay r 0x60 [0xE0, 6])) ∧
    (1 ≤ k.toNat → k.toNat ≤ 6 → exec (.getMeasurements k false nonce) s = .next (s.spdmSay r 0x60 [0xE0, 1, s.measValue k.toNat])) ∧
    (k.toNat = 255 → exec (.getMeasurements k false nonce) s = .next (s.spdmSay r 0x60 ([0xE0, 6] ++
      (List.range 6).map (fun i => s.measValue (i + 1))))) ∧
    (1 ≤ k.toNat → k.toNat ≤ 6 → ∃ t d, exec (.getMeasurements k true nonce) s = .next t ∧ t.shep.mb = some { r with answer := some (ofNats
      (Config.spdmBytes 0x60 ([0xE0, 1, s.measValue k.toNat, nonce.toNat, d] ++
        [s.signed [0xE0, 1, s.measValue k.toNat, nonce.toNat, d]]))) } ∧ t.regs = s.regs ∧ t.mem = s.mem) ∧
    ((k.toNat = 0 ∨ k.toNat = 255) → ∃ t b, exec (.getMeasurements k true nonce) s = .next t ∧ t.shep.mb = some { r with answer := some b } ∧
      t.regs = s.regs ∧ t.mem = s.mem)) ∧
  (∀ (s : State) (r : MbReq) (a : BitVec 16) (p : BitVec 768), s.spdmReq = some r →
    (8 ≤ s.shep.sessions.length → exec (.keyExchange a p) s = .next (s.spdmError r 0x0A)) ∧
    (s.shep.sessions.length < 8 → ∃ t k b, exec (.keyExchange a p) s = .next t ∧ t.shep.sessions = s.shep.sessions ++ [k] ∧
      k.established = false ∧ k.id = s.shep.nextSession % 65536 * 65536 + a.toNat ∧ t.shep.nextSession = s.shep.nextSession + 1 ∧
      t.rf F.sessions = s.shep.sessions.length + 1 ∧ s.regsBut t [F.sessions.off] ∧ t.mem = s.mem ∧
      t.shep.mb = some { r with answer := some b })) ∧
  (∀ (s : State) (r : MbReq) (w : W32) (h : BitVec 384), s.spdmReq = some r →
    ((∀ k ∈ s.shep.sessions, k.id = w.toNat → k.established = true) → exec (.spdmFinish w h) s = .next (s.spdmError r 0x02)) ∧
    (∀ k, s.shep.sessions.find? (fun k => k.id == w.toNat && !k.established) = some k → ∃ t, exec (.spdmFinish w h) s = .next t ∧ t.mem = s.mem ∧
      t.cmds = s.cmds ∧
      (Config.finishMac k.secret = h.toNat → (∀ x ∈ t.shep.sessions, x.id = k.id → x.established = true) ∧
        t.shep.sessions.length = s.shep.sessions.length ∧
        (s.rf F.trust = 0 → s.rf F.wkSrc = 0 → t.rf F.wkSrc = 2 ∧ t.rf F.wkId = (s.rf F.wkId + 1) % 2 ^ 32) ∧
        (s.rf F.trust ≠ 0 → t.rf F.wkSrc = s.rf F.wkSrc ∧ t.shep.wk = s.shep.wk)) ∧
      (Config.finishMac k.secret ≠ h.toNat → (∀ x ∈ t.shep.sessions, x.id ≠ k.id) ∧ t.hsa.logNext = s.hsa.logNext + 1 ∧
        t.shep.wk = s.shep.wk))) ∧
  (∀ (s : State) (r : MbReq) (w : W32), s.spdmReq = some r →
    ((∃ k ∈ s.shep.sessions, k.id = w.toNat) → ∃ t, exec (.endSession w) s = .next t ∧ (∀ k ∈ t.shep.sessions, k.id ≠ w.toNat) ∧
      (∀ k ∈ s.shep.sessions, k.id ≠ w.toNat → k ∈ t.shep.sessions) ∧ s.regsBut t [F.sessions.off] ∧ t.mem = s.mem) ∧
    ((∀ k ∈ s.shep.sessions, k.id ≠ w.toNat) → exec (.endSession w) s = .next (s.spdmError r 0x02))) ∧
  (∀ (s : State) (i : Instr), s.spdmReq = none → ((∃ b, i = .negotiateAlgorithms b) ∨ (∃ a b c, i = .getCertificate a b c) ∨
      (∃ a b, i = .challenge a b) ∨ (∃ a b c, i = .getMeasurements a b c) ∨ (∃ a b, i = .keyExchange a b) ∨ (∃ a b, i = .spdmFinish a b) ∨
      (∃ a, i = .endSession a) ∨ (∃ a, i = .spdmUnsupportedRequest a) ∨ i ∈ [Instr.getVersion, .getCapabilities, .getDigests]) →
    exec i s = .next s)

/-- The model's own guarantee: where the spec leaves a value open the command runs with a free value, and what the spec gives no effect to changes nothing. -/
def Obligations.NoCommandStopsTheMachine : Prop :=
  (∀ (i : Instr) (s : State), ∃ t, exec i s = .next t) ∧ (∀ s : State, runs s)

/-- R6 with Table 0.2, R323 and the register tables; MXE_RAMP, ATE_CTRL, GRZ_CSB_INLET and SI_CTRL have rules of their own. -/
def Obligations.PlainRegistersTakeTheirWrites : Prop :=
  (∀ (s : State) (path : Path) (off : Offset) (v : W64) (r : RegAt), s.takes path off.toNat = true → regAt off.toNat = some r →
    off.toNat = r.off → r.row.wide = false → off.toNat % 4 = 0 → 0x40 ≤ r.off - r.loc.base →
    r.loc.page ∈ [Page.cl, .mxe, .vxe, .ate, .wdu, .tsq, .grz, .si] →
    (r.loc.page, r.off - r.loc.base) ∉ [(Page.mxe, 0x44), (.ate, 0x40), (.grz, 0x58), (.si, 0x40)] →
    (r.loc.page = .si → s.rb (F.siEn r.loc.idx) = false) →
    ∃ t, exec (.registerWrite path off false v) s = .next t ∧
      (∀ f ∈ r.row.fields, (f.acc = .rw ∨ (f.acc = .rwl ∧ s.pageLocked r.loc = false)) →
        bits (t.reg r.off).toNat f.lo f.w = bits v.toNat f.lo f.w) ∧
      (∀ f ∈ r.row.fields, (f.acc = .ro ∨ (f.acc = .rwl ∧ s.pageLocked r.loc = true)) →
        bits (t.reg r.off).toNat f.lo f.w = bits (s.reg r.off).toNat f.lo f.w) ∧
      s.regsBut t [r.off] ∧ t.mem = s.mem ∧ t.csb = s.csb ∧ t.cmds = s.cmds) ∧
  (∀ (s : State) (path : Path) (v : W64), s.takes path 0x4050 = true →
    ∃ t, exec (.registerWrite path 0x4050 true v) s = .next t ∧
      bits (t.reg 0x4050).toNat 21 31 =
        (if s.pageLocked ⟨.grz, 0, 0x4000⟩ then bits (s.reg 0x4050).toNat 21 31 else bits v.toNat 21 31) ∧
      s.regsBut t [0x4050] ∧ t.mem = s.mem ∧ t.csb = s.csb ∧ t.cmds = s.cmds)

/-- R209, R201 and Table 6.2; R474, R475, R478. -/
def Obligations.ProvisioningAndAllGatherStart : Prop :=
  (∀ (s : State) (path : Path), s.takes path 0x11068 = true → s.rf F.provCount ≠ 0 → s.rf F.provFirst ≠ 0 →
    s.rf F.provFirst + s.rf F.provCount ≤ s.rf F.dirCount →
    (∀ i < s.rf F.provCount, ∃ e, s.dirRaw (s.rf F.provFirst + i) = some e ∧ e.st = 0 ∧
      s.rf F.provFirst + i ∉ s.kvd.fifo ∧ s.rf F.provFirst + i ∉ s.ringIds) →
    s.provCount + s.rf F.provCount ≤ 2 ^ s.rf F.ringLog2 →
    ∃ t, exec (.kvdProvGo path) s = .next t ∧ bit (t.rf (F.evRaw pgKvd)) 0 = true ∧
      t.kvd.ringTail = (s.kvd.ringTail + s.rf F.provCount) % 2 ^ 32 ∧ t.kvd.ringHead = s.kvd.ringHead ∧ t.kvd.fifo = s.kvd.fifo ∧
      t.cmds = s.cmds ∧
      (s.canonical → s.rf F.provCount = 1 → s.encrypts 0 = false →
        (∀ j < 16, ∀ k < 4, (s.dirAddr (s.rf F.provFirst) + j) % 2 ^ 52 ≠ (s.ringAddr s.kvd.ringTail + k) % 2 ^ 52) →
        (t.dirRaw (s.rf F.provFirst)).map (fun e => e.st) = some 1 ∧
        ∀ k < 4, t.byteAt (s.ringAddr s.kvd.ringTail + k) = (natLe 4 (s.rf F.provFirst)).getD k 0)) ∧
  (∀ (s : State) (q : QNum) (c : Cmd) (g : Group), s.phase4 q.val 0x07 = some c → c.coOp = 1 → s.group c.coGroup c.ctx = some g →
    c.coTimeout ≠ 0 → c.coCount ≠ 0 → 1 < g.ranks.length → s.collOf g = none → s.flock.colls.length < 16 →
    (∀ k ∈ s.flock.colls, ¬ (k.qn = c.qn ∧ k.slot = c.slot)) → s.rb (F.inPart c.ctx) = true →
    s.poolGrants .reads (s.rf (F.ctxPart c.ctx)) 256 (c.qn, c.slot, 0) = true → s.rf (F.pReads (s.rf (F.ctxPart c.ctx))) < 2 ^ 14 - 256 →
    g.early.contains (g.at (ringNext c.coRev g.ranks.length g.rank)).1 = false →
    s.routeTo (g.at (ringNext c.coRev g.ranks.length g.rank)).1 ≠ 7 → s.routeTo (g.at (ringPrev c.coRev g.ranks.length g.rank)).1 ≠ 7 →
    ∃ t, exec (.collectiveAllGather q) s = .next t ∧
      t.group c.coGroup c.ctx = some { g with counter := g.counter + 1, early := [] } ∧
      ((t.flock.colls = s.flock.colls ++ [⟨c.qn, c.slot, c.ctx, s.rf (F.ctxPart c.ctx), g.idx, g.counter % 1024, false, 0, 0, [], s.now⟩] ∧
          t.rf (F.pReads (s.rf (F.ctxPart c.ctx))) = s.rf (F.pReads (s.rf (F.ctxPart c.ctx))) + 256 ∧
          t.cmds = (s.setCmd { c with acted := true }).cmds) ∨
        (t.flock.colls = s.flock.colls ∧ t.rf (F.pReads (s.rf (F.ctxPart c.ctx))) = s.rf (F.pReads (s.rf (F.ctxPart c.ctx))) ∧
          ∃ st, st ≠ 0 ∧ ∀ d ∈ t.cmds, d.qn = c.qn → d.slot = c.slot → d.phase = 5 ∧ d.status = st)))

/-- R632 with Tables 19.2 and 19.4, R552 with Table 16.6. -/
def Obligations.PageControlsReachTheirCores : Prop :=
  (∀ (s : State) (path : Path), s.canonical → s.takes path 0x0C = true → s.rb (F.pgQuiesceReq 0) = false →
    ∃ t, exec (.pageQuiesceReq path 0x0C) s = .next t ∧ t.rb (F.pgQuiesceReq 0) = true ∧ ∀ n < 16, bit (t.core n).quiesceReq 0 = true) ∧
  (∀ (s : State) (path : Path) (c : ClId), s.canonical → s.takes path (pgCl c.val + 0x0C) = true → s.rb (F.pgQuiesceReq (pgCl c.val)) = false →
    ∃ t, exec (.pageQuiesceReq path (BitVec.ofNat 26 (pgCl c.val + 0x0C))) s = .next t ∧ t.rb (F.pgQuiesceReq (pgCl c.val)) = true ∧
      ∀ i < 4, bit (t.core (4 * c.val + i)).quiesceReq 0 = true) ∧
  (∀ (s : State) (path : Path), s.canonical → s.takes path 0x0C = true → s.rb (F.pgQuiesceReq 0) = true →
    ∃ t, exec (.pageQuiesceRelease path 0x0C) s = .next t ∧ t.rb (F.pgQuiesceReq 0) = false ∧
      ∀ n < 16, bit (t.core n).quiesceReq 0 = (s.rb (F.pgQuiesceReq (pgCl (n / 4))) || s.rb (F.pgQuiesceReq (pgTsq n)))) ∧
  (∀ (s : State) (path : Path) (n : CoreId) (b m : Nat), (b, m) ∈ [(pgVxe n.val, 2), (pgAte n.val, 4), (pgWdu n.val, 8), (pgTsq n.val, 16),
      (pgShd n.val, 31)] → s.takes path (b + 0x0C) = true → s.domOn (coreDom n.val) = true →
    (s.cluster (n.val / 4)).resetting = false → s.rf F.holdState ≠ 1 →
    ∃ t, exec (.pageResetReq path (BitVec.ofNat 26 (b + 0x0C))) s = .next t ∧ t.rb (F.pgResetReq b) = true ∧
      (t.core n.val).engRst = (s.core n.val).engRst ||| m ∧ t.rb (F.shdEngRst n.val) = true ∧
      (t.core n.val).tile = (s.core n.val).tile ∧ (∀ k, k ≠ n.val → t.core k = s.core k) ∧ t.mem = s.mem ∧ t.cmds = s.cmds) ∧
  (∀ (s : State) (path : Path) (c : ClId), s.takes path (pgCl c.val + 0x0C) = true → s.domOn (clusterDom c.val) = true →
    (s.cluster c.val).resetting = false →
    ∃ t, exec (.pageResetReq path (BitVec.ofNat 26 (pgCl c.val + 0x0C))) s = .next t ∧ t.rb (F.pgResetReq (pgCl c.val)) = true ∧
      t.cluster c.val = { s.cluster c.val with resetting := true } ∧ (∀ k, k ≠ c.val → t.cluster k = s.cluster k) ∧
      (∀ i < 4, t.rb (F.shdClRst (4 * c.val + i)) = true) ∧ (∀ n, (t.core n).tile = (s.core n).tile) ∧ t.mem = s.mem ∧
      t.cmds = s.cmds) ∧
  (∀ (s : State) (path : Path), s.takes path 0x0C = true → ∃ t, exec (.pageResetReq path 0x0C) s = .next t ∧ t.afterReset 7)
end

