-- ==== Sys2Proof/Laws/Tbl.lean ====
section
/-! SUPPORT. What the sparse tables promise: a read after a write to the same key gives the value written, a write leaves
every other key alone, and every operation keeps the canonical form. -/

namespace Sys2Proof.Machine

section
variable {V : Type}

@[simp] theorem tblFind_ins_same (t : List (Nat × V)) (k : Nat) (v : V) : tblFind (tblIns t k v) k = some v := by
  induction t with
  | nil => simp [tblIns, tblFind]
  | cons e t ih =>
    obtain ⟨k', v'⟩ := e
    simp only [tblIns]
    split
    · simp [tblFind]
    · split
      · simp [tblFind]
      · rename_i h _
        simp [tblFind, h, ih]

theorem tblFind_ins_ne (t : List (Nat × V)) {k j : Nat} (v : V) (h : k ≠ j) : tblFind (tblIns t k v) j = tblFind t j := by
  induction t with
  | nil => simp [tblIns, tblFind, h]
  | cons e t ih =>
    obtain ⟨k', v'⟩ := e
    simp only [tblIns]
    split
    · rename_i e
      subst e
      simp [tblFind, h]
    · split
      · simp [tblFind, h]
      · simp [tblFind, ih]

@[simp] theorem tblFind_del_same (t : List (Nat × V)) (k : Nat) : tblFind (tblDel t k) k = none := by
  induction t with
  | nil => simp [tblDel, tblFind]
  | cons e t ih =>
    obtain ⟨k', v'⟩ := e
    simp only [tblDel]
    split
    · exact ih
    · rename_i h
      simp [tblFind, h, ih]

theorem tblFind_del_ne (t : List (Nat × V)) {k j : Nat} (h : k ≠ j) : tblFind (tblDel t k) j = tblFind t j := by
  induction t with
  | nil => simp [tblDel]
  | cons e t ih =>
    obtain ⟨k', v'⟩ := e
    simp only [tblDel]
    split
    · rename_i e
      subst e
      simp [tblFind, h, ih]
    · simp [tblFind, ih]

/-! The canonical form. -/

theorem tblRising_mono {lo hi : Nat} (t : List (Nat × V)) (h : lo ≤ hi) (r : tblRising hi t = true) : tblRising lo t = true := by
  cases t with
  | nil => rfl
  | cons e t =>
    obtain ⟨k, v⟩ := e
    simp only [tblRising, Bool.and_eq_true, decide_eq_true_eq] at r ⊢
    exact ⟨by omega, r.2⟩

theorem tblRising_ins (t : List (Nat × V)) (lo k : Nat) (v : V) (h : lo ≤ k) (r : tblRising lo t = true) :
    tblRising lo (tblIns t k v) = true := by
  induction t generalizing lo with
  | nil => simp [tblIns, tblRising, h]
  | cons e t ih =>
    obtain ⟨k', v'⟩ := e
    simp only [tblRising, Bool.and_eq_true, decide_eq_true_eq] at r
    simp only [tblIns]
    split
    · rename_i e
      subst e
      simp [tblRising, h, r.2]
    · split
      · rename_i hlt
        simp [tblRising, h, r.2]
        omega
      · rename_i hne hlt
        simp only [tblRising, Bool.and_eq_true, decide_eq_true_eq]
        exact ⟨r.1, ih _ (by omega) r.2⟩

theorem tblRising_del (t : List (Nat × V)) (lo k : Nat) (r : tblRising lo t = true) : tblRising lo (tblDel t k) = true := by
  induction t generalizing lo with
  | nil => simp [tblDel, tblRising]
  | cons e t ih =>
    obtain ⟨k', v'⟩ := e
    simp only [tblRising, Bool.and_eq_true, decide_eq_true_eq] at r
    simp only [tblDel]
    split
    · exact tblRising_mono _ (by omega) (ih _ r.2)
    · simp only [tblRising, Bool.and_eq_true, decide_eq_true_eq]
      exact ⟨r.1, ih _ r.2⟩

theorem tblRising_filter (t : List (Nat × V)) (lo : Nat) (p : Nat × V → Bool) (r : tblRising lo t = true) :
    tblRising lo (t.filter p) = true := by
  induction t generalizing lo with
  | nil => simp [tblRising]
  | cons e t ih =>
    obtain ⟨k', v'⟩ := e
    simp only [tblRising, Bool.and_eq_true, decide_eq_true_eq] at r
    simp only [List.filter]
    split
    · simp only [tblRising, Bool.and_eq_true, decide_eq_true_eq]
      exact ⟨r.1, ih _ r.2⟩
    · exact tblRising_mono _ (by omega) (ih _ r.2)

theorem mem_tblIns {t : List (Nat × V)} {k : Nat} {v : V} {e : Nat × V} (h : e ∈ tblIns t k v) : e = (k, v) ∨ e ∈ t := by
  induction t with
  | nil => simpa [tblIns] using h
  | cons e' t ih =>
    obtain ⟨k', v'⟩ := e'
    simp only [tblIns] at h
    split at h
    · simp only [List.mem_cons] at h ⊢
      tauto
    · split at h
      · simp only [List.mem_cons] at h ⊢
        tauto
      · simp only [List.mem_cons] at h ⊢
        rcases h with h | h
        · tauto
        · rcases ih h with h | h <;> tauto

theorem mem_tblDel {t : List (Nat × V)} {k : Nat} {e : Nat × V} (h : e ∈ tblDel t k) : e ∈ t := by
  induction t with
  | nil => simp [tblDel] at h
  | cons e' t ih =>
    obtain ⟨k', v'⟩ := e'
    simp only [tblDel] at h
    split at h
    · exact List.mem_cons_of_mem _ (ih h)
    · simp only [List.mem_cons] at h ⊢
      rcases h with h | h
      · exact .inl h
      · exact .inr (ih h)

variable [DecidableEq V]

/-- Setting a value either unlists the key or lists it. -/
theorem tblPut_eq (d : V) (t : List (Nat × V)) (k : Nat) (v : V) :
    tblPut d t k v = if v = d then tblDel t k else tblIns t k v := by
  cases t <;> simp [tblPut, tblDel, tblIns]

@[simp] theorem tblGet_put_same (d : V) (t : List (Nat × V)) (k : Nat) (v : V) : tblGet d (tblPut d t k v) k = v := by
  simp only [tblGet, tblPut_eq]
  split
  · rename_i h
    simp [h]
  · simp

theorem tblGet_put_ne (d : V) (t : List (Nat × V)) {k j : Nat} (v : V) (h : k ≠ j) :
    tblGet d (tblPut d t k v) j = tblGet d t j := by
  simp only [tblGet, tblPut_eq]
  split
  · rw [tblFind_del_ne t h]
  · rw [tblFind_ins_ne t v h]

theorem tblOk_iff (d : V) (t : List (Nat × V)) : tblOk d t = true ↔ tblRising 0 t = true ∧ ∀ e ∈ t, e.2 ≠ d := by
  simp [tblOk]

/-- Setting a value keeps the canonical form. -/
theorem tblOk_put (d : V) (t : List (Nat × V)) (k : Nat) (v : V) (h : tblOk d t = true) : tblOk d (tblPut d t k v) = true := by
  rw [tblOk_iff] at h ⊢
  simp only [tblPut_eq]
  split
  · exact ⟨tblRising_del _ _ _ h.1, fun e he => h.2 e (mem_tblDel he)⟩
  · rename_i hv
    refine ⟨tblRising_ins _ _ _ _ (Nat.zero_le _) h.1, fun e he => ?_⟩
    rcases mem_tblIns he with rfl | he
    · exact hv
    · exact h.2 e he

/-- Dropping entries keeps the canonical form. -/
theorem tblOk_filter (d : V) (t : List (Nat × V)) (p : Nat × V → Bool) (h : tblOk d t = true) : tblOk d (t.filter p) = true := by
  rw [tblOk_iff] at h ⊢
  exact ⟨tblRising_filter _ _ _ h.1, fun e he => h.2 e (List.mem_of_mem_filter he)⟩

@[simp] theorem tblOk_dropRange (d : V) (t : List (Nat × V)) (lo hi : Nat) (h : tblOk d t = true) :
    tblOk d (tblDropRange t lo hi) = true := tblOk_filter d t _ h

end

end Sys2Proof.Machine
end

