-- ==== Sys2Proof/Laws/Regs.lean ====
section
/-! SUPPORT. What the register file promises: a field read after a write of it gives the value written, and a field that
does not meet the one written keeps its value. -/

namespace Sys2Proof.Machine

/-! Bits of a number. -/

theorem bits_eq (x lo w : Nat) : bits x lo w = x % 2 ^ (lo + w) / 2 ^ lo := by
  rw [bits, Nat.shiftRight_eq_div_pow, Nat.pow_add, Nat.mod_mul_right_div_self]

theorem bits_lt (x lo w : Nat) : bits x lo w < 2 ^ w := Nat.mod_lt _ (Nat.two_pow_pos w)

theorem setBits_low (x lo w v : Nat) : setBits x lo w v % 2 ^ lo = x % 2 ^ lo := by
  have e : setBits x lo w v = x % 2 ^ lo + 2 ^ lo * (v % 2 ^ w + 2 ^ w * (x >>> (lo + w))) := by
    simp only [setBits, Nat.pow_add]
    ring
  rw [e, Nat.add_mul_mod_self_left, Nat.mod_mod]

theorem setBits_at (x lo w v : Nat) : bits (setBits x lo w v) lo w = v % 2 ^ w := by
  have e : setBits x lo w v = x % 2 ^ lo + 2 ^ lo * (v % 2 ^ w + 2 ^ w * (x >>> (lo + w))) := by
    simp only [setBits, Nat.pow_add]
    ring
  rw [bits, Nat.shiftRight_eq_div_pow, e, Nat.add_mul_div_left _ _ (Nat.two_pow_pos lo),
    Nat.div_eq_of_lt (Nat.mod_lt _ (Nat.two_pow_pos lo)), Nat.zero_add, Nat.add_mul_mod_self_left, Nat.mod_mod]

theorem setBits_high (x lo w v : Nat) : setBits x lo w v / 2 ^ (lo + w) = x / 2 ^ (lo + w) := by
  have h1 : x % 2 ^ lo < 2 ^ lo := Nat.mod_lt _ (Nat.two_pow_pos lo)
  have h2 : v % 2 ^ w < 2 ^ w := Nat.mod_lt _ (Nat.two_pow_pos w)
  have h3 : x % 2 ^ lo + v % 2 ^ w * 2 ^ lo < 2 ^ (lo + w) := by
    rw [Nat.pow_add]
    calc x % 2 ^ lo + v % 2 ^ w * 2 ^ lo < 2 ^ lo + v % 2 ^ w * 2 ^ lo := by omega
      _ = 2 ^ lo * (v % 2 ^ w + 1) := by ring
      _ ≤ 2 ^ lo * 2 ^ w := Nat.mul_le_mul_left _ h2
  rw [setBits, Nat.add_mul_div_right _ _ (Nat.two_pow_pos _), Nat.div_eq_of_lt h3, Nat.zero_add, Nat.shiftRight_eq_div_pow]

theorem bits_of_low {x y k : Nat} (h : x % 2 ^ k = y % 2 ^ k) (lo w : Nat) (hk : lo + w ≤ k) : bits x lo w = bits y lo w := by
  have e : ∀ z, z % 2 ^ (lo + w) = z % 2 ^ k % 2 ^ (lo + w) := fun z =>
    (Nat.mod_mod_of_dvd z (Nat.pow_dvd_pow 2 hk)).symm
  rw [bits_eq, bits_eq, e x, e y, h]

theorem bits_of_high {x y k : Nat} (h : x / 2 ^ k = y / 2 ^ k) (lo w : Nat) (hk : k ≤ lo) : bits x lo w = bits y lo w := by
  have e : ∀ z : Nat, z / 2 ^ lo = z / 2 ^ k / 2 ^ (lo - k) := fun z => by
    rw [Nat.div_div_eq_div_mul, ← Nat.pow_add]
    congr 2
    omega
  rw [bits, bits, Nat.shiftRight_eq_div_pow, Nat.shiftRight_eq_div_pow, e x, e y, h]

theorem setBits_apart (x lo w v lo' w' : Nat) (h : lo' + w' ≤ lo ∨ lo + w ≤ lo') :
    bits (setBits x lo w v) lo' w' = bits x lo' w' := by
  rcases h with h | h
  · exact bits_of_low (setBits_low x lo w v) _ _ h
  · exact bits_of_high (setBits_high x lo w v) _ _ h

theorem bits_ofNat64 (x lo w : Nat) (h : lo + w ≤ 64) : bits (BitVec.ofNat 64 x).toNat lo w = bits x lo w :=
  bits_of_low (k := 64) (by simp) _ _ h

/-! Registers. -/

@[simp] theorem State.reg_setReg_same (s : State) (o : Nat) (v : W64) : (s.setReg o v).reg o = v := by
  simp only [State.reg, State.setReg, tblPut_eq]
  split
  · rename_i h
    simp [h]
  · simp

theorem State.reg_setReg_ne (s : State) {o p : Nat} (v : W64) (h : o ≠ p) : (s.setReg o v).reg p = s.reg p := by
  simp only [State.reg, State.setReg, tblPut_eq]
  split
  · rw [tblFind_del_ne _ h]
  · rw [tblFind_ins_ne _ _ h]

/-- Two fields share no bit. -/
abbrev Fld.apart (f g : Fld) : Prop := f.off ≠ g.off ∨ f.lo + f.w ≤ g.lo ∨ g.lo + g.w ≤ f.lo

theorem State.rf_lt (s : State) (f : Fld) : s.rf f < 2 ^ f.w := bits_lt _ _ _

/-- A field reads as the value written, cut to its width. -/
theorem State.rf_wf_same (s : State) (f : Fld) (v : Nat) (h : f.lo + f.w ≤ 64) : (s.wf f v).rf f = v % 2 ^ f.w := by
  simp only [State.rf, State.wf, State.reg_setReg_same]
  rw [bits_ofNat64 _ _ _ h, setBits_at]

/-- A field keeps its value while a field apart from it is written. -/
theorem State.rf_wf_apart (s : State) (f g : Fld) (v : Nat) (h : g.apart f) (hw : f.lo + f.w ≤ 64) :
    (s.wf g v).rf f = s.rf f := by
  simp only [State.rf, State.wf]
  by_cases e : g.off = f.off
  · rw [← e, State.reg_setReg_same, bits_ofNat64 _ _ _ hw, setBits_apart]
    rcases h with h | h | h
    · exact absurd e h
    · exact .inr h
    · exact .inl h
  · rw [State.reg_setReg_ne _ _ e]

/-- A register keeps its value while a field of another register is written. -/
theorem State.reg_wf_ne (s : State) (g : Fld) (v o : Nat) (h : g.off ≠ o) : (s.wf g v).reg o = s.reg o := by
  simp only [State.wf]
  exact State.reg_setReg_ne _ _ h

theorem State.rb_wb_same (s : State) (f : Fld) (v : Bool) (hw : f.w = 1) (h : f.lo + f.w ≤ 64) : (s.wb f v).rb f = v := by
  simp only [State.rb, State.wb, State.rf_wf_same _ _ _ h, hw]
  cases v <;> rfl

theorem State.rf_wb_same (s : State) (f : Fld) (v : Bool) (hw : f.w = 1) (h : f.lo + f.w ≤ 64) : (s.wb f v).rf f = b2n v := by
  simp only [State.wb, State.rf_wf_same _ _ _ h, hw]
  cases v <;> rfl

theorem State.rf_wb_apart (s : State) (f g : Fld) (v : Bool) (h : g.apart f) (hw : f.lo + f.w ≤ 64) :
    (s.wb g v).rf f = s.rf f := State.rf_wf_apart s f g _ h hw

theorem State.rf_inc_same (s : State) (f : Fld) (n : Nat) (h : f.lo + f.w ≤ 64) : (s.inc f n).rf f = (s.rf f + n) % 2 ^ f.w :=
  State.rf_wf_same s f _ h

theorem State.rf_inc_apart (s : State) (f g : Fld) (n : Nat) (h : g.apart f) (hw : f.lo + f.w ≤ 64) :
    (s.inc g n).rf f = s.rf f := State.rf_wf_apart s f g _ h hw

theorem regsOk_iff (t : List (Nat × W64)) : regsOk t = true ↔ tblRising 0 t = true ∧ ∀ e ∈ t, e.2 ≠ resetVal e.1 := by
  simp [regsOk]

/-- Setting a register keeps the canonical form. -/
theorem State.regsOk_setReg (s : State) (o : Nat) (v : W64) (h : regsOk s.regs = true) : regsOk (s.setReg o v).regs = true := by
  rw [regsOk_iff] at h ⊢
  simp only [State.setReg, tblPut_eq]
  split
  · exact ⟨tblRising_del _ _ _ h.1, fun e he => h.2 e (mem_tblDel he)⟩
  · rename_i hv
    refine ⟨tblRising_ins _ _ _ _ (Nat.zero_le _) h.1, fun e he => ?_⟩
    rcases mem_tblIns he with rfl | he
    · exact hv
    · exact h.2 e he

@[simp] theorem regsOk_filter (t : List (Nat × W64)) (p : Nat × W64 → Bool) (h : regsOk t = true) : regsOk (t.filter p) = true := by
  rw [regsOk_iff] at h ⊢
  exact ⟨tblRising_filter _ _ _ h.1, fun e he => h.2 e (List.mem_of_mem_filter he)⟩

/-! Memory. -/

theorem memOk_put (m : List Host.Cell) (a : Nat) (bs : List Byte) (h : tblOk (0 : Byte) m = true) :
    tblOk (0 : Byte) (memPut m a bs) = true := by
  induction bs generalizing m a with
  | nil => exact h
  | cons b bs ih => exact ih _ _ (tblOk_put _ _ _ _ h)

/-- A byte outside the bytes written reads as before. -/
theorem memGet_put_ne (m : List Host.Cell) (a : Nat) (bs : List Byte) (x : Nat)
    (h : ∀ i < bs.length, (a + i) % 2 ^ 52 ≠ x) : tblGet (0 : Byte) (memPut m a bs) x = tblGet (0 : Byte) m x := by
  induction bs generalizing m a with
  | nil => rfl
  | cons b bs ih =>
    rw [memPut, ih]
    · exact tblGet_put_ne _ _ _ (by simpa using h 0 (by simp))
    · intro i hi
      have := h (i + 1) (by simpa using hi)
      rwa [Nat.add_assoc, Nat.add_comm 1 i]

end Sys2Proof.Machine
end

