-- ==== Sys2Proof/Laws/State.lean ====
section
/-! SUPPORT. One lemma for each field of State and each named update: the field is as before. -/

namespace Sys2Proof.Machine

/-! `setReg` changes regs alone. -/

section
variable (s : State) (o : Nat) (v : W64)
@[simp] theorem State.setReg_pending : (s.setReg o v).pending = s.pending := by simp only [State.setReg]
@[simp] theorem State.setReg_wlatch : (s.setReg o v).wlatch = s.wlatch := by simp only [State.setReg]
@[simp] theorem State.setReg_rlatch : (s.setReg o v).rlatch = s.rlatch := by simp only [State.setReg]
@[simp] theorem State.setReg_mem : (s.setReg o v).mem = s.mem := by simp only [State.setReg]
@[simp] theorem State.setReg_poison : (s.setReg o v).poison = s.poison := by simp only [State.setReg]
@[simp] theorem State.setReg_csb : (s.setReg o v).csb = s.csb := by simp only [State.setReg]
@[simp] theorem State.setReg_csbPoison : (s.setReg o v).csbPoison = s.csbPoison := by simp only [State.setReg]
@[simp] theorem State.setReg_csbMap : (s.setReg o v).csbMap = s.csbMap := by simp only [State.setReg]
@[simp] theorem State.setReg_pins : (s.setReg o v).pins = s.pins := by simp only [State.setReg]
@[simp] theorem State.setReg_boot : (s.setReg o v).boot = s.boot := by simp only [State.setReg]
@[simp] theorem State.setReg_hsa : (s.setReg o v).hsa = s.hsa := by simp only [State.setReg]
@[simp] theorem State.setReg_keys : (s.setReg o v).keys = s.keys := by simp only [State.setReg]
@[simp] theorem State.setReg_cmdKeys : (s.setReg o v).cmdKeys = s.cmdKeys := by simp only [State.setReg]
@[simp] theorem State.setReg_queues : (s.setReg o v).queues = s.queues := by simp only [State.setReg]
@[simp] theorem State.setReg_cmds : (s.setReg o v).cmds = s.cmds := by simp only [State.setReg]
@[simp] theorem State.setReg_cores : (s.setReg o v).cores = s.cores := by simp only [State.setReg]
@[simp] theorem State.setReg_clusters : (s.setReg o v).clusters = s.clusters := by simp only [State.setReg]
@[simp] theorem State.setReg_xlt : (s.setReg o v).xlt = s.xlt := by simp only [State.setReg]
@[simp] theorem State.setReg_txns : (s.setReg o v).txns = s.txns := by simp only [State.setReg]
@[simp] theorem State.setReg_waiting : (s.setReg o v).waiting = s.waiting := by simp only [State.setReg]
@[simp] theorem State.setReg_sigs : (s.setReg o v).sigs = s.sigs := by simp only [State.setReg]
@[simp] theorem State.setReg_checked : (s.setReg o v).checked = s.checked := by simp only [State.setReg]
@[simp] theorem State.setReg_kvd : (s.setReg o v).kvd = s.kvd := by simp only [State.setReg]
@[simp] theorem State.setReg_grz : (s.setReg o v).grz = s.grz := by simp only [State.setReg]
@[simp] theorem State.setReg_slow : (s.setReg o v).slow = s.slow := by simp only [State.setReg]
@[simp] theorem State.setReg_closing : (s.setReg o v).closing = s.closing := by simp only [State.setReg]
@[simp] theorem State.setReg_inlets : (s.setReg o v).inlets = s.inlets := by simp only [State.setReg]
@[simp] theorem State.setReg_links : (s.setReg o v).links = s.links := by simp only [State.setReg]
@[simp] theorem State.setReg_flock : (s.setReg o v).flock = s.flock := by simp only [State.setReg]
@[simp] theorem State.setReg_shep : (s.setReg o v).shep = s.shep := by simp only [State.setReg]
@[simp] theorem State.setReg_drovers : (s.setReg o v).drovers = s.drovers := by simp only [State.setReg]
@[simp] theorem State.setReg_pwr : (s.setReg o v).pwr = s.pwr := by simp only [State.setReg]
@[simp] theorem State.setReg_timers : (s.setReg o v).timers = s.timers := by simp only [State.setReg]
@[simp] theorem State.setReg_emu : (s.setReg o v).emu = s.emu := by simp only [State.setReg]
@[simp] theorem State.setReg_free : (s.setReg o v).free = s.free := by simp only [State.setReg]
end

/-! `wf` changes regs alone. -/

section
variable (s : State) (f : Fld) (v : Nat)
@[simp] theorem State.wf_pending : (s.wf f v).pending = s.pending := by simp only [State.wf, State.setReg_pending]
@[simp] theorem State.wf_wlatch : (s.wf f v).wlatch = s.wlatch := by simp only [State.wf, State.setReg_wlatch]
@[simp] theorem State.wf_rlatch : (s.wf f v).rlatch = s.rlatch := by simp only [State.wf, State.setReg_rlatch]
@[simp] theorem State.wf_mem : (s.wf f v).mem = s.mem := by simp only [State.wf, State.setReg_mem]
@[simp] theorem State.wf_poison : (s.wf f v).poison = s.poison := by simp only [State.wf, State.setReg_poison]
@[simp] theorem State.wf_csb : (s.wf f v).csb = s.csb := by simp only [State.wf, State.setReg_csb]
@[simp] theorem State.wf_csbPoison : (s.wf f v).csbPoison = s.csbPoison := by simp only [State.wf, State.setReg_csbPoison]
@[simp] theorem State.wf_csbMap : (s.wf f v).csbMap = s.csbMap := by simp only [State.wf, State.setReg_csbMap]
@[simp] theorem State.wf_pins : (s.wf f v).pins = s.pins := by simp only [State.wf, State.setReg_pins]
@[simp] theorem State.wf_boot : (s.wf f v).boot = s.boot := by simp only [State.wf, State.setReg_boot]
@[simp] theorem State.wf_hsa : (s.wf f v).hsa = s.hsa := by simp only [State.wf, State.setReg_hsa]
@[simp] theorem State.wf_keys : (s.wf f v).keys = s.keys := by simp only [State.wf, State.setReg_keys]
@[simp] theorem State.wf_cmdKeys : (s.wf f v).cmdKeys = s.cmdKeys := by simp only [State.wf, State.setReg_cmdKeys]
@[simp] theorem State.wf_queues : (s.wf f v).queues = s.queues := by simp only [State.wf, State.setReg_queues]
@[simp] theorem State.wf_cmds : (s.wf f v).cmds = s.cmds := by simp only [State.wf, State.setReg_cmds]
@[simp] theorem State.wf_cores : (s.wf f v).cores = s.cores := by simp only [State.wf, State.setReg_cores]
@[simp] theorem State.wf_clusters : (s.wf f v).clusters = s.clusters := by simp only [State.wf, State.setReg_clusters]
@[simp] theorem State.wf_xlt : (s.wf f v).xlt = s.xlt := by simp only [State.wf, State.setReg_xlt]
@[simp] theorem State.wf_txns : (s.wf f v).txns = s.txns := by simp only [State.wf, State.setReg_txns]
@[simp] theorem State.wf_waiting : (s.wf f v).waiting = s.waiting := by simp only [State.wf, State.setReg_waiting]
@[simp] theorem State.wf_sigs : (s.wf f v).sigs = s.sigs := by simp only [State.wf, State.setReg_sigs]
@[simp] theorem State.wf_checked : (s.wf f v).checked = s.checked := by simp only [State.wf, State.setReg_checked]
@[simp] theorem State.wf_kvd : (s.wf f v).kvd = s.kvd := by simp only [State.wf, State.setReg_kvd]
@[simp] theorem State.wf_grz : (s.wf f v).grz = s.grz := by simp only [State.wf, State.setReg_grz]
@[simp] theorem State.wf_slow : (s.wf f v).slow = s.slow := by simp only [State.wf, State.setReg_slow]
@[simp] theorem State.wf_closing : (s.wf f v).closing = s.closing := by simp only [State.wf, State.setReg_closing]
@[simp] theorem State.wf_inlets : (s.wf f v).inlets = s.inlets := by simp only [State.wf, State.setReg_inlets]
@[simp] theorem State.wf_links : (s.wf f v).links = s.links := by simp only [State.wf, State.setReg_links]
@[simp] theorem State.wf_flock : (s.wf f v).flock = s.flock := by simp only [State.wf, State.setReg_flock]
@[simp] theorem State.wf_shep : (s.wf f v).shep = s.shep := by simp only [State.wf, State.setReg_shep]
@[simp] theorem State.wf_drovers : (s.wf f v).drovers = s.drovers := by simp only [State.wf, State.setReg_drovers]
@[simp] theorem State.wf_pwr : (s.wf f v).pwr = s.pwr := by simp only [State.wf, State.setReg_pwr]
@[simp] theorem State.wf_timers : (s.wf f v).timers = s.timers := by simp only [State.wf, State.setReg_timers]
@[simp] theorem State.wf_emu : (s.wf f v).emu = s.emu := by simp only [State.wf, State.setReg_emu]
@[simp] theorem State.wf_free : (s.wf f v).free = s.free := by simp only [State.wf, State.setReg_free]
end

/-! `wb` changes regs alone. -/

section
variable (s : State) (f : Fld) (v : Bool)
@[simp] theorem State.wb_pending : (s.wb f v).pending = s.pending := by simp only [State.wb, State.wf_pending]
@[simp] theorem State.wb_wlatch : (s.wb f v).wlatch = s.wlatch := by simp only [State.wb, State.wf_wlatch]
@[simp] theorem State.wb_rlatch : (s.wb f v).rlatch = s.rlatch := by simp only [State.wb, State.wf_rlatch]
@[simp] theorem State.wb_mem : (s.wb f v).mem = s.mem := by simp only [State.wb, State.wf_mem]
@[simp] theorem State.wb_poison : (s.wb f v).poison = s.poison := by simp only [State.wb, State.wf_poison]
@[simp] theorem State.wb_csb : (s.wb f v).csb = s.csb := by simp only [State.wb, State.wf_csb]
@[simp] theorem State.wb_csbPoison : (s.wb f v).csbPoison = s.csbPoison := by simp only [State.wb, State.wf_csbPoison]
@[simp] theorem State.wb_csbMap : (s.wb f v).csbMap = s.csbMap := by simp only [State.wb, State.wf_csbMap]
@[simp] theorem State.wb_pins : (s.wb f v).pins = s.pins := by simp only [State.wb, State.wf_pins]
@[simp] theorem State.wb_boot : (s.wb f v).boot = s.boot := by simp only [State.wb, State.wf_boot]
@[simp] theorem State.wb_hsa : (s.wb f v).hsa = s.hsa := by simp only [State.wb, State.wf_hsa]
@[simp] theorem State.wb_keys : (s.wb f v).keys = s.keys := by simp only [State.wb, State.wf_keys]
@[simp] theorem State.wb_cmdKeys : (s.wb f v).cmdKeys = s.cmdKeys := by simp only [State.wb, State.wf_cmdKeys]
@[simp] theorem State.wb_queues : (s.wb f v).queues = s.queues := by simp only [State.wb, State.wf_queues]
@[simp] theorem State.wb_cmds : (s.wb f v).cmds = s.cmds := by simp only [State.wb, State.wf_cmds]
@[simp] theorem State.wb_cores : (s.wb f v).cores = s.cores := by simp only [State.wb, State.wf_cores]
@[simp] theorem State.wb_clusters : (s.wb f v).clusters = s.clusters := by simp only [State.wb, State.wf_clusters]
@[simp] theorem State.wb_xlt : (s.wb f v).xlt = s.xlt := by simp only [State.wb, State.wf_xlt]
@[simp] theorem State.wb_txns : (s.wb f v).txns = s.txns := by simp only [State.wb, State.wf_txns]
@[simp] theorem State.wb_waiting : (s.wb f v).waiting = s.waiting := by simp only [State.wb, State.wf_waiting]
@[simp] theorem State.wb_sigs : (s.wb f v).sigs = s.sigs := by simp only [State.wb, State.wf_sigs]
@[simp] theorem State.wb_checked : (s.wb f v).checked = s.checked := by simp only [State.wb, State.wf_checked]
@[simp] theorem State.wb_kvd : (s.wb f v).kvd = s.kvd := by simp only [State.wb, State.wf_kvd]
@[simp] theorem State.wb_grz : (s.wb f v).grz = s.grz := by simp only [State.wb, State.wf_grz]
@[simp] theorem State.wb_slow : (s.wb f v).slow = s.slow := by simp only [State.wb, State.wf_slow]
@[simp] theorem State.wb_closing : (s.wb f v).closing = s.closing := by simp only [State.wb, State.wf_closing]
@[simp] theorem State.wb_inlets : (s.wb f v).inlets = s.inlets := by simp only [State.wb, State.wf_inlets]
@[simp] theorem State.wb_links : (s.wb f v).links = s.links := by simp only [State.wb, State.wf_links]
@[simp] theorem State.wb_flock : (s.wb f v).flock = s.flock := by simp only [State.wb, State.wf_flock]
@[simp] theorem State.wb_shep : (s.wb f v).shep = s.shep := by simp only [State.wb, State.wf_shep]
@[simp] theorem State.wb_drovers : (s.wb f v).drovers = s.drovers := by simp only [State.wb, State.wf_drovers]
@[simp] theorem State.wb_pwr : (s.wb f v).pwr = s.pwr := by simp only [State.wb, State.wf_pwr]
@[simp] theorem State.wb_timers : (s.wb f v).timers = s.timers := by simp only [State.wb, State.wf_timers]
@[simp] theorem State.wb_emu : (s.wb f v).emu = s.emu := by simp only [State.wb, State.wf_emu]
@[simp] theorem State.wb_free : (s.wb f v).free = s.free := by simp only [State.wb, State.wf_free]
end

/-! `inc` changes regs alone. -/

section
variable (s : State) (f : Fld) (n : Nat)
@[simp] theorem State.inc_pending : (s.inc f n).pending = s.pending := by simp only [State.inc, State.wf_pending]
@[simp] theorem State.inc_wlatch : (s.inc f n).wlatch = s.wlatch := by simp only [State.inc, State.wf_wlatch]
@[simp] theorem State.inc_rlatch : (s.inc f n).rlatch = s.rlatch := by simp only [State.inc, State.wf_rlatch]
@[simp] theorem State.inc_mem : (s.inc f n).mem = s.mem := by simp only [State.inc, State.wf_mem]
@[simp] theorem State.inc_poison : (s.inc f n).poison = s.poison := by simp only [State.inc, State.wf_poison]
@[simp] theorem State.inc_csb : (s.inc f n).csb = s.csb := by simp only [State.inc, State.wf_csb]
@[simp] theorem State.inc_csbPoison : (s.inc f n).csbPoison = s.csbPoison := by simp only [State.inc, State.wf_csbPoison]
@[simp] theorem State.inc_csbMap : (s.inc f n).csbMap = s.csbMap := by simp only [State.inc, State.wf_csbMap]
@[simp] theorem State.inc_pins : (s.inc f n).pins = s.pins := by simp only [State.inc, State.wf_pins]
@[simp] theorem State.inc_boot : (s.inc f n).boot = s.boot := by simp only [State.inc, State.wf_boot]
@[simp] theorem State.inc_hsa : (s.inc f n).hsa = s.hsa := by simp only [State.inc, State.wf_hsa]
@[simp] theorem State.inc_keys : (s.inc f n).keys = s.keys := by simp only [State.inc, State.wf_keys]
@[simp] theorem State.inc_cmdKeys : (s.inc f n).cmdKeys = s.cmdKeys := by simp only [State.inc, State.wf_cmdKeys]
@[simp] theorem State.inc_queues : (s.inc f n).queues = s.queues := by simp only [State.inc, State.wf_queues]
@[simp] theorem State.inc_cmds : (s.inc f n).cmds = s.cmds := by simp only [State.inc, State.wf_cmds]
@[simp] theorem State.inc_cores : (s.inc f n).cores = s.cores := by simp only [State.inc, State.wf_cores]
@[simp] theorem State.inc_clusters : (s.inc f n).clusters = s.clusters := by simp only [State.inc, State.wf_clusters]
@[simp] theorem State.inc_xlt : (s.inc f n).xlt = s.xlt := by simp only [State.inc, State.wf_xlt]
@[simp] theorem State.inc_txns : (s.inc f n).txns = s.txns := by simp only [State.inc, State.wf_txns]
@[simp] theorem State.inc_waiting : (s.inc f n).waiting = s.waiting := by simp only [State.inc, State.wf_waiting]
@[simp] theorem State.inc_sigs : (s.inc f n).sigs = s.sigs := by simp only [State.inc, State.wf_sigs]
@[simp] theorem State.inc_checked : (s.inc f n).checked = s.checked := by simp only [State.inc, State.wf_checked]
@[simp] theorem State.inc_kvd : (s.inc f n).kvd = s.kvd := by simp only [State.inc, State.wf_kvd]
@[simp] theorem State.inc_grz : (s.inc f n).grz = s.grz := by simp only [State.inc, State.wf_grz]
@[simp] theorem State.inc_slow : (s.inc f n).slow = s.slow := by simp only [State.inc, State.wf_slow]
@[simp] theorem State.inc_closing : (s.inc f n).closing = s.closing := by simp only [State.inc, State.wf_closing]
@[simp] theorem State.inc_inlets : (s.inc f n).inlets = s.inlets := by simp only [State.inc, State.wf_inlets]
@[simp] theorem State.inc_links : (s.inc f n).links = s.links := by simp only [State.inc, State.wf_links]
@[simp] theorem State.inc_flock : (s.inc f n).flock = s.flock := by simp only [State.inc, State.wf_flock]
@[simp] theorem State.inc_shep : (s.inc f n).shep = s.shep := by simp only [State.inc, State.wf_shep]
@[simp] theorem State.inc_drovers : (s.inc f n).drovers = s.drovers := by simp only [State.inc, State.wf_drovers]
@[simp] theorem State.inc_pwr : (s.inc f n).pwr = s.pwr := by simp only [State.inc, State.wf_pwr]
@[simp] theorem State.inc_timers : (s.inc f n).timers = s.timers := by simp only [State.inc, State.wf_timers]
@[simp] theorem State.inc_emu : (s.inc f n).emu = s.emu := by simp only [State.inc, State.wf_emu]
@[simp] theorem State.inc_free : (s.inc f n).free = s.free := by simp only [State.inc, State.wf_free]
end

/-! `incSat` changes regs alone. -/

section
variable (s : State) (f : Fld) (n : Nat)
@[simp] theorem State.incSat_pending : (s.incSat f n).pending = s.pending := by simp only [State.incSat, State.wf_pending]
@[simp] theorem State.incSat_wlatch : (s.incSat f n).wlatch = s.wlatch := by simp only [State.incSat, State.wf_wlatch]
@[simp] theorem State.incSat_rlatch : (s.incSat f n).rlatch = s.rlatch := by simp only [State.incSat, State.wf_rlatch]
@[simp] theorem State.incSat_mem : (s.incSat f n).mem = s.mem := by simp only [State.incSat, State.wf_mem]
@[simp] theorem State.incSat_poison : (s.incSat f n).poison = s.poison := by simp only [State.incSat, State.wf_poison]
@[simp] theorem State.incSat_csb : (s.incSat f n).csb = s.csb := by simp only [State.incSat, State.wf_csb]
@[simp] theorem State.incSat_csbPoison : (s.incSat f n).csbPoison = s.csbPoison := by simp only [State.incSat, State.wf_csbPoison]
@[simp] theorem State.incSat_csbMap : (s.incSat f n).csbMap = s.csbMap := by simp only [State.incSat, State.wf_csbMap]
@[simp] theorem State.incSat_pins : (s.incSat f n).pins = s.pins := by simp only [State.incSat, State.wf_pins]
@[simp] theorem State.incSat_boot : (s.incSat f n).boot = s.boot := by simp only [State.incSat, State.wf_boot]
@[simp] theorem State.incSat_hsa : (s.incSat f n).hsa = s.hsa := by simp only [State.incSat, State.wf_hsa]
@[simp] theorem State.incSat_keys : (s.incSat f n).keys = s.keys := by simp only [State.incSat, State.wf_keys]
@[simp] theorem State.incSat_cmdKeys : (s.incSat f n).cmdKeys = s.cmdKeys := by simp only [State.incSat, State.wf_cmdKeys]
@[simp] theorem State.incSat_queues : (s.incSat f n).queues = s.queues := by simp only [State.incSat, State.wf_queues]
@[simp] theorem State.incSat_cmds : (s.incSat f n).cmds = s.cmds := by simp only [State.incSat, State.wf_cmds]
@[simp] theorem State.incSat_cores : (s.incSat f n).cores = s.cores := by simp only [State.incSat, State.wf_cores]
@[simp] theorem State.incSat_clusters : (s.incSat f n).clusters = s.clusters := by simp only [State.incSat, State.wf_clusters]
@[simp] theorem State.incSat_xlt : (s.incSat f n).xlt = s.xlt := by simp only [State.incSat, State.wf_xlt]
@[simp] theorem State.incSat_txns : (s.incSat f n).txns = s.txns := by simp only [State.incSat, State.wf_txns]
@[simp] theorem State.incSat_waiting : (s.incSat f n).waiting = s.waiting := by simp only [State.incSat, State.wf_waiting]
@[simp] theorem State.incSat_sigs : (s.incSat f n).sigs = s.sigs := by simp only [State.incSat, State.wf_sigs]
@[simp] theorem State.incSat_checked : (s.incSat f n).checked = s.checked := by simp only [State.incSat, State.wf_checked]
@[simp] theorem State.incSat_kvd : (s.incSat f n).kvd = s.kvd := by simp only [State.incSat, State.wf_kvd]
@[simp] theorem State.incSat_grz : (s.incSat f n).grz = s.grz := by simp only [State.incSat, State.wf_grz]
@[simp] theorem State.incSat_slow : (s.incSat f n).slow = s.slow := by simp only [State.incSat, State.wf_slow]
@[simp] theorem State.incSat_closing : (s.incSat f n).closing = s.closing := by simp only [State.incSat, State.wf_closing]
@[simp] theorem State.incSat_inlets : (s.incSat f n).inlets = s.inlets := by simp only [State.incSat, State.wf_inlets]
@[simp] theorem State.incSat_links : (s.incSat f n).links = s.links := by simp only [State.incSat, State.wf_links]
@[simp] theorem State.incSat_flock : (s.incSat f n).flock = s.flock := by simp only [State.incSat, State.wf_flock]
@[simp] theorem State.incSat_shep : (s.incSat f n).shep = s.shep := by simp only [State.incSat, State.wf_shep]
@[simp] theorem State.incSat_drovers : (s.incSat f n).drovers = s.drovers := by simp only [State.incSat, State.wf_drovers]
@[simp] theorem State.incSat_pwr : (s.incSat f n).pwr = s.pwr := by simp only [State.incSat, State.wf_pwr]
@[simp] theorem State.incSat_timers : (s.incSat f n).timers = s.timers := by simp only [State.incSat, State.wf_timers]
@[simp] theorem State.incSat_emu : (s.incSat f n).emu = s.emu := by simp only [State.incSat, State.wf_emu]
@[simp] theorem State.incSat_free : (s.incSat f n).free = s.free := by simp only [State.incSat, State.wf_free]
end

/-! `setErr` changes regs alone. -/

section
variable (s : State) (b code info addr : Nat)
@[simp] theorem State.setErr_pending : (s.setErr b code info addr).pending = s.pending := by simp only [State.setErr, State.wf_pending]
@[simp] theorem State.setErr_wlatch : (s.setErr b code info addr).wlatch = s.wlatch := by simp only [State.setErr, State.wf_wlatch]
@[simp] theorem State.setErr_rlatch : (s.setErr b code info addr).rlatch = s.rlatch := by simp only [State.setErr, State.wf_rlatch]
@[simp] theorem State.setErr_mem : (s.setErr b code info addr).mem = s.mem := by simp only [State.setErr, State.wf_mem]
@[simp] theorem State.setErr_poison : (s.setErr b code info addr).poison = s.poison := by simp only [State.setErr, State.wf_poison]
@[simp] theorem State.setErr_csb : (s.setErr b code info addr).csb = s.csb := by simp only [State.setErr, State.wf_csb]
@[simp] theorem State.setErr_csbPoison : (s.setErr b code info addr).csbPoison = s.csbPoison := by simp only [State.setErr, State.wf_csbPoison]
@[simp] theorem State.setErr_csbMap : (s.setErr b code info addr).csbMap = s.csbMap := by simp only [State.setErr, State.wf_csbMap]
@[simp] theorem State.setErr_pins : (s.setErr b code info addr).pins = s.pins := by simp only [State.setErr, State.wf_pins]
@[simp] theorem State.setErr_boot : (s.setErr b code info addr).boot = s.boot := by simp only [State.setErr, State.wf_boot]
@[simp] theorem State.setErr_hsa : (s.setErr b code info addr).hsa = s.hsa := by simp only [State.setErr, State.wf_hsa]
@[simp] theorem State.setErr_keys : (s.setErr b code info addr).keys = s.keys := by simp only [State.setErr, State.wf_keys]
@[simp] theorem State.setErr_cmdKeys : (s.setErr b code info addr).cmdKeys = s.cmdKeys := by simp only [State.setErr, State.wf_cmdKeys]
@[simp] theorem State.setErr_queues : (s.setErr b code info addr).queues = s.queues := by simp only [State.setErr, State.wf_queues]
@[simp] theorem State.setErr_cmds : (s.setErr b code info addr).cmds = s.cmds := by simp only [State.setErr, State.wf_cmds]
@[simp] theorem State.setErr_cores : (s.setErr b code info addr).cores = s.cores := by simp only [State.setErr, State.wf_cores]
@[simp] theorem State.setErr_clusters : (s.setErr b code info addr).clusters = s.clusters := by simp only [State.setErr, State.wf_clusters]
@[simp] theorem State.setErr_xlt : (s.setErr b code info addr).xlt = s.xlt := by simp only [State.setErr, State.wf_xlt]
@[simp] theorem State.setErr_txns : (s.setErr b code info addr).txns = s.txns := by simp only [State.setErr, State.wf_txns]
@[simp] theorem State.setErr_waiting : (s.setErr b code info addr).waiting = s.waiting := by simp only [State.setErr, State.wf_waiting]
@[simp] theorem State.setErr_sigs : (s.setErr b code info addr).sigs = s.sigs := by simp only [State.setErr, State.wf_sigs]
@[simp] theorem State.setErr_checked : (s.setErr b code info addr).checked = s.checked := by simp only [State.setErr, State.wf_checked]
@[simp] theorem State.setErr_kvd : (s.setErr b code info addr).kvd = s.kvd := by simp only [State.setErr, State.wf_kvd]
@[simp] theorem State.setErr_grz : (s.setErr b code info addr).grz = s.grz := by simp only [State.setErr, State.wf_grz]
@[simp] theorem State.setErr_slow : (s.setErr b code info addr).slow = s.slow := by simp only [State.setErr, State.wf_slow]
@[simp] theorem State.setErr_closing : (s.setErr b code info addr).closing = s.closing := by simp only [State.setErr, State.wf_closing]
@[simp] theorem State.setErr_inlets : (s.setErr b code info addr).inlets = s.inlets := by simp only [State.setErr, State.wf_inlets]
@[simp] theorem State.setErr_links : (s.setErr b code info addr).links = s.links := by simp only [State.setErr, State.wf_links]
@[simp] theorem State.setErr_flock : (s.setErr b code info addr).flock = s.flock := by simp only [State.setErr, State.wf_flock]
@[simp] theorem State.setErr_shep : (s.setErr b code info addr).shep = s.shep := by simp only [State.setErr, State.wf_shep]
@[simp] theorem State.setErr_drovers : (s.setErr b code info addr).drovers = s.drovers := by simp only [State.setErr, State.wf_drovers]
@[simp] theorem State.setErr_pwr : (s.setErr b code info addr).pwr = s.pwr := by simp only [State.setErr, State.wf_pwr]
@[simp] theorem State.setErr_timers : (s.setErr b code info addr).timers = s.timers := by simp only [State.setErr, State.wf_timers]
@[simp] theorem State.setErr_emu : (s.setErr b code info addr).emu = s.emu := by simp only [State.setErr, State.wf_emu]
@[simp] theorem State.setErr_free : (s.setErr b code info addr).free = s.free := by simp only [State.setErr, State.wf_free]
end

/-! `startT` changes timers alone. -/

section
variable (s : State) (t : Tm)
@[simp] theorem State.startT_pending : (s.startT t).pending = s.pending := by simp only [State.startT]
@[simp] theorem State.startT_regs : (s.startT t).regs = s.regs := by simp only [State.startT]
@[simp] theorem State.startT_wlatch : (s.startT t).wlatch = s.wlatch := by simp only [State.startT]
@[simp] theorem State.startT_rlatch : (s.startT t).rlatch = s.rlatch := by simp only [State.startT]
@[simp] theorem State.startT_mem : (s.startT t).mem = s.mem := by simp only [State.startT]
@[simp] theorem State.startT_poison : (s.startT t).poison = s.poison := by simp only [State.startT]
@[simp] theorem State.startT_csb : (s.startT t).csb = s.csb := by simp only [State.startT]
@[simp] theorem State.startT_csbPoison : (s.startT t).csbPoison = s.csbPoison := by simp only [State.startT]
@[simp] theorem State.startT_csbMap : (s.startT t).csbMap = s.csbMap := by simp only [State.startT]
@[simp] theorem State.startT_pins : (s.startT t).pins = s.pins := by simp only [State.startT]
@[simp] theorem State.startT_boot : (s.startT t).boot = s.boot := by simp only [State.startT]
@[simp] theorem State.startT_hsa : (s.startT t).hsa = s.hsa := by simp only [State.startT]
@[simp] theorem State.startT_keys : (s.startT t).keys = s.keys := by simp only [State.startT]
@[simp] theorem State.startT_cmdKeys : (s.startT t).cmdKeys = s.cmdKeys := by simp only [State.startT]
@[simp] theorem State.startT_queues : (s.startT t).queues = s.queues := by simp only [State.startT]
@[simp] theorem State.startT_cmds : (s.startT t).cmds = s.cmds := by simp only [State.startT]
@[simp] theorem State.startT_cores : (s.startT t).cores = s.cores := by simp only [State.startT]
@[simp] theorem State.startT_clusters : (s.startT t).clusters = s.clusters := by simp only [State.startT]
@[simp] theorem State.startT_xlt : (s.startT t).xlt = s.xlt := by simp only [State.startT]
@[simp] theorem State.startT_txns : (s.startT t).txns = s.txns := by simp only [State.startT]
@[simp] theorem State.startT_waiting : (s.startT t).waiting = s.waiting := by simp only [State.startT]
@[simp] theorem State.startT_sigs : (s.startT t).sigs = s.sigs := by simp only [State.startT]
@[simp] theorem State.startT_checked : (s.startT t).checked = s.checked := by simp only [State.startT]
@[simp] theorem State.startT_kvd : (s.startT t).kvd = s.kvd := by simp only [State.startT]
@[simp] theorem State.startT_grz : (s.startT t).grz = s.grz := by simp only [State.startT]
@[simp] theorem State.startT_slow : (s.startT t).slow = s.slow := by simp only [State.startT]
@[simp] theorem State.startT_closing : (s.startT t).closing = s.closing := by simp only [State.startT]
@[simp] theorem State.startT_inlets : (s.startT t).inlets = s.inlets := by simp only [State.startT]
@[simp] theorem State.startT_links : (s.startT t).links = s.links := by simp only [State.startT]
@[simp] theorem State.startT_flock : (s.startT t).flock = s.flock := by simp only [State.startT]
@[simp] theorem State.startT_shep : (s.startT t).shep = s.shep := by simp only [State.startT]
@[simp] theorem State.startT_drovers : (s.startT t).drovers = s.drovers := by simp only [State.startT]
@[simp] theorem State.startT_pwr : (s.startT t).pwr = s.pwr := by simp only [State.startT]
@[simp] theorem State.startT_emu : (s.startT t).emu = s.emu := by simp only [State.startT]
@[simp] theorem State.startT_free : (s.startT t).free = s.free := by simp only [State.startT]
@[simp] theorem State.startT_rf (f' : Fld) : (s.startT t).rf f' = s.rf f' := by simp only [State.rf, State.reg, State.startT_regs]
@[simp] theorem State.startT_rb (f' : Fld) : (s.startT t).rb f' = s.rb f' := by simp only [State.rb, State.startT_rf]
@[simp] theorem State.startT_reg (o' : Nat) : (s.startT t).reg o' = s.reg o' := by simp only [State.reg, State.startT_regs]
end

/-! `stopT` changes timers alone. -/

section
variable (s : State) (t : Tm)
@[simp] theorem State.stopT_pending : (s.stopT t).pending = s.pending := by simp only [State.stopT]
@[simp] theorem State.stopT_regs : (s.stopT t).regs = s.regs := by simp only [State.stopT]
@[simp] theorem State.stopT_wlatch : (s.stopT t).wlatch = s.wlatch := by simp only [State.stopT]
@[simp] theorem State.stopT_rlatch : (s.stopT t).rlatch = s.rlatch := by simp only [State.stopT]
@[simp] theorem State.stopT_mem : (s.stopT t).mem = s.mem := by simp only [State.stopT]
@[simp] theorem State.stopT_poison : (s.stopT t).poison = s.poison := by simp only [State.stopT]
@[simp] theorem State.stopT_csb : (s.stopT t).csb = s.csb := by simp only [State.stopT]
@[simp] theorem State.stopT_csbPoison : (s.stopT t).csbPoison = s.csbPoison := by simp only [State.stopT]
@[simp] theorem State.stopT_csbMap : (s.stopT t).csbMap = s.csbMap := by simp only [State.stopT]
@[simp] theorem State.stopT_pins : (s.stopT t).pins = s.pins := by simp only [State.stopT]
@[simp] theorem State.stopT_boot : (s.stopT t).boot = s.boot := by simp only [State.stopT]
@[simp] theorem State.stopT_hsa : (s.stopT t).hsa = s.hsa := by simp only [State.stopT]
@[simp] theorem State.stopT_keys : (s.stopT t).keys = s.keys := by simp only [State.stopT]
@[simp] theorem State.stopT_cmdKeys : (s.stopT t).cmdKeys = s.cmdKeys := by simp only [State.stopT]
@[simp] theorem State.stopT_queues : (s.stopT t).queues = s.queues := by simp only [State.stopT]
@[simp] theorem State.stopT_cmds : (s.stopT t).cmds = s.cmds := by simp only [State.stopT]
@[simp] theorem State.stopT_cores : (s.stopT t).cores = s.cores := by simp only [State.stopT]
@[simp] theorem State.stopT_clusters : (s.stopT t).clusters = s.clusters := by simp only [State.stopT]
@[simp] theorem State.stopT_xlt : (s.stopT t).xlt = s.xlt := by simp only [State.stopT]
@[simp] theorem State.stopT_txns : (s.stopT t).txns = s.txns := by simp only [State.stopT]
@[simp] theorem State.stopT_waiting : (s.stopT t).waiting = s.waiting := by simp only [State.stopT]
@[simp] theorem State.stopT_sigs : (s.stopT t).sigs = s.sigs := by simp only [State.stopT]
@[simp] theorem State.stopT_checked : (s.stopT t).checked = s.checked := by simp only [State.stopT]
@[simp] theorem State.stopT_kvd : (s.stopT t).kvd = s.kvd := by simp only [State.stopT]
@[simp] theorem State.stopT_grz : (s.stopT t).grz = s.grz := by simp only [State.stopT]
@[simp] theorem State.stopT_slow : (s.stopT t).slow = s.slow := by simp only [State.stopT]
@[simp] theorem State.stopT_closing : (s.stopT t).closing = s.closing := by simp only [State.stopT]
@[simp] theorem State.stopT_inlets : (s.stopT t).inlets = s.inlets := by simp only [State.stopT]
@[simp] theorem State.stopT_links : (s.stopT t).links = s.links := by simp only [State.stopT]
@[simp] theorem State.stopT_flock : (s.stopT t).flock = s.flock := by simp only [State.stopT]
@[simp] theorem State.stopT_shep : (s.stopT t).shep = s.shep := by simp only [State.stopT]
@[simp] theorem State.stopT_drovers : (s.stopT t).drovers = s.drovers := by simp only [State.stopT]
@[simp] theorem State.stopT_pwr : (s.stopT t).pwr = s.pwr := by simp only [State.stopT]
@[simp] theorem State.stopT_emu : (s.stopT t).emu = s.emu := by simp only [State.stopT]
@[simp] theorem State.stopT_free : (s.stopT t).free = s.free := by simp only [State.stopT]
@[simp] theorem State.stopT_rf (f' : Fld) : (s.stopT t).rf f' = s.rf f' := by simp only [State.rf, State.reg, State.stopT_regs]
@[simp] theorem State.stopT_rb (f' : Fld) : (s.stopT t).rb f' = s.rb f' := by simp only [State.rb, State.stopT_rf]
@[simp] theorem State.stopT_reg (o' : Nat) : (s.stopT t).reg o' = s.reg o' := by simp only [State.reg, State.stopT_regs]
end

/-! `setCore` changes cores alone. -/

section
variable (s : State) (n : Nat) (c : Core)
@[simp] theorem State.setCore_pending : (s.setCore n c).pending = s.pending := by simp only [State.setCore]
@[simp] theorem State.setCore_regs : (s.setCore n c).regs = s.regs := by simp only [State.setCore]
@[simp] theorem State.setCore_wlatch : (s.setCore n c).wlatch = s.wlatch := by simp only [State.setCore]
@[simp] theorem State.setCore_rlatch : (s.setCore n c).rlatch = s.rlatch := by simp only [State.setCore]
@[simp] theorem State.setCore_mem : (s.setCore n c).mem = s.mem := by simp only [State.setCore]
@[simp] theorem State.setCore_poison : (s.setCore n c).poison = s.poison := by simp only [State.setCore]
@[simp] theorem State.setCore_csb : (s.setCore n c).csb = s.csb := by simp only [State.setCore]
@[simp] theorem State.setCore_csbPoison : (s.setCore n c).csbPoison = s.csbPoison := by simp only [State.setCore]
@[simp] theorem State.setCore_csbMap : (s.setCore n c).csbMap = s.csbMap := by simp only [State.setCore]
@[simp] theorem State.setCore_pins : (s.setCore n c).pins = s.pins := by simp only [State.setCore]
@[simp] theorem State.setCore_boot : (s.setCore n c).boot = s.boot := by simp only [State.setCore]
@[simp] theorem State.setCore_hsa : (s.setCore n c).hsa = s.hsa := by simp only [State.setCore]
@[simp] theorem State.setCore_keys : (s.setCore n c).keys = s.keys := by simp only [State.setCore]
@[simp] theorem State.setCore_cmdKeys : (s.setCore n c).cmdKeys = s.cmdKeys := by simp only [State.setCore]
@[simp] theorem State.setCore_queues : (s.setCore n c).queues = s.queues := by simp only [State.setCore]
@[simp] theorem State.setCore_cmds : (s.setCore n c).cmds = s.cmds := by simp only [State.setCore]
@[simp] theorem State.setCore_clusters : (s.setCore n c).clusters = s.clusters := by simp only [State.setCore]
@[simp] theorem State.setCore_xlt : (s.setCore n c).xlt = s.xlt := by simp only [State.setCore]
@[simp] theorem State.setCore_txns : (s.setCore n c).txns = s.txns := by simp only [State.setCore]
@[simp] theorem State.setCore_waiting : (s.setCore n c).waiting = s.waiting := by simp only [State.setCore]
@[simp] theorem State.setCore_sigs : (s.setCore n c).sigs = s.sigs := by simp only [State.setCore]
@[simp] theorem State.setCore_checked : (s.setCore n c).checked = s.checked := by simp only [State.setCore]
@[simp] theorem State.setCore_kvd : (s.setCore n c).kvd = s.kvd := by simp only [State.setCore]
@[simp] theorem State.setCore_grz : (s.setCore n c).grz = s.grz := by simp only [State.setCore]
@[simp] theorem State.setCore_slow : (s.setCore n c).slow = s.slow := by simp only [State.setCore]
@[simp] theorem State.setCore_closing : (s.setCore n c).closing = s.closing := by simp only [State.setCore]
@[simp] theorem State.setCore_inlets : (s.setCore n c).inlets = s.inlets := by simp only [State.setCore]
@[simp] theorem State.setCore_links : (s.setCore n c).links = s.links := by simp only [State.setCore]
@[simp] theorem State.setCore_flock : (s.setCore n c).flock = s.flock := by simp only [State.setCore]
@[simp] theorem State.setCore_shep : (s.setCore n c).shep = s.shep := by simp only [State.setCore]
@[simp] theorem State.setCore_drovers : (s.setCore n c).drovers = s.drovers := by simp only [State.setCore]
@[simp] theorem State.setCore_pwr : (s.setCore n c).pwr = s.pwr := by simp only [State.setCore]
@[simp] theorem State.setCore_timers : (s.setCore n c).timers = s.timers := by simp only [State.setCore]
@[simp] theorem State.setCore_emu : (s.setCore n c).emu = s.emu := by simp only [State.setCore]
@[simp] theorem State.setCore_free : (s.setCore n c).free = s.free := by simp only [State.setCore]
@[simp] theorem State.setCore_rf (f' : Fld) : (s.setCore n c).rf f' = s.rf f' := by simp only [State.rf, State.reg, State.setCore_regs]
@[simp] theorem State.setCore_rb (f' : Fld) : (s.setCore n c).rb f' = s.rb f' := by simp only [State.rb, State.setCore_rf]
@[simp] theorem State.setCore_reg (o' : Nat) : (s.setCore n c).reg o' = s.reg o' := by simp only [State.reg, State.setCore_regs]
end

/-! `modCore` changes cores alone. -/

section
variable (s : State) (n : Nat) (f : Core → Core)
@[simp] theorem State.modCore_pending : (s.modCore n f).pending = s.pending := by simp only [State.modCore, State.setCore_pending]
@[simp] theorem State.modCore_regs : (s.modCore n f).regs = s.regs := by simp only [State.modCore, State.setCore_regs]
@[simp] theorem State.modCore_wlatch : (s.modCore n f).wlatch = s.wlatch := by simp only [State.modCore, State.setCore_wlatch]
@[simp] theorem State.modCore_rlatch : (s.modCore n f).rlatch = s.rlatch := by simp only [State.modCore, State.setCore_rlatch]
@[simp] theorem State.modCore_mem : (s.modCore n f).mem = s.mem := by simp only [State.modCore, State.setCore_mem]
@[simp] theorem State.modCore_poison : (s.modCore n f).poison = s.poison := by simp only [State.modCore, State.setCore_poison]
@[simp] theorem State.modCore_csb : (s.modCore n f).csb = s.csb := by simp only [State.modCore, State.setCore_csb]
@[simp] theorem State.modCore_csbPoison : (s.modCore n f).csbPoison = s.csbPoison := by simp only [State.modCore, State.setCore_csbPoison]
@[simp] theorem State.modCore_csbMap : (s.modCore n f).csbMap = s.csbMap := by simp only [State.modCore, State.setCore_csbMap]
@[simp] theorem State.modCore_pins : (s.modCore n f).pins = s.pins := by simp only [State.modCore, State.setCore_pins]
@[simp] theorem State.modCore_boot : (s.modCore n f).boot = s.boot := by simp only [State.modCore, State.setCore_boot]
@[simp] theorem State.modCore_hsa : (s.modCore n f).hsa = s.hsa := by simp only [State.modCore, State.setCore_hsa]
@[simp] theorem State.modCore_keys : (s.modCore n f).keys = s.keys := by simp only [State.modCore, State.setCore_keys]
@[simp] theorem State.modCore_cmdKeys : (s.modCore n f).cmdKeys = s.cmdKeys := by simp only [State.modCore, State.setCore_cmdKeys]
@[simp] theorem State.modCore_queues : (s.modCore n f).queues = s.queues := by simp only [State.modCore, State.setCore_queues]
@[simp] theorem State.modCore_cmds : (s.modCore n f).cmds = s.cmds := by simp only [State.modCore, State.setCore_cmds]
@[simp] theorem State.modCore_clusters : (s.modCore n f).clusters = s.clusters := by simp only [State.modCore, State.setCore_clusters]
@[simp] theorem State.modCore_xlt : (s.modCore n f).xlt = s.xlt := by simp only [State.modCore, State.setCore_xlt]
@[simp] theorem State.modCore_txns : (s.modCore n f).txns = s.txns := by simp only [State.modCore, State.setCore_txns]
@[simp] theorem State.modCore_waiting : (s.modCore n f).waiting = s.waiting := by simp only [State.modCore, State.setCore_waiting]
@[simp] theorem State.modCore_sigs : (s.modCore n f).sigs = s.sigs := by simp only [State.modCore, State.setCore_sigs]
@[simp] theorem State.modCore_checked : (s.modCore n f).checked = s.checked := by simp only [State.modCore, State.setCore_checked]
@[simp] theorem State.modCore_kvd : (s.modCore n f).kvd = s.kvd := by simp only [State.modCore, State.setCore_kvd]
@[simp] theorem State.modCore_grz : (s.modCore n f).grz = s.grz := by simp only [State.modCore, State.setCore_grz]
@[simp] theorem State.modCore_slow : (s.modCore n f).slow = s.slow := by simp only [State.modCore, State.setCore_slow]
@[simp] theorem State.modCore_closing : (s.modCore n f).closing = s.closing := by simp only [State.modCore, State.setCore_closing]
@[simp] theorem State.modCore_inlets : (s.modCore n f).inlets = s.inlets := by simp only [State.modCore, State.setCore_inlets]
@[simp] theorem State.modCore_links : (s.modCore n f).links = s.links := by simp only [State.modCore, State.setCore_links]
@[simp] theorem State.modCore_flock : (s.modCore n f).flock = s.flock := by simp only [State.modCore, State.setCore_flock]
@[simp] theorem State.modCore_shep : (s.modCore n f).shep = s.shep := by simp only [State.modCore, State.setCore_shep]
@[simp] theorem State.modCore_drovers : (s.modCore n f).drovers = s.drovers := by simp only [State.modCore, State.setCore_drovers]
@[simp] theorem State.modCore_pwr : (s.modCore n f).pwr = s.pwr := by simp only [State.modCore, State.setCore_pwr]
@[simp] theorem State.modCore_timers : (s.modCore n f).timers = s.timers := by simp only [State.modCore, State.setCore_timers]
@[simp] theorem State.modCore_emu : (s.modCore n f).emu = s.emu := by simp only [State.modCore, State.setCore_emu]
@[simp] theorem State.modCore_free : (s.modCore n f).free = s.free := by simp only [State.modCore, State.setCore_free]
@[simp] theorem State.modCore_rf (f' : Fld) : (s.modCore n f).rf f' = s.rf f' := by simp only [State.rf, State.reg, State.modCore_regs]
@[simp] theorem State.modCore_rb (f' : Fld) : (s.modCore n f).rb f' = s.rb f' := by simp only [State.rb, State.modCore_rf]
@[simp] theorem State.modCore_reg (o' : Nat) : (s.modCore n f).reg o' = s.reg o' := by simp only [State.reg, State.modCore_regs]
end

/-! `setCluster` changes clusters alone. -/

section
variable (s : State) (n : Nat) (c : Cluster)
@[simp] theorem State.setCluster_pending : (s.setCluster n c).pending = s.pending := by simp only [State.setCluster]
@[simp] theorem State.setCluster_regs : (s.setCluster n c).regs = s.regs := by simp only [State.setCluster]
@[simp] theorem State.setCluster_wlatch : (s.setCluster n c).wlatch = s.wlatch := by simp only [State.setCluster]
@[simp] theorem State.setCluster_rlatch : (s.setCluster n c).rlatch = s.rlatch := by simp only [State.setCluster]
@[simp] theorem State.setCluster_mem : (s.setCluster n c).mem = s.mem := by simp only [State.setCluster]
@[simp] theorem State.setCluster_poison : (s.setCluster n c).poison = s.poison := by simp only [State.setCluster]
@[simp] theorem State.setCluster_csb : (s.setCluster n c).csb = s.csb := by simp only [State.setCluster]
@[simp] theorem State.setCluster_csbPoison : (s.setCluster n c).csbPoison = s.csbPoison := by simp only [State.setCluster]
@[simp] theorem State.setCluster_csbMap : (s.setCluster n c).csbMap = s.csbMap := by simp only [State.setCluster]
@[simp] theorem State.setCluster_pins : (s.setCluster n c).pins = s.pins := by simp only [State.setCluster]
@[simp] theorem State.setCluster_boot : (s.setCluster n c).boot = s.boot := by simp only [State.setCluster]
@[simp] theorem State.setCluster_hsa : (s.setCluster n c).hsa = s.hsa := by simp only [State.setCluster]
@[simp] theorem State.setCluster_keys : (s.setCluster n c).keys = s.keys := by simp only [State.setCluster]
@[simp] theorem State.setCluster_cmdKeys : (s.setCluster n c).cmdKeys = s.cmdKeys := by simp only [State.setCluster]
@[simp] theorem State.setCluster_queues : (s.setCluster n c).queues = s.queues := by simp only [State.setCluster]
@[simp] theorem State.setCluster_cmds : (s.setCluster n c).cmds = s.cmds := by simp only [State.setCluster]
@[simp] theorem State.setCluster_cores : (s.setCluster n c).cores = s.cores := by simp only [State.setCluster]
@[simp] theorem State.setCluster_xlt : (s.setCluster n c).xlt = s.xlt := by simp only [State.setCluster]
@[simp] theorem State.setCluster_txns : (s.setCluster n c).txns = s.txns := by simp only [State.setCluster]
@[simp] theorem State.setCluster_waiting : (s.setCluster n c).waiting = s.waiting := by simp only [State.setCluster]
@[simp] theorem State.setCluster_sigs : (s.setCluster n c).sigs = s.sigs := by simp only [State.setCluster]
@[simp] theorem State.setCluster_checked : (s.setCluster n c).checked = s.checked := by simp only [State.setCluster]
@[simp] theorem State.setCluster_kvd : (s.setCluster n c).kvd = s.kvd := by simp only [State.setCluster]
@[simp] theorem State.setCluster_grz : (s.setCluster n c).grz = s.grz := by simp only [State.setCluster]
@[simp] theorem State.setCluster_slow : (s.setCluster n c).slow = s.slow := by simp only [State.setCluster]
@[simp] theorem State.setCluster_closing : (s.setCluster n c).closing = s.closing := by simp only [State.setCluster]
@[simp] theorem State.setCluster_inlets : (s.setCluster n c).inlets = s.inlets := by simp only [State.setCluster]
@[simp] theorem State.setCluster_links : (s.setCluster n c).links = s.links := by simp only [State.setCluster]
@[simp] theorem State.setCluster_flock : (s.setCluster n c).flock = s.flock := by simp only [State.setCluster]
@[simp] theorem State.setCluster_shep : (s.setCluster n c).shep = s.shep := by simp only [State.setCluster]
@[simp] theorem State.setCluster_drovers : (s.setCluster n c).drovers = s.drovers := by simp only [State.setCluster]
@[simp] theorem State.setCluster_pwr : (s.setCluster n c).pwr = s.pwr := by simp only [State.setCluster]
@[simp] theorem State.setCluster_timers : (s.setCluster n c).timers = s.timers := by simp only [State.setCluster]
@[simp] theorem State.setCluster_emu : (s.setCluster n c).emu = s.emu := by simp only [State.setCluster]
@[simp] theorem State.setCluster_free : (s.setCluster n c).free = s.free := by simp only [State.setCluster]
@[simp] theorem State.setCluster_rf (f' : Fld) : (s.setCluster n c).rf f' = s.rf f' := by simp only [State.rf, State.reg, State.setCluster_regs]
@[simp] theorem State.setCluster_rb (f' : Fld) : (s.setCluster n c).rb f' = s.rb f' := by simp only [State.rb, State.setCluster_rf]
@[simp] theorem State.setCluster_reg (o' : Nat) : (s.setCluster n c).reg o' = s.reg o' := by simp only [State.reg, State.setCluster_regs]
end

/-! `setLvl` changes pwr alone. -/

section
variable (s : State) (c : Nat) (l : Lvl)
@[simp] theorem State.setLvl_pending : (s.setLvl c l).pending = s.pending := by simp only [State.setLvl]
@[simp] theorem State.setLvl_regs : (s.setLvl c l).regs = s.regs := by simp only [State.setLvl]
@[simp] theorem State.setLvl_wlatch : (s.setLvl c l).wlatch = s.wlatch := by simp only [State.setLvl]
@[simp] theorem State.setLvl_rlatch : (s.setLvl c l).rlatch = s.rlatch := by simp only [State.setLvl]
@[simp] theorem State.setLvl_mem : (s.setLvl c l).mem = s.mem := by simp only [State.setLvl]
@[simp] theorem State.setLvl_poison : (s.setLvl c l).poison = s.poison := by simp only [State.setLvl]
@[simp] theorem State.setLvl_csb : (s.setLvl c l).csb = s.csb := by simp only [State.setLvl]
@[simp] theorem State.setLvl_csbPoison : (s.setLvl c l).csbPoison = s.csbPoison := by simp only [State.setLvl]
@[simp] theorem State.setLvl_csbMap : (s.setLvl c l).csbMap = s.csbMap := by simp only [State.setLvl]
@[simp] theorem State.setLvl_pins : (s.setLvl c l).pins = s.pins := by simp only [State.setLvl]
@[simp] theorem State.setLvl_boot : (s.setLvl c l).boot = s.boot := by simp only [State.setLvl]
@[simp] theorem State.setLvl_hsa : (s.setLvl c l).hsa = s.hsa := by simp only [State.setLvl]
@[simp] theorem State.setLvl_keys : (s.setLvl c l).keys = s.keys := by simp only [State.setLvl]
@[simp] theorem State.setLvl_cmdKeys : (s.setLvl c l).cmdKeys = s.cmdKeys := by simp only [State.setLvl]
@[simp] theorem State.setLvl_queues : (s.setLvl c l).queues = s.queues := by simp only [State.setLvl]
@[simp] theorem State.setLvl_cmds : (s.setLvl c l).cmds = s.cmds := by simp only [State.setLvl]
@[simp] theorem State.setLvl_cores : (s.setLvl c l).cores = s.cores := by simp only [State.setLvl]
@[simp] theorem State.setLvl_clusters : (s.setLvl c l).clusters = s.clusters := by simp only [State.setLvl]
@[simp] theorem State.setLvl_xlt : (s.setLvl c l).xlt = s.xlt := by simp only [State.setLvl]
@[simp] theorem State.setLvl_txns : (s.setLvl c l).txns = s.txns := by simp only [State.setLvl]
@[simp] theorem State.setLvl_waiting : (s.setLvl c l).waiting = s.waiting := by simp only [State.setLvl]
@[simp] theorem State.setLvl_sigs : (s.setLvl c l).sigs = s.sigs := by simp only [State.setLvl]
@[simp] theorem State.setLvl_checked : (s.setLvl c l).checked = s.checked := by simp only [State.setLvl]
@[simp] theorem State.setLvl_kvd : (s.setLvl c l).kvd = s.kvd := by simp only [State.setLvl]
@[simp] theorem State.setLvl_grz : (s.setLvl c l).grz = s.grz := by simp only [State.setLvl]
@[simp] theorem State.setLvl_slow : (s.setLvl c l).slow = s.slow := by simp only [State.setLvl]
@[simp] theorem State.setLvl_closing : (s.setLvl c l).closing = s.closing := by simp only [State.setLvl]
@[simp] theorem State.setLvl_inlets : (s.setLvl c l).inlets = s.inlets := by simp only [State.setLvl]
@[simp] theorem State.setLvl_links : (s.setLvl c l).links = s.links := by simp only [State.setLvl]
@[simp] theorem State.setLvl_flock : (s.setLvl c l).flock = s.flock := by simp only [State.setLvl]
@[simp] theorem State.setLvl_shep : (s.setLvl c l).shep = s.shep := by simp only [State.setLvl]
@[simp] theorem State.setLvl_drovers : (s.setLvl c l).drovers = s.drovers := by simp only [State.setLvl]
@[simp] theorem State.setLvl_timers : (s.setLvl c l).timers = s.timers := by simp only [State.setLvl]
@[simp] theorem State.setLvl_emu : (s.setLvl c l).emu = s.emu := by simp only [State.setLvl]
@[simp] theorem State.setLvl_free : (s.setLvl c l).free = s.free := by simp only [State.setLvl]
@[simp] theorem State.setLvl_rf (f' : Fld) : (s.setLvl c l).rf f' = s.rf f' := by simp only [State.rf, State.reg, State.setLvl_regs]
@[simp] theorem State.setLvl_rb (f' : Fld) : (s.setLvl c l).rb f' = s.rb f' := by simp only [State.rb, State.setLvl_rf]
@[simp] theorem State.setLvl_reg (o' : Nat) : (s.setLvl c l).reg o' = s.reg o' := by simp only [State.reg, State.setLvl_regs]
end

/-! `setQueue` changes queues alone. -/

section
variable (s : State) (q : Nat) (v : Queue)
@[simp] theorem State.setQueue_pending : (s.setQueue q v).pending = s.pending := by simp only [State.setQueue]
@[simp] theorem State.setQueue_regs : (s.setQueue q v).regs = s.regs := by simp only [State.setQueue]
@[simp] theorem State.setQueue_wlatch : (s.setQueue q v).wlatch = s.wlatch := by simp only [State.setQueue]
@[simp] theorem State.setQueue_rlatch : (s.setQueue q v).rlatch = s.rlatch := by simp only [State.setQueue]
@[simp] theorem State.setQueue_mem : (s.setQueue q v).mem = s.mem := by simp only [State.setQueue]
@[simp] theorem State.setQueue_poison : (s.setQueue q v).poison = s.poison := by simp only [State.setQueue]
@[simp] theorem State.setQueue_csb : (s.setQueue q v).csb = s.csb := by simp only [State.setQueue]
@[simp] theorem State.setQueue_csbPoison : (s.setQueue q v).csbPoison = s.csbPoison := by simp only [State.setQueue]
@[simp] theorem State.setQueue_csbMap : (s.setQueue q v).csbMap = s.csbMap := by simp only [State.setQueue]
@[simp] theorem State.setQueue_pins : (s.setQueue q v).pins = s.pins := by simp only [State.setQueue]
@[simp] theorem State.setQueue_boot : (s.setQueue q v).boot = s.boot := by simp only [State.setQueue]
@[simp] theorem State.setQueue_hsa : (s.setQueue q v).hsa = s.hsa := by simp only [State.setQueue]
@[simp] theorem State.setQueue_keys : (s.setQueue q v).keys = s.keys := by simp only [State.setQueue]
@[simp] theorem State.setQueue_cmdKeys : (s.setQueue q v).cmdKeys = s.cmdKeys := by simp only [State.setQueue]
@[simp] theorem State.setQueue_cmds : (s.setQueue q v).cmds = s.cmds := by simp only [State.setQueue]
@[simp] theorem State.setQueue_cores : (s.setQueue q v).cores = s.cores := by simp only [State.setQueue]
@[simp] theorem State.setQueue_clusters : (s.setQueue q v).clusters = s.clusters := by simp only [State.setQueue]
@[simp] theorem State.setQueue_xlt : (s.setQueue q v).xlt = s.xlt := by simp only [State.setQueue]
@[simp] theorem State.setQueue_txns : (s.setQueue q v).txns = s.txns := by simp only [State.setQueue]
@[simp] theorem State.setQueue_waiting : (s.setQueue q v).waiting = s.waiting := by simp only [State.setQueue]
@[simp] theorem State.setQueue_sigs : (s.setQueue q v).sigs = s.sigs := by simp only [State.setQueue]
@[simp] theorem State.setQueue_checked : (s.setQueue q v).checked = s.checked := by simp only [State.setQueue]
@[simp] theorem State.setQueue_kvd : (s.setQueue q v).kvd = s.kvd := by simp only [State.setQueue]
@[simp] theorem State.setQueue_grz : (s.setQueue q v).grz = s.grz := by simp only [State.setQueue]
@[simp] theorem State.setQueue_slow : (s.setQueue q v).slow = s.slow := by simp only [State.setQueue]
@[simp] theorem State.setQueue_closing : (s.setQueue q v).closing = s.closing := by simp only [State.setQueue]
@[simp] theorem State.setQueue_inlets : (s.setQueue q v).inlets = s.inlets := by simp only [State.setQueue]
@[simp] theorem State.setQueue_links : (s.setQueue q v).links = s.links := by simp only [State.setQueue]
@[simp] theorem State.setQueue_flock : (s.setQueue q v).flock = s.flock := by simp only [State.setQueue]
@[simp] theorem State.setQueue_shep : (s.setQueue q v).shep = s.shep := by simp only [State.setQueue]
@[simp] theorem State.setQueue_drovers : (s.setQueue q v).drovers = s.drovers := by simp only [State.setQueue]
@[simp] theorem State.setQueue_pwr : (s.setQueue q v).pwr = s.pwr := by simp only [State.setQueue]
@[simp] theorem State.setQueue_timers : (s.setQueue q v).timers = s.timers := by simp only [State.setQueue]
@[simp] theorem State.setQueue_emu : (s.setQueue q v).emu = s.emu := by simp only [State.setQueue]
@[simp] theorem State.setQueue_free : (s.setQueue q v).free = s.free := by simp only [State.setQueue]
@[simp] theorem State.setQueue_rf (f' : Fld) : (s.setQueue q v).rf f' = s.rf f' := by simp only [State.rf, State.reg, State.setQueue_regs]
@[simp] theorem State.setQueue_rb (f' : Fld) : (s.setQueue q v).rb f' = s.rb f' := by simp only [State.rb, State.setQueue_rf]
@[simp] theorem State.setQueue_reg (o' : Nat) : (s.setQueue q v).reg o' = s.reg o' := by simp only [State.reg, State.setQueue_regs]
end

/-! `modQueue` changes queues alone. -/

section
variable (s : State) (q : Nat) (f : Queue → Queue)
@[simp] theorem State.modQueue_pending : (s.modQueue q f).pending = s.pending := by simp only [State.modQueue, State.setQueue_pending]
@[simp] theorem State.modQueue_regs : (s.modQueue q f).regs = s.regs := by simp only [State.modQueue, State.setQueue_regs]
@[simp] theorem State.modQueue_wlatch : (s.modQueue q f).wlatch = s.wlatch := by simp only [State.modQueue, State.setQueue_wlatch]
@[simp] theorem State.modQueue_rlatch : (s.modQueue q f).rlatch = s.rlatch := by simp only [State.modQueue, State.setQueue_rlatch]
@[simp] theorem State.modQueue_mem : (s.modQueue q f).mem = s.mem := by simp only [State.modQueue, State.setQueue_mem]
@[simp] theorem State.modQueue_poison : (s.modQueue q f).poison = s.poison := by simp only [State.modQueue, State.setQueue_poison]
@[simp] theorem State.modQueue_csb : (s.modQueue q f).csb = s.csb := by simp only [State.modQueue, State.setQueue_csb]
@[simp] theorem State.modQueue_csbPoison : (s.modQueue q f).csbPoison = s.csbPoison := by simp only [State.modQueue, State.setQueue_csbPoison]
@[simp] theorem State.modQueue_csbMap : (s.modQueue q f).csbMap = s.csbMap := by simp only [State.modQueue, State.setQueue_csbMap]
@[simp] theorem State.modQueue_pins : (s.modQueue q f).pins = s.pins := by simp only [State.modQueue, State.setQueue_pins]
@[simp] theorem State.modQueue_boot : (s.modQueue q f).boot = s.boot := by simp only [State.modQueue, State.setQueue_boot]
@[simp] theorem State.modQueue_hsa : (s.modQueue q f).hsa = s.hsa := by simp only [State.modQueue, State.setQueue_hsa]
@[simp] theorem State.modQueue_keys : (s.modQueue q f).keys = s.keys := by simp only [State.modQueue, State.setQueue_keys]
@[simp] theorem State.modQueue_cmdKeys : (s.modQueue q f).cmdKeys = s.cmdKeys := by simp only [State.modQueue, State.setQueue_cmdKeys]
@[simp] theorem State.modQueue_cmds : (s.modQueue q f).cmds = s.cmds := by simp only [State.modQueue, State.setQueue_cmds]
@[simp] theorem State.modQueue_cores : (s.modQueue q f).cores = s.cores := by simp only [State.modQueue, State.setQueue_cores]
@[simp] theorem State.modQueue_clusters : (s.modQueue q f).clusters = s.clusters := by simp only [State.modQueue, State.setQueue_clusters]
@[simp] theorem State.modQueue_xlt : (s.modQueue q f).xlt = s.xlt := by simp only [State.modQueue, State.setQueue_xlt]
@[simp] theorem State.modQueue_txns : (s.modQueue q f).txns = s.txns := by simp only [State.modQueue, State.setQueue_txns]
@[simp] theorem State.modQueue_waiting : (s.modQueue q f).waiting = s.waiting := by simp only [State.modQueue, State.setQueue_waiting]
@[simp] theorem State.modQueue_sigs : (s.modQueue q f).sigs = s.sigs := by simp only [State.modQueue, State.setQueue_sigs]
@[simp] theorem State.modQueue_checked : (s.modQueue q f).checked = s.checked := by simp only [State.modQueue, State.setQueue_checked]
@[simp] theorem State.modQueue_kvd : (s.modQueue q f).kvd = s.kvd := by simp only [State.modQueue, State.setQueue_kvd]
@[simp] theorem State.modQueue_grz : (s.modQueue q f).grz = s.grz := by simp only [State.modQueue, State.setQueue_grz]
@[simp] theorem State.modQueue_slow : (s.modQueue q f).slow = s.slow := by simp only [State.modQueue, State.setQueue_slow]
@[simp] theorem State.modQueue_closing : (s.modQueue q f).closing = s.closing := by simp only [State.modQueue, State.setQueue_closing]
@[simp] theorem State.modQueue_inlets : (s.modQueue q f).inlets = s.inlets := by simp only [State.modQueue, State.setQueue_inlets]
@[simp] theorem State.modQueue_links : (s.modQueue q f).links = s.links := by simp only [State.modQueue, State.setQueue_links]
@[simp] theorem State.modQueue_flock : (s.modQueue q f).flock = s.flock := by simp only [State.modQueue, State.setQueue_flock]
@[simp] theorem State.modQueue_shep : (s.modQueue q f).shep = s.shep := by simp only [State.modQueue, State.setQueue_shep]
@[simp] theorem State.modQueue_drovers : (s.modQueue q f).drovers = s.drovers := by simp only [State.modQueue, State.setQueue_drovers]
@[simp] theorem State.modQueue_pwr : (s.modQueue q f).pwr = s.pwr := by simp only [State.modQueue, State.setQueue_pwr]
@[simp] theorem State.modQueue_timers : (s.modQueue q f).timers = s.timers := by simp only [State.modQueue, State.setQueue_timers]
@[simp] theorem State.modQueue_emu : (s.modQueue q f).emu = s.emu := by simp only [State.modQueue, State.setQueue_emu]
@[simp] theorem State.modQueue_free : (s.modQueue q f).free = s.free := by simp only [State.modQueue, State.setQueue_free]
@[simp] theorem State.modQueue_rf (f' : Fld) : (s.modQueue q f).rf f' = s.rf f' := by simp only [State.rf, State.reg, State.modQueue_regs]
@[simp] theorem State.modQueue_rb (f' : Fld) : (s.modQueue q f).rb f' = s.rb f' := by simp only [State.rb, State.modQueue_rf]
@[simp] theorem State.modQueue_reg (o' : Nat) : (s.modQueue q f).reg o' = s.reg o' := by simp only [State.reg, State.modQueue_regs]
end

/-! `setInlet` changes inlets alone. -/

section
variable (s : State) (n : Nat) (v : Inlet)
@[simp] theorem State.setInlet_pending : (s.setInlet n v).pending = s.pending := by simp only [State.setInlet]
@[simp] theorem State.setInlet_regs : (s.setInlet n v).regs = s.regs := by simp only [State.setInlet]
@[simp] theorem State.setInlet_wlatch : (s.setInlet n v).wlatch = s.wlatch := by simp only [State.setInlet]
@[simp] theorem State.setInlet_rlatch : (s.setInlet n v).rlatch = s.rlatch := by simp only [State.setInlet]
@[simp] theorem State.setInlet_mem : (s.setInlet n v).mem = s.mem := by simp only [State.setInlet]
@[simp] theorem State.setInlet_poison : (s.setInlet n v).poison = s.poison := by simp only [State.setInlet]
@[simp] theorem State.setInlet_csb : (s.setInlet n v).csb = s.csb := by simp only [State.setInlet]
@[simp] theorem State.setInlet_csbPoison : (s.setInlet n v).csbPoison = s.csbPoison := by simp only [State.setInlet]
@[simp] theorem State.setInlet_csbMap : (s.setInlet n v).csbMap = s.csbMap := by simp only [State.setInlet]
@[simp] theorem State.setInlet_pins : (s.setInlet n v).pins = s.pins := by simp only [State.setInlet]
@[simp] theorem State.setInlet_boot : (s.setInlet n v).boot = s.boot := by simp only [State.setInlet]
@[simp] theorem State.setInlet_hsa : (s.setInlet n v).hsa = s.hsa := by simp only [State.setInlet]
@[simp] theorem State.setInlet_keys : (s.setInlet n v).keys = s.keys := by simp only [State.setInlet]
@[simp] theorem State.setInlet_cmdKeys : (s.setInlet n v).cmdKeys = s.cmdKeys := by simp only [State.setInlet]
@[simp] theorem State.setInlet_queues : (s.setInlet n v).queues = s.queues := by simp only [State.setInlet]
@[simp] theorem State.setInlet_cmds : (s.setInlet n v).cmds = s.cmds := by simp only [State.setInlet]
@[simp] theorem State.setInlet_cores : (s.setInlet n v).cores = s.cores := by simp only [State.setInlet]
@[simp] theorem State.setInlet_clusters : (s.setInlet n v).clusters = s.clusters := by simp only [State.setInlet]
@[simp] theorem State.setInlet_xlt : (s.setInlet n v).xlt = s.xlt := by simp only [State.setInlet]
@[simp] theorem State.setInlet_txns : (s.setInlet n v).txns = s.txns := by simp only [State.setInlet]
@[simp] theorem State.setInlet_waiting : (s.setInlet n v).waiting = s.waiting := by simp only [State.setInlet]
@[simp] theorem State.setInlet_sigs : (s.setInlet n v).sigs = s.sigs := by simp only [State.setInlet]
@[simp] theorem State.setInlet_checked : (s.setInlet n v).checked = s.checked := by simp only [State.setInlet]
@[simp] theorem State.setInlet_kvd : (s.setInlet n v).kvd = s.kvd := by simp only [State.setInlet]
@[simp] theorem State.setInlet_grz : (s.setInlet n v).grz = s.grz := by simp only [State.setInlet]
@[simp] theorem State.setInlet_slow : (s.setInlet n v).slow = s.slow := by simp only [State.setInlet]
@[simp] theorem State.setInlet_closing : (s.setInlet n v).closing = s.closing := by simp only [State.setInlet]
@[simp] theorem State.setInlet_links : (s.setInlet n v).links = s.links := by simp only [State.setInlet]
@[simp] theorem State.setInlet_flock : (s.setInlet n v).flock = s.flock := by simp only [State.setInlet]
@[simp] theorem State.setInlet_shep : (s.setInlet n v).shep = s.shep := by simp only [State.setInlet]
@[simp] theorem State.setInlet_drovers : (s.setInlet n v).drovers = s.drovers := by simp only [State.setInlet]
@[simp] theorem State.setInlet_pwr : (s.setInlet n v).pwr = s.pwr := by simp only [State.setInlet]
@[simp] theorem State.setInlet_timers : (s.setInlet n v).timers = s.timers := by simp only [State.setInlet]
@[simp] theorem State.setInlet_emu : (s.setInlet n v).emu = s.emu := by simp only [State.setInlet]
@[simp] theorem State.setInlet_free : (s.setInlet n v).free = s.free := by simp only [State.setInlet]
@[simp] theorem State.setInlet_rf (f' : Fld) : (s.setInlet n v).rf f' = s.rf f' := by simp only [State.rf, State.reg, State.setInlet_regs]
@[simp] theorem State.setInlet_rb (f' : Fld) : (s.setInlet n v).rb f' = s.rb f' := by simp only [State.rb, State.setInlet_rf]
@[simp] theorem State.setInlet_reg (o' : Nat) : (s.setInlet n v).reg o' = s.reg o' := by simp only [State.reg, State.setInlet_regs]
end

/-! `setLink` changes links alone. -/

section
variable (s : State) (n : Nat) (v : Link)
@[simp] theorem State.setLink_pending : (s.setLink n v).pending = s.pending := by simp only [State.setLink]
@[simp] theorem State.setLink_regs : (s.setLink n v).regs = s.regs := by simp only [State.setLink]
@[simp] theorem State.setLink_wlatch : (s.setLink n v).wlatch = s.wlatch := by simp only [State.setLink]
@[simp] theorem State.setLink_rlatch : (s.setLink n v).rlatch = s.rlatch := by simp only [State.setLink]
@[simp] theorem State.setLink_mem : (s.setLink n v).mem = s.mem := by simp only [State.setLink]
@[simp] theorem State.setLink_poison : (s.setLink n v).poison = s.poison := by simp only [State.setLink]
@[simp] theorem State.setLink_csb : (s.setLink n v).csb = s.csb := by simp only [State.setLink]
@[simp] theorem State.setLink_csbPoison : (s.setLink n v).csbPoison = s.csbPoison := by simp only [State.setLink]
@[simp] theorem State.setLink_csbMap : (s.setLink n v).csbMap = s.csbMap := by simp only [State.setLink]
@[simp] theorem State.setLink_pins : (s.setLink n v).pins = s.pins := by simp only [State.setLink]
@[simp] theorem State.setLink_boot : (s.setLink n v).boot = s.boot := by simp only [State.setLink]
@[simp] theorem State.setLink_hsa : (s.setLink n v).hsa = s.hsa := by simp only [State.setLink]
@[simp] theorem State.setLink_keys : (s.setLink n v).keys = s.keys := by simp only [State.setLink]
@[simp] theorem State.setLink_cmdKeys : (s.setLink n v).cmdKeys = s.cmdKeys := by simp only [State.setLink]
@[simp] theorem State.setLink_queues : (s.setLink n v).queues = s.queues := by simp only [State.setLink]
@[simp] theorem State.setLink_cmds : (s.setLink n v).cmds = s.cmds := by simp only [State.setLink]
@[simp] theorem State.setLink_cores : (s.setLink n v).cores = s.cores := by simp only [State.setLink]
@[simp] theorem State.setLink_clusters : (s.setLink n v).clusters = s.clusters := by simp only [State.setLink]
@[simp] theorem State.setLink_xlt : (s.setLink n v).xlt = s.xlt := by simp only [State.setLink]
@[simp] theorem State.setLink_txns : (s.setLink n v).txns = s.txns := by simp only [State.setLink]
@[simp] theorem State.setLink_waiting : (s.setLink n v).waiting = s.waiting := by simp only [State.setLink]
@[simp] theorem State.setLink_sigs : (s.setLink n v).sigs = s.sigs := by simp only [State.setLink]
@[simp] theorem State.setLink_checked : (s.setLink n v).checked = s.checked := by simp only [State.setLink]
@[simp] theorem State.setLink_kvd : (s.setLink n v).kvd = s.kvd := by simp only [State.setLink]
@[simp] theorem State.setLink_grz : (s.setLink n v).grz = s.grz := by simp only [State.setLink]
@[simp] theorem State.setLink_slow : (s.setLink n v).slow = s.slow := by simp only [State.setLink]
@[simp] theorem State.setLink_closing : (s.setLink n v).closing = s.closing := by simp only [State.setLink]
@[simp] theorem State.setLink_inlets : (s.setLink n v).inlets = s.inlets := by simp only [State.setLink]
@[simp] theorem State.setLink_flock : (s.setLink n v).flock = s.flock := by simp only [State.setLink]
@[simp] theorem State.setLink_shep : (s.setLink n v).shep = s.shep := by simp only [State.setLink]
@[simp] theorem State.setLink_drovers : (s.setLink n v).drovers = s.drovers := by simp only [State.setLink]
@[simp] theorem State.setLink_pwr : (s.setLink n v).pwr = s.pwr := by simp only [State.setLink]
@[simp] theorem State.setLink_timers : (s.setLink n v).timers = s.timers := by simp only [State.setLink]
@[simp] theorem State.setLink_emu : (s.setLink n v).emu = s.emu := by simp only [State.setLink]
@[simp] theorem State.setLink_free : (s.setLink n v).free = s.free := by simp only [State.setLink]
@[simp] theorem State.setLink_rf (f' : Fld) : (s.setLink n v).rf f' = s.rf f' := by simp only [State.rf, State.reg, State.setLink_regs]
@[simp] theorem State.setLink_rb (f' : Fld) : (s.setLink n v).rb f' = s.rb f' := by simp only [State.rb, State.setLink_rf]
@[simp] theorem State.setLink_reg (o' : Nat) : (s.setLink n v).reg o' = s.reg o' := by simp only [State.reg, State.setLink_regs]
end

/-! `setDrover` changes drovers alone. -/

section
variable (s : State) (n : Nat) (v : Drover)
@[simp] theorem State.setDrover_pending : (s.setDrover n v).pending = s.pending := by simp only [State.setDrover]
@[simp] theorem State.setDrover_regs : (s.setDrover n v).regs = s.regs := by simp only [State.setDrover]
@[simp] theorem State.setDrover_wlatch : (s.setDrover n v).wlatch = s.wlatch := by simp only [State.setDrover]
@[simp] theorem State.setDrover_rlatch : (s.setDrover n v).rlatch = s.rlatch := by simp only [State.setDrover]
@[simp] theorem State.setDrover_mem : (s.setDrover n v).mem = s.mem := by simp only [State.setDrover]
@[simp] theorem State.setDrover_poison : (s.setDrover n v).poison = s.poison := by simp only [State.setDrover]
@[simp] theorem State.setDrover_csb : (s.setDrover n v).csb = s.csb := by simp only [State.setDrover]
@[simp] theorem State.setDrover_csbPoison : (s.setDrover n v).csbPoison = s.csbPoison := by simp only [State.setDrover]
@[simp] theorem State.setDrover_csbMap : (s.setDrover n v).csbMap = s.csbMap := by simp only [State.setDrover]
@[simp] theorem State.setDrover_pins : (s.setDrover n v).pins = s.pins := by simp only [State.setDrover]
@[simp] theorem State.setDrover_boot : (s.setDrover n v).boot = s.boot := by simp only [State.setDrover]
@[simp] theorem State.setDrover_hsa : (s.setDrover n v).hsa = s.hsa := by simp only [State.setDrover]
@[simp] theorem State.setDrover_keys : (s.setDrover n v).keys = s.keys := by simp only [State.setDrover]
@[simp] theorem State.setDrover_cmdKeys : (s.setDrover n v).cmdKeys = s.cmdKeys := by simp only [State.setDrover]
@[simp] theorem State.setDrover_queues : (s.setDrover n v).queues = s.queues := by simp only [State.setDrover]
@[simp] theorem State.setDrover_cmds : (s.setDrover n v).cmds = s.cmds := by simp only [State.setDrover]
@[simp] theorem State.setDrover_cores : (s.setDrover n v).cores = s.cores := by simp only [State.setDrover]
@[simp] theorem State.setDrover_clusters : (s.setDrover n v).clusters = s.clusters := by simp only [State.setDrover]
@[simp] theorem State.setDrover_xlt : (s.setDrover n v).xlt = s.xlt := by simp only [State.setDrover]
@[simp] theorem State.setDrover_txns : (s.setDrover n v).txns = s.txns := by simp only [State.setDrover]
@[simp] theorem State.setDrover_waiting : (s.setDrover n v).waiting = s.waiting := by simp only [State.setDrover]
@[simp] theorem State.setDrover_sigs : (s.setDrover n v).sigs = s.sigs := by simp only [State.setDrover]
@[simp] theorem State.setDrover_checked : (s.setDrover n v).checked = s.checked := by simp only [State.setDrover]
@[simp] theorem State.setDrover_kvd : (s.setDrover n v).kvd = s.kvd := by simp only [State.setDrover]
@[simp] theorem State.setDrover_grz : (s.setDrover n v).grz = s.grz := by simp only [State.setDrover]
@[simp] theorem State.setDrover_slow : (s.setDrover n v).slow = s.slow := by simp only [State.setDrover]
@[simp] theorem State.setDrover_closing : (s.setDrover n v).closing = s.closing := by simp only [State.setDrover]
@[simp] theorem State.setDrover_inlets : (s.setDrover n v).inlets = s.inlets := by simp only [State.setDrover]
@[simp] theorem State.setDrover_links : (s.setDrover n v).links = s.links := by simp only [State.setDrover]
@[simp] theorem State.setDrover_flock : (s.setDrover n v).flock = s.flock := by simp only [State.setDrover]
@[simp] theorem State.setDrover_shep : (s.setDrover n v).shep = s.shep := by simp only [State.setDrover]
@[simp] theorem State.setDrover_pwr : (s.setDrover n v).pwr = s.pwr := by simp only [State.setDrover]
@[simp] theorem State.setDrover_timers : (s.setDrover n v).timers = s.timers := by simp only [State.setDrover]
@[simp] theorem State.setDrover_emu : (s.setDrover n v).emu = s.emu := by simp only [State.setDrover]
@[simp] theorem State.setDrover_free : (s.setDrover n v).free = s.free := by simp only [State.setDrover]
@[simp] theorem State.setDrover_rf (f' : Fld) : (s.setDrover n v).rf f' = s.rf f' := by simp only [State.rf, State.reg, State.setDrover_regs]
@[simp] theorem State.setDrover_rb (f' : Fld) : (s.setDrover n v).rb f' = s.rb f' := by simp only [State.rb, State.setDrover_rf]
@[simp] theorem State.setDrover_reg (o' : Nat) : (s.setDrover n v).reg o' = s.reg o' := by simp only [State.reg, State.setDrover_regs]
end

/-! `loadRegions` changes drovers alone. -/

section
variable (s : State) (n : Nat)
@[simp] theorem State.loadRegions_pending : (s.loadRegions n).pending = s.pending := by simp only [State.loadRegions, State.setDrover_pending]
@[simp] theorem State.loadRegions_regs : (s.loadRegions n).regs = s.regs := by simp only [State.loadRegions, State.setDrover_regs]
@[simp] theorem State.loadRegions_wlatch : (s.loadRegions n).wlatch = s.wlatch := by simp only [State.loadRegions, State.setDrover_wlatch]
@[simp] theorem State.loadRegions_rlatch : (s.loadRegions n).rlatch = s.rlatch := by simp only [State.loadRegions, State.setDrover_rlatch]
@[simp] theorem State.loadRegions_mem : (s.loadRegions n).mem = s.mem := by simp only [State.loadRegions, State.setDrover_mem]
@[simp] theorem State.loadRegions_poison : (s.loadRegions n).poison = s.poison := by simp only [State.loadRegions, State.setDrover_poison]
@[simp] theorem State.loadRegions_csb : (s.loadRegions n).csb = s.csb := by simp only [State.loadRegions, State.setDrover_csb]
@[simp] theorem State.loadRegions_csbPoison : (s.loadRegions n).csbPoison = s.csbPoison := by simp only [State.loadRegions, State.setDrover_csbPoison]
@[simp] theorem State.loadRegions_csbMap : (s.loadRegions n).csbMap = s.csbMap := by simp only [State.loadRegions, State.setDrover_csbMap]
@[simp] theorem State.loadRegions_pins : (s.loadRegions n).pins = s.pins := by simp only [State.loadRegions, State.setDrover_pins]
@[simp] theorem State.loadRegions_boot : (s.loadRegions n).boot = s.boot := by simp only [State.loadRegions, State.setDrover_boot]
@[simp] theorem State.loadRegions_hsa : (s.loadRegions n).hsa = s.hsa := by simp only [State.loadRegions, State.setDrover_hsa]
@[simp] theorem State.loadRegions_keys : (s.loadRegions n).keys = s.keys := by simp only [State.loadRegions, State.setDrover_keys]
@[simp] theorem State.loadRegions_cmdKeys : (s.loadRegions n).cmdKeys = s.cmdKeys := by simp only [State.loadRegions, State.setDrover_cmdKeys]
@[simp] theorem State.loadRegions_queues : (s.loadRegions n).queues = s.queues := by simp only [State.loadRegions, State.setDrover_queues]
@[simp] theorem State.loadRegions_cmds : (s.loadRegions n).cmds = s.cmds := by simp only [State.loadRegions, State.setDrover_cmds]
@[simp] theorem State.loadRegions_cores : (s.loadRegions n).cores = s.cores := by simp only [State.loadRegions, State.setDrover_cores]
@[simp] theorem State.loadRegions_clusters : (s.loadRegions n).clusters = s.clusters := by simp only [State.loadRegions, State.setDrover_clusters]
@[simp] theorem State.loadRegions_xlt : (s.loadRegions n).xlt = s.xlt := by simp only [State.loadRegions, State.setDrover_xlt]
@[simp] theorem State.loadRegions_txns : (s.loadRegions n).txns = s.txns := by simp only [State.loadRegions, State.setDrover_txns]
@[simp] theorem State.loadRegions_waiting : (s.loadRegions n).waiting = s.waiting := by simp only [State.loadRegions, State.setDrover_waiting]
@[simp] theorem State.loadRegions_sigs : (s.loadRegions n).sigs = s.sigs := by simp only [State.loadRegions, State.setDrover_sigs]
@[simp] theorem State.loadRegions_checked : (s.loadRegions n).checked = s.checked := by simp only [State.loadRegions, State.setDrover_checked]
@[simp] theorem State.loadRegions_kvd : (s.loadRegions n).kvd = s.kvd := by simp only [State.loadRegions, State.setDrover_kvd]
@[simp] theorem State.loadRegions_grz : (s.loadRegions n).grz = s.grz := by simp only [State.loadRegions, State.setDrover_grz]
@[simp] theorem State.loadRegions_slow : (s.loadRegions n).slow = s.slow := by simp only [State.loadRegions, State.setDrover_slow]
@[simp] theorem State.loadRegions_closing : (s.loadRegions n).closing = s.closing := by simp only [State.loadRegions, State.setDrover_closing]
@[simp] theorem State.loadRegions_inlets : (s.loadRegions n).inlets = s.inlets := by simp only [State.loadRegions, State.setDrover_inlets]
@[simp] theorem State.loadRegions_links : (s.loadRegions n).links = s.links := by simp only [State.loadRegions, State.setDrover_links]
@[simp] theorem State.loadRegions_flock : (s.loadRegions n).flock = s.flock := by simp only [State.loadRegions, State.setDrover_flock]
@[simp] theorem State.loadRegions_shep : (s.loadRegions n).shep = s.shep := by simp only [State.loadRegions, State.setDrover_shep]
@[simp] theorem State.loadRegions_pwr : (s.loadRegions n).pwr = s.pwr := by simp only [State.loadRegions, State.setDrover_pwr]
@[simp] theorem State.loadRegions_timers : (s.loadRegions n).timers = s.timers := by simp only [State.loadRegions, State.setDrover_timers]
@[simp] theorem State.loadRegions_emu : (s.loadRegions n).emu = s.emu := by simp only [State.loadRegions, State.setDrover_emu]
@[simp] theorem State.loadRegions_free : (s.loadRegions n).free = s.free := by simp only [State.loadRegions, State.setDrover_free]
@[simp] theorem State.loadRegions_rf (f' : Fld) : (s.loadRegions n).rf f' = s.rf f' := by simp only [State.rf, State.reg, State.loadRegions_regs]
@[simp] theorem State.loadRegions_rb (f' : Fld) : (s.loadRegions n).rb f' = s.rb f' := by simp only [State.rb, State.loadRegions_rf]
@[simp] theorem State.loadRegions_reg (o' : Nat) : (s.loadRegions n).reg o' = s.reg o' := by simp only [State.reg, State.loadRegions_regs]
end

/-! `enterComponent` changes drovers alone. -/

section
variable (s : State) (n k : Nat)
@[simp] theorem State.enterComponent_pending : (s.enterComponent n k).pending = s.pending := by simp only [State.enterComponent, State.setDrover_pending]
@[simp] theorem State.enterComponent_regs : (s.enterComponent n k).regs = s.regs := by simp only [State.enterComponent, State.setDrover_regs]
@[simp] theorem State.enterComponent_wlatch : (s.enterComponent n k).wlatch = s.wlatch := by simp only [State.enterComponent, State.setDrover_wlatch]
@[simp] theorem State.enterComponent_rlatch : (s.enterComponent n k).rlatch = s.rlatch := by simp only [State.enterComponent, State.setDrover_rlatch]
@[simp] theorem State.enterComponent_mem : (s.enterComponent n k).mem = s.mem := by simp only [State.enterComponent, State.setDrover_mem]
@[simp] theorem State.enterComponent_poison : (s.enterComponent n k).poison = s.poison := by simp only [State.enterComponent, State.setDrover_poison]
@[simp] theorem State.enterComponent_csb : (s.enterComponent n k).csb = s.csb := by simp only [State.enterComponent, State.setDrover_csb]
@[simp] theorem State.enterComponent_csbPoison : (s.enterComponent n k).csbPoison = s.csbPoison := by simp only [State.enterComponent, State.setDrover_csbPoison]
@[simp] theorem State.enterComponent_csbMap : (s.enterComponent n k).csbMap = s.csbMap := by simp only [State.enterComponent, State.setDrover_csbMap]
@[simp] theorem State.enterComponent_pins : (s.enterComponent n k).pins = s.pins := by simp only [State.enterComponent, State.setDrover_pins]
@[simp] theorem State.enterComponent_boot : (s.enterComponent n k).boot = s.boot := by simp only [State.enterComponent, State.setDrover_boot]
@[simp] theorem State.enterComponent_hsa : (s.enterComponent n k).hsa = s.hsa := by simp only [State.enterComponent, State.setDrover_hsa]
@[simp] theorem State.enterComponent_keys : (s.enterComponent n k).keys = s.keys := by simp only [State.enterComponent, State.setDrover_keys]
@[simp] theorem State.enterComponent_cmdKeys : (s.enterComponent n k).cmdKeys = s.cmdKeys := by simp only [State.enterComponent, State.setDrover_cmdKeys]
@[simp] theorem State.enterComponent_queues : (s.enterComponent n k).queues = s.queues := by simp only [State.enterComponent, State.setDrover_queues]
@[simp] theorem State.enterComponent_cmds : (s.enterComponent n k).cmds = s.cmds := by simp only [State.enterComponent, State.setDrover_cmds]
@[simp] theorem State.enterComponent_cores : (s.enterComponent n k).cores = s.cores := by simp only [State.enterComponent, State.setDrover_cores]
@[simp] theorem State.enterComponent_clusters : (s.enterComponent n k).clusters = s.clusters := by simp only [State.enterComponent, State.setDrover_clusters]
@[simp] theorem State.enterComponent_xlt : (s.enterComponent n k).xlt = s.xlt := by simp only [State.enterComponent, State.setDrover_xlt]
@[simp] theorem State.enterComponent_txns : (s.enterComponent n k).txns = s.txns := by simp only [State.enterComponent, State.setDrover_txns]
@[simp] theorem State.enterComponent_waiting : (s.enterComponent n k).waiting = s.waiting := by simp only [State.enterComponent, State.setDrover_waiting]
@[simp] theorem State.enterComponent_sigs : (s.enterComponent n k).sigs = s.sigs := by simp only [State.enterComponent, State.setDrover_sigs]
@[simp] theorem State.enterComponent_checked : (s.enterComponent n k).checked = s.checked := by simp only [State.enterComponent, State.setDrover_checked]
@[simp] theorem State.enterComponent_kvd : (s.enterComponent n k).kvd = s.kvd := by simp only [State.enterComponent, State.setDrover_kvd]
@[simp] theorem State.enterComponent_grz : (s.enterComponent n k).grz = s.grz := by simp only [State.enterComponent, State.setDrover_grz]
@[simp] theorem State.enterComponent_slow : (s.enterComponent n k).slow = s.slow := by simp only [State.enterComponent, State.setDrover_slow]
@[simp] theorem State.enterComponent_closing : (s.enterComponent n k).closing = s.closing := by simp only [State.enterComponent, State.setDrover_closing]
@[simp] theorem State.enterComponent_inlets : (s.enterComponent n k).inlets = s.inlets := by simp only [State.enterComponent, State.setDrover_inlets]
@[simp] theorem State.enterComponent_links : (s.enterComponent n k).links = s.links := by simp only [State.enterComponent, State.setDrover_links]
@[simp] theorem State.enterComponent_flock : (s.enterComponent n k).flock = s.flock := by simp only [State.enterComponent, State.setDrover_flock]
@[simp] theorem State.enterComponent_shep : (s.enterComponent n k).shep = s.shep := by simp only [State.enterComponent, State.setDrover_shep]
@[simp] theorem State.enterComponent_pwr : (s.enterComponent n k).pwr = s.pwr := by simp only [State.enterComponent, State.setDrover_pwr]
@[simp] theorem State.enterComponent_timers : (s.enterComponent n k).timers = s.timers := by simp only [State.enterComponent, State.setDrover_timers]
@[simp] theorem State.enterComponent_emu : (s.enterComponent n k).emu = s.emu := by simp only [State.enterComponent, State.setDrover_emu]
@[simp] theorem State.enterComponent_free : (s.enterComponent n k).free = s.free := by simp only [State.enterComponent, State.setDrover_free]
@[simp] theorem State.enterComponent_rf (f' : Fld) : (s.enterComponent n k).rf f' = s.rf f' := by simp only [State.rf, State.reg, State.enterComponent_regs]
@[simp] theorem State.enterComponent_rb (f' : Fld) : (s.enterComponent n k).rb f' = s.rb f' := by simp only [State.rb, State.enterComponent_rf]
@[simp] theorem State.enterComponent_reg (o' : Nat) : (s.enterComponent n k).reg o' = s.reg o' := by simp only [State.reg, State.enterComponent_regs]
end

/-! `duty` changes drovers alone. -/

section
variable (s : State) (n : Nat)
@[simp] theorem State.duty_pending : (s.duty n).pending = s.pending := by simp only [State.duty, State.enterComponent_pending]
@[simp] theorem State.duty_regs : (s.duty n).regs = s.regs := by simp only [State.duty, State.enterComponent_regs]
@[simp] theorem State.duty_wlatch : (s.duty n).wlatch = s.wlatch := by simp only [State.duty, State.enterComponent_wlatch]
@[simp] theorem State.duty_rlatch : (s.duty n).rlatch = s.rlatch := by simp only [State.duty, State.enterComponent_rlatch]
@[simp] theorem State.duty_mem : (s.duty n).mem = s.mem := by simp only [State.duty, State.enterComponent_mem]
@[simp] theorem State.duty_poison : (s.duty n).poison = s.poison := by simp only [State.duty, State.enterComponent_poison]
@[simp] theorem State.duty_csb : (s.duty n).csb = s.csb := by simp only [State.duty, State.enterComponent_csb]
@[simp] theorem State.duty_csbPoison : (s.duty n).csbPoison = s.csbPoison := by simp only [State.duty, State.enterComponent_csbPoison]
@[simp] theorem State.duty_csbMap : (s.duty n).csbMap = s.csbMap := by simp only [State.duty, State.enterComponent_csbMap]
@[simp] theorem State.duty_pins : (s.duty n).pins = s.pins := by simp only [State.duty, State.enterComponent_pins]
@[simp] theorem State.duty_boot : (s.duty n).boot = s.boot := by simp only [State.duty, State.enterComponent_boot]
@[simp] theorem State.duty_hsa : (s.duty n).hsa = s.hsa := by simp only [State.duty, State.enterComponent_hsa]
@[simp] theorem State.duty_keys : (s.duty n).keys = s.keys := by simp only [State.duty, State.enterComponent_keys]
@[simp] theorem State.duty_cmdKeys : (s.duty n).cmdKeys = s.cmdKeys := by simp only [State.duty, State.enterComponent_cmdKeys]
@[simp] theorem State.duty_queues : (s.duty n).queues = s.queues := by simp only [State.duty, State.enterComponent_queues]
@[simp] theorem State.duty_cmds : (s.duty n).cmds = s.cmds := by simp only [State.duty, State.enterComponent_cmds]
@[simp] theorem State.duty_cores : (s.duty n).cores = s.cores := by simp only [State.duty, State.enterComponent_cores]
@[simp] theorem State.duty_clusters : (s.duty n).clusters = s.clusters := by simp only [State.duty, State.enterComponent_clusters]
@[simp] theorem State.duty_xlt : (s.duty n).xlt = s.xlt := by simp only [State.duty, State.enterComponent_xlt]
@[simp] theorem State.duty_txns : (s.duty n).txns = s.txns := by simp only [State.duty, State.enterComponent_txns]
@[simp] theorem State.duty_waiting : (s.duty n).waiting = s.waiting := by simp only [State.duty, State.enterComponent_waiting]
@[simp] theorem State.duty_sigs : (s.duty n).sigs = s.sigs := by simp only [State.duty, State.enterComponent_sigs]
@[simp] theorem State.duty_checked : (s.duty n).checked = s.checked := by simp only [State.duty, State.enterComponent_checked]
@[simp] theorem State.duty_kvd : (s.duty n).kvd = s.kvd := by simp only [State.duty, State.enterComponent_kvd]
@[simp] theorem State.duty_grz : (s.duty n).grz = s.grz := by simp only [State.duty, State.enterComponent_grz]
@[simp] theorem State.duty_slow : (s.duty n).slow = s.slow := by simp only [State.duty, State.enterComponent_slow]
@[simp] theorem State.duty_closing : (s.duty n).closing = s.closing := by simp only [State.duty, State.enterComponent_closing]
@[simp] theorem State.duty_inlets : (s.duty n).inlets = s.inlets := by simp only [State.duty, State.enterComponent_inlets]
@[simp] theorem State.duty_links : (s.duty n).links = s.links := by simp only [State.duty, State.enterComponent_links]
@[simp] theorem State.duty_flock : (s.duty n).flock = s.flock := by simp only [State.duty, State.enterComponent_flock]
@[simp] theorem State.duty_shep : (s.duty n).shep = s.shep := by simp only [State.duty, State.enterComponent_shep]
@[simp] theorem State.duty_pwr : (s.duty n).pwr = s.pwr := by simp only [State.duty, State.enterComponent_pwr]
@[simp] theorem State.duty_timers : (s.duty n).timers = s.timers := by simp only [State.duty, State.enterComponent_timers]
@[simp] theorem State.duty_emu : (s.duty n).emu = s.emu := by simp only [State.duty, State.enterComponent_emu]
@[simp] theorem State.duty_free : (s.duty n).free = s.free := by simp only [State.duty, State.enterComponent_free]
@[simp] theorem State.duty_rf (f' : Fld) : (s.duty n).rf f' = s.rf f' := by simp only [State.rf, State.reg, State.duty_regs]
@[simp] theorem State.duty_rb (f' : Fld) : (s.duty n).rb f' = s.rb f' := by simp only [State.rb, State.duty_rf]
@[simp] theorem State.duty_reg (o' : Nat) : (s.duty n).reg o' = s.reg o' := by simp only [State.reg, State.duty_regs]
end

/-! `setSlow` changes slow alone. -/

section
variable (s : State) (c : Nat) (v : Slow)
@[simp] theorem State.setSlow_pending : (s.setSlow c v).pending = s.pending := by simp only [State.setSlow]
@[simp] theorem State.setSlow_regs : (s.setSlow c v).regs = s.regs := by simp only [State.setSlow]
@[simp] theorem State.setSlow_wlatch : (s.setSlow c v).wlatch = s.wlatch := by simp only [State.setSlow]
@[simp] theorem State.setSlow_rlatch : (s.setSlow c v).rlatch = s.rlatch := by simp only [State.setSlow]
@[simp] theorem State.setSlow_mem : (s.setSlow c v).mem = s.mem := by simp only [State.setSlow]
@[simp] theorem State.setSlow_poison : (s.setSlow c v).poison = s.poison := by simp only [State.setSlow]
@[simp] theorem State.setSlow_csb : (s.setSlow c v).csb = s.csb := by simp only [State.setSlow]
@[simp] theorem State.setSlow_csbPoison : (s.setSlow c v).csbPoison = s.csbPoison := by simp only [State.setSlow]
@[simp] theorem State.setSlow_csbMap : (s.setSlow c v).csbMap = s.csbMap := by simp only [State.setSlow]
@[simp] theorem State.setSlow_pins : (s.setSlow c v).pins = s.pins := by simp only [State.setSlow]
@[simp] theorem State.setSlow_boot : (s.setSlow c v).boot = s.boot := by simp only [State.setSlow]
@[simp] theorem State.setSlow_hsa : (s.setSlow c v).hsa = s.hsa := by simp only [State.setSlow]
@[simp] theorem State.setSlow_keys : (s.setSlow c v).keys = s.keys := by simp only [State.setSlow]
@[simp] theorem State.setSlow_cmdKeys : (s.setSlow c v).cmdKeys = s.cmdKeys := by simp only [State.setSlow]
@[simp] theorem State.setSlow_queues : (s.setSlow c v).queues = s.queues := by simp only [State.setSlow]
@[simp] theorem State.setSlow_cmds : (s.setSlow c v).cmds = s.cmds := by simp only [State.setSlow]
@[simp] theorem State.setSlow_cores : (s.setSlow c v).cores = s.cores := by simp only [State.setSlow]
@[simp] theorem State.setSlow_clusters : (s.setSlow c v).clusters = s.clusters := by simp only [State.setSlow]
@[simp] theorem State.setSlow_xlt : (s.setSlow c v).xlt = s.xlt := by simp only [State.setSlow]
@[simp] theorem State.setSlow_txns : (s.setSlow c v).txns = s.txns := by simp only [State.setSlow]
@[simp] theorem State.setSlow_waiting : (s.setSlow c v).waiting = s.waiting := by simp only [State.setSlow]
@[simp] theorem State.setSlow_sigs : (s.setSlow c v).sigs = s.sigs := by simp only [State.setSlow]
@[simp] theorem State.setSlow_checked : (s.setSlow c v).checked = s.checked := by simp only [State.setSlow]
@[simp] theorem State.setSlow_kvd : (s.setSlow c v).kvd = s.kvd := by simp only [State.setSlow]
@[simp] theorem State.setSlow_grz : (s.setSlow c v).grz = s.grz := by simp only [State.setSlow]
@[simp] theorem State.setSlow_closing : (s.setSlow c v).closing = s.closing := by simp only [State.setSlow]
@[simp] theorem State.setSlow_inlets : (s.setSlow c v).inlets = s.inlets := by simp only [State.setSlow]
@[simp] theorem State.setSlow_links : (s.setSlow c v).links = s.links := by simp only [State.setSlow]
@[simp] theorem State.setSlow_flock : (s.setSlow c v).flock = s.flock := by simp only [State.setSlow]
@[simp] theorem State.setSlow_shep : (s.setSlow c v).shep = s.shep := by simp only [State.setSlow]
@[simp] theorem State.setSlow_drovers : (s.setSlow c v).drovers = s.drovers := by simp only [State.setSlow]
@[simp] theorem State.setSlow_pwr : (s.setSlow c v).pwr = s.pwr := by simp only [State.setSlow]
@[simp] theorem State.setSlow_timers : (s.setSlow c v).timers = s.timers := by simp only [State.setSlow]
@[simp] theorem State.setSlow_emu : (s.setSlow c v).emu = s.emu := by simp only [State.setSlow]
@[simp] theorem State.setSlow_free : (s.setSlow c v).free = s.free := by simp only [State.setSlow]
@[simp] theorem State.setSlow_rf (f' : Fld) : (s.setSlow c v).rf f' = s.rf f' := by simp only [State.rf, State.reg, State.setSlow_regs]
@[simp] theorem State.setSlow_rb (f' : Fld) : (s.setSlow c v).rb f' = s.rb f' := by simp only [State.rb, State.setSlow_rf]
@[simp] theorem State.setSlow_reg (o' : Nat) : (s.setSlow c v).reg o' = s.reg o' := by simp only [State.reg, State.setSlow_regs]
end

/-! `setPoison` changes poison alone. -/

section
variable (s : State) (a : Nat) (p : Bool)
@[simp] theorem State.setPoison_pending : (s.setPoison a p).pending = s.pending := by simp only [State.setPoison]
@[simp] theorem State.setPoison_regs : (s.setPoison a p).regs = s.regs := by simp only [State.setPoison]
@[simp] theorem State.setPoison_wlatch : (s.setPoison a p).wlatch = s.wlatch := by simp only [State.setPoison]
@[simp] theorem State.setPoison_rlatch : (s.setPoison a p).rlatch = s.rlatch := by simp only [State.setPoison]
@[simp] theorem State.setPoison_mem : (s.setPoison a p).mem = s.mem := by simp only [State.setPoison]
@[simp] theorem State.setPoison_csb : (s.setPoison a p).csb = s.csb := by simp only [State.setPoison]
@[simp] theorem State.setPoison_csbPoison : (s.setPoison a p).csbPoison = s.csbPoison := by simp only [State.setPoison]
@[simp] theorem State.setPoison_csbMap : (s.setPoison a p).csbMap = s.csbMap := by simp only [State.setPoison]
@[simp] theorem State.setPoison_pins : (s.setPoison a p).pins = s.pins := by simp only [State.setPoison]
@[simp] theorem State.setPoison_boot : (s.setPoison a p).boot = s.boot := by simp only [State.setPoison]
@[simp] theorem State.setPoison_hsa : (s.setPoison a p).hsa = s.hsa := by simp only [State.setPoison]
@[simp] theorem State.setPoison_keys : (s.setPoison a p).keys = s.keys := by simp only [State.setPoison]
@[simp] theorem State.setPoison_cmdKeys : (s.setPoison a p).cmdKeys = s.cmdKeys := by simp only [State.setPoison]
@[simp] theorem State.setPoison_queues : (s.setPoison a p).queues = s.queues := by simp only [State.setPoison]
@[simp] theorem State.setPoison_cmds : (s.setPoison a p).cmds = s.cmds := by simp only [State.setPoison]
@[simp] theorem State.setPoison_cores : (s.setPoison a p).cores = s.cores := by simp only [State.setPoison]
@[simp] theorem State.setPoison_clusters : (s.setPoison a p).clusters = s.clusters := by simp only [State.setPoison]
@[simp] theorem State.setPoison_xlt : (s.setPoison a p).xlt = s.xlt := by simp only [State.setPoison]
@[simp] theorem State.setPoison_txns : (s.setPoison a p).txns = s.txns := by simp only [State.setPoison]
@[simp] theorem State.setPoison_waiting : (s.setPoison a p).waiting = s.waiting := by simp only [State.setPoison]
@[simp] theorem State.setPoison_sigs : (s.setPoison a p).sigs = s.sigs := by simp only [State.setPoison]
@[simp] theorem State.setPoison_checked : (s.setPoison a p).checked = s.checked := by simp only [State.setPoison]
@[simp] theorem State.setPoison_kvd : (s.setPoison a p).kvd = s.kvd := by simp only [State.setPoison]
@[simp] theorem State.setPoison_grz : (s.setPoison a p).grz = s.grz := by simp only [State.setPoison]
@[simp] theorem State.setPoison_slow : (s.setPoison a p).slow = s.slow := by simp only [State.setPoison]
@[simp] theorem State.setPoison_closing : (s.setPoison a p).closing = s.closing := by simp only [State.setPoison]
@[simp] theorem State.setPoison_inlets : (s.setPoison a p).inlets = s.inlets := by simp only [State.setPoison]
@[simp] theorem State.setPoison_links : (s.setPoison a p).links = s.links := by simp only [State.setPoison]
@[simp] theorem State.setPoison_flock : (s.setPoison a p).flock = s.flock := by simp only [State.setPoison]
@[simp] theorem State.setPoison_shep : (s.setPoison a p).shep = s.shep := by simp only [State.setPoison]
@[simp] theorem State.setPoison_drovers : (s.setPoison a p).drovers = s.drovers := by simp only [State.setPoison]
@[simp] theorem State.setPoison_pwr : (s.setPoison a p).pwr = s.pwr := by simp only [State.setPoison]
@[simp] theorem State.setPoison_timers : (s.setPoison a p).timers = s.timers := by simp only [State.setPoison]
@[simp] theorem State.setPoison_emu : (s.setPoison a p).emu = s.emu := by simp only [State.setPoison]
@[simp] theorem State.setPoison_free : (s.setPoison a p).free = s.free := by simp only [State.setPoison]
@[simp] theorem State.setPoison_rf (f' : Fld) : (s.setPoison a p).rf f' = s.rf f' := by simp only [State.rf, State.reg, State.setPoison_regs]
@[simp] theorem State.setPoison_rb (f' : Fld) : (s.setPoison a p).rb f' = s.rb f' := by simp only [State.rb, State.setPoison_rf]
@[simp] theorem State.setPoison_reg (o' : Nat) : (s.setPoison a p).reg o' = s.reg o' := by simp only [State.reg, State.setPoison_regs]
end

/-! `setCmd` changes cmds alone. -/

section
variable (s : State) (c : Cmd)
@[simp] theorem State.setCmd_pending : (s.setCmd c).pending = s.pending := by simp only [State.setCmd]
@[simp] theorem State.setCmd_regs : (s.setCmd c).regs = s.regs := by simp only [State.setCmd]
@[simp] theorem State.setCmd_wlatch : (s.setCmd c).wlatch = s.wlatch := by simp only [State.setCmd]
@[simp] theorem State.setCmd_rlatch : (s.setCmd c).rlatch = s.rlatch := by simp only [State.setCmd]
@[simp] theorem State.setCmd_mem : (s.setCmd c).mem = s.mem := by simp only [State.setCmd]
@[simp] theorem State.setCmd_poison : (s.setCmd c).poison = s.poison := by simp only [State.setCmd]
@[simp] theorem State.setCmd_csb : (s.setCmd c).csb = s.csb := by simp only [State.setCmd]
@[simp] theorem State.setCmd_csbPoison : (s.setCmd c).csbPoison = s.csbPoison := by simp only [State.setCmd]
@[simp] theorem State.setCmd_csbMap : (s.setCmd c).csbMap = s.csbMap := by simp only [State.setCmd]
@[simp] theorem State.setCmd_pins : (s.setCmd c).pins = s.pins := by simp only [State.setCmd]
@[simp] theorem State.setCmd_boot : (s.setCmd c).boot = s.boot := by simp only [State.setCmd]
@[simp] theorem State.setCmd_hsa : (s.setCmd c).hsa = s.hsa := by simp only [State.setCmd]
@[simp] theorem State.setCmd_keys : (s.setCmd c).keys = s.keys := by simp only [State.setCmd]
@[simp] theorem State.setCmd_cmdKeys : (s.setCmd c).cmdKeys = s.cmdKeys := by simp only [State.setCmd]
@[simp] theorem State.setCmd_queues : (s.setCmd c).queues = s.queues := by simp only [State.setCmd]
@[simp] theorem State.setCmd_cores : (s.setCmd c).cores = s.cores := by simp only [State.setCmd]
@[simp] theorem State.setCmd_clusters : (s.setCmd c).clusters = s.clusters := by simp only [State.setCmd]
@[simp] theorem State.setCmd_xlt : (s.setCmd c).xlt = s.xlt := by simp only [State.setCmd]
@[simp] theorem State.setCmd_txns : (s.setCmd c).txns = s.txns := by simp only [State.setCmd]
@[simp] theorem State.setCmd_waiting : (s.setCmd c).waiting = s.waiting := by simp only [State.setCmd]
@[simp] theorem State.setCmd_sigs : (s.setCmd c).sigs = s.sigs := by simp only [State.setCmd]
@[simp] theorem State.setCmd_checked : (s.setCmd c).checked = s.checked := by simp only [State.setCmd]
@[simp] theorem State.setCmd_kvd : (s.setCmd c).kvd = s.kvd := by simp only [State.setCmd]
@[simp] theorem State.setCmd_grz : (s.setCmd c).grz = s.grz := by simp only [State.setCmd]
@[simp] theorem State.setCmd_slow : (s.setCmd c).slow = s.slow := by simp only [State.setCmd]
@[simp] theorem State.setCmd_closing : (s.setCmd c).closing = s.closing := by simp only [State.setCmd]
@[simp] theorem State.setCmd_inlets : (s.setCmd c).inlets = s.inlets := by simp only [State.setCmd]
@[simp] theorem State.setCmd_links : (s.setCmd c).links = s.links := by simp only [State.setCmd]
@[simp] theorem State.setCmd_flock : (s.setCmd c).flock = s.flock := by simp only [State.setCmd]
@[simp] theorem State.setCmd_shep : (s.setCmd c).shep = s.shep := by simp only [State.setCmd]
@[simp] theorem State.setCmd_drovers : (s.setCmd c).drovers = s.drovers := by simp only [State.setCmd]
@[simp] theorem State.setCmd_pwr : (s.setCmd c).pwr = s.pwr := by simp only [State.setCmd]
@[simp] theorem State.setCmd_timers : (s.setCmd c).timers = s.timers := by simp only [State.setCmd]
@[simp] theorem State.setCmd_emu : (s.setCmd c).emu = s.emu := by simp only [State.setCmd]
@[simp] theorem State.setCmd_free : (s.setCmd c).free = s.free := by simp only [State.setCmd]
@[simp] theorem State.setCmd_rf (f' : Fld) : (s.setCmd c).rf f' = s.rf f' := by simp only [State.rf, State.reg, State.setCmd_regs]
@[simp] theorem State.setCmd_rb (f' : Fld) : (s.setCmd c).rb f' = s.rb f' := by simp only [State.rb, State.setCmd_rf]
@[simp] theorem State.setCmd_reg (o' : Nat) : (s.setCmd c).reg o' = s.reg o' := by simp only [State.reg, State.setCmd_regs]
end

/-! `modCmd` changes cmds alone. -/

section
variable (s : State) (qn slot : Nat) (f : Cmd → Cmd)
@[simp] theorem State.modCmd_pending : (s.modCmd qn slot f).pending = s.pending := by simp only [State.modCmd]
@[simp] theorem State.modCmd_regs : (s.modCmd qn slot f).regs = s.regs := by simp only [State.modCmd]
@[simp] theorem State.modCmd_wlatch : (s.modCmd qn slot f).wlatch = s.wlatch := by simp only [State.modCmd]
@[simp] theorem State.modCmd_rlatch : (s.modCmd qn slot f).rlatch = s.rlatch := by simp only [State.modCmd]
@[simp] theorem State.modCmd_mem : (s.modCmd qn slot f).mem = s.mem := by simp only [State.modCmd]
@[simp] theorem State.modCmd_poison : (s.modCmd qn slot f).poison = s.poison := by simp only [State.modCmd]
@[simp] theorem State.modCmd_csb : (s.modCmd qn slot f).csb = s.csb := by simp only [State.modCmd]
@[simp] theorem State.modCmd_csbPoison : (s.modCmd qn slot f).csbPoison = s.csbPoison := by simp only [State.modCmd]
@[simp] theorem State.modCmd_csbMap : (s.modCmd qn slot f).csbMap = s.csbMap := by simp only [State.modCmd]
@[simp] theorem State.modCmd_pins : (s.modCmd qn slot f).pins = s.pins := by simp only [State.modCmd]
@[simp] theorem State.modCmd_boot : (s.modCmd qn slot f).boot = s.boot := by simp only [State.modCmd]
@[simp] theorem State.modCmd_hsa : (s.modCmd qn slot f).hsa = s.hsa := by simp only [State.modCmd]
@[simp] theorem State.modCmd_keys : (s.modCmd qn slot f).keys = s.keys := by simp only [State.modCmd]
@[simp] theorem State.modCmd_cmdKeys : (s.modCmd qn slot f).cmdKeys = s.cmdKeys := by simp only [State.modCmd]
@[simp] theorem State.modCmd_queues : (s.modCmd qn slot f).queues = s.queues := by simp only [State.modCmd]
@[simp] theorem State.modCmd_cores : (s.modCmd qn slot f).cores = s.cores := by simp only [State.modCmd]
@[simp] theorem State.modCmd_clusters : (s.modCmd qn slot f).clusters = s.clusters := by simp only [State.modCmd]
@[simp] theorem State.modCmd_xlt : (s.modCmd qn slot f).xlt = s.xlt := by simp only [State.modCmd]
@[simp] theorem State.modCmd_txns : (s.modCmd qn slot f).txns = s.txns := by simp only [State.modCmd]
@[simp] theorem State.modCmd_waiting : (s.modCmd qn slot f).waiting = s.waiting := by simp only [State.modCmd]
@[simp] theorem State.modCmd_sigs : (s.modCmd qn slot f).sigs = s.sigs := by simp only [State.modCmd]
@[simp] theorem State.modCmd_checked : (s.modCmd qn slot f).checked = s.checked := by simp only [State.modCmd]
@[simp] theorem State.modCmd_kvd : (s.modCmd qn slot f).kvd = s.kvd := by simp only [State.modCmd]
@[simp] theorem State.modCmd_grz : (s.modCmd qn slot f).grz = s.grz := by simp only [State.modCmd]
@[simp] theorem State.modCmd_slow : (s.modCmd qn slot f).slow = s.slow := by simp only [State.modCmd]
@[simp] theorem State.modCmd_closing : (s.modCmd qn slot f).closing = s.closing := by simp only [State.modCmd]
@[simp] theorem State.modCmd_inlets : (s.modCmd qn slot f).inlets = s.inlets := by simp only [State.modCmd]
@[simp] theorem State.modCmd_links : (s.modCmd qn slot f).links = s.links := by simp only [State.modCmd]
@[simp] theorem State.modCmd_flock : (s.modCmd qn slot f).flock = s.flock := by simp only [State.modCmd]
@[simp] theorem State.modCmd_shep : (s.modCmd qn slot f).shep = s.shep := by simp only [State.modCmd]
@[simp] theorem State.modCmd_drovers : (s.modCmd qn slot f).drovers = s.drovers := by simp only [State.modCmd]
@[simp] theorem State.modCmd_pwr : (s.modCmd qn slot f).pwr = s.pwr := by simp only [State.modCmd]
@[simp] theorem State.modCmd_timers : (s.modCmd qn slot f).timers = s.timers := by simp only [State.modCmd]
@[simp] theorem State.modCmd_emu : (s.modCmd qn slot f).emu = s.emu := by simp only [State.modCmd]
@[simp] theorem State.modCmd_free : (s.modCmd qn slot f).free = s.free := by simp only [State.modCmd]
@[simp] theorem State.modCmd_rf (f' : Fld) : (s.modCmd qn slot f).rf f' = s.rf f' := by simp only [State.rf, State.reg, State.modCmd_regs]
@[simp] theorem State.modCmd_rb (f' : Fld) : (s.modCmd qn slot f).rb f' = s.rb f' := by simp only [State.rb, State.modCmd_rf]
@[simp] theorem State.modCmd_reg (o' : Nat) : (s.modCmd qn slot f).reg o' = s.reg o' := by simp only [State.reg, State.modCmd_regs]
end

/-! `sendVec` changes pins alone. -/

section
variable (s : State) (v : Nat)
@[simp] theorem State.sendVec_pending : (s.sendVec v).pending = s.pending := by simp only [State.sendVec]
@[simp] theorem State.sendVec_regs : (s.sendVec v).regs = s.regs := by simp only [State.sendVec]
@[simp] theorem State.sendVec_wlatch : (s.sendVec v).wlatch = s.wlatch := by simp only [State.sendVec]
@[simp] theorem State.sendVec_rlatch : (s.sendVec v).rlatch = s.rlatch := by simp only [State.sendVec]
@[simp] theorem State.sendVec_mem : (s.sendVec v).mem = s.mem := by simp only [State.sendVec]
@[simp] theorem State.sendVec_poison : (s.sendVec v).poison = s.poison := by simp only [State.sendVec]
@[simp] theorem State.sendVec_csb : (s.sendVec v).csb = s.csb := by simp only [State.sendVec]
@[simp] theorem State.sendVec_csbPoison : (s.sendVec v).csbPoison = s.csbPoison := by simp only [State.sendVec]
@[simp] theorem State.sendVec_csbMap : (s.sendVec v).csbMap = s.csbMap := by simp only [State.sendVec]
@[simp] theorem State.sendVec_boot : (s.sendVec v).boot = s.boot := by simp only [State.sendVec]
@[simp] theorem State.sendVec_hsa : (s.sendVec v).hsa = s.hsa := by simp only [State.sendVec]
@[simp] theorem State.sendVec_keys : (s.sendVec v).keys = s.keys := by simp only [State.sendVec]
@[simp] theorem State.sendVec_cmdKeys : (s.sendVec v).cmdKeys = s.cmdKeys := by simp only [State.sendVec]
@[simp] theorem State.sendVec_queues : (s.sendVec v).queues = s.queues := by simp only [State.sendVec]
@[simp] theorem State.sendVec_cmds : (s.sendVec v).cmds = s.cmds := by simp only [State.sendVec]
@[simp] theorem State.sendVec_cores : (s.sendVec v).cores = s.cores := by simp only [State.sendVec]
@[simp] theorem State.sendVec_clusters : (s.sendVec v).clusters = s.clusters := by simp only [State.sendVec]
@[simp] theorem State.sendVec_xlt : (s.sendVec v).xlt = s.xlt := by simp only [State.sendVec]
@[simp] theorem State.sendVec_txns : (s.sendVec v).txns = s.txns := by simp only [State.sendVec]
@[simp] theorem State.sendVec_waiting : (s.sendVec v).waiting = s.waiting := by simp only [State.sendVec]
@[simp] theorem State.sendVec_sigs : (s.sendVec v).sigs = s.sigs := by simp only [State.sendVec]
@[simp] theorem State.sendVec_checked : (s.sendVec v).checked = s.checked := by simp only [State.sendVec]
@[simp] theorem State.sendVec_kvd : (s.sendVec v).kvd = s.kvd := by simp only [State.sendVec]
@[simp] theorem State.sendVec_grz : (s.sendVec v).grz = s.grz := by simp only [State.sendVec]
@[simp] theorem State.sendVec_slow : (s.sendVec v).slow = s.slow := by simp only [State.sendVec]
@[simp] theorem State.sendVec_closing : (s.sendVec v).closing = s.closing := by simp only [State.sendVec]
@[simp] theorem State.sendVec_inlets : (s.sendVec v).inlets = s.inlets := by simp only [State.sendVec]
@[simp] theorem State.sendVec_links : (s.sendVec v).links = s.links := by simp only [State.sendVec]
@[simp] theorem State.sendVec_flock : (s.sendVec v).flock = s.flock := by simp only [State.sendVec]
@[simp] theorem State.sendVec_shep : (s.sendVec v).shep = s.shep := by simp only [State.sendVec]
@[simp] theorem State.sendVec_drovers : (s.sendVec v).drovers = s.drovers := by simp only [State.sendVec]
@[simp] theorem State.sendVec_pwr : (s.sendVec v).pwr = s.pwr := by simp only [State.sendVec]
@[simp] theorem State.sendVec_timers : (s.sendVec v).timers = s.timers := by simp only [State.sendVec]
@[simp] theorem State.sendVec_emu : (s.sendVec v).emu = s.emu := by simp only [State.sendVec]
@[simp] theorem State.sendVec_free : (s.sendVec v).free = s.free := by simp only [State.sendVec]
@[simp] theorem State.sendVec_rf (f' : Fld) : (s.sendVec v).rf f' = s.rf f' := by simp only [State.rf, State.reg, State.sendVec_regs]
@[simp] theorem State.sendVec_rb (f' : Fld) : (s.sendVec v).rb f' = s.rb f' := by simp only [State.rb, State.sendVec_rf]
@[simp] theorem State.sendVec_reg (o' : Nat) : (s.sendVec v).reg o' = s.reg o' := by simp only [State.reg, State.sendVec_regs]
end

/-! `raise` changes regs, pins alone. -/

section
variable (s : State) (b i : Nat)
@[simp] theorem State.raise_pending : (s.raise b i).pending = s.pending := by
  simp only [State.raise]
  split <;> simp only [State.sendVec_pending, State.wf_pending]
@[simp] theorem State.raise_wlatch : (s.raise b i).wlatch = s.wlatch := by
  simp only [State.raise]
  split <;> simp only [State.sendVec_wlatch, State.wf_wlatch]
@[simp] theorem State.raise_rlatch : (s.raise b i).rlatch = s.rlatch := by
  simp only [State.raise]
  split <;> simp only [State.sendVec_rlatch, State.wf_rlatch]
@[simp] theorem State.raise_mem : (s.raise b i).mem = s.mem := by
  simp only [State.raise]
  split <;> simp only [State.sendVec_mem, State.wf_mem]
@[simp] theorem State.raise_poison : (s.raise b i).poison = s.poison := by
  simp only [State.raise]
  split <;> simp only [State.sendVec_poison, State.wf_poison]
@[simp] theorem State.raise_csb : (s.raise b i).csb = s.csb := by
  simp only [State.raise]
  split <;> simp only [State.sendVec_csb, State.wf_csb]
@[simp] theorem State.raise_csbPoison : (s.raise b i).csbPoison = s.csbPoison := by
  simp only [State.raise]
  split <;> simp only [State.sendVec_csbPoison, State.wf_csbPoison]
@[simp] theorem State.raise_csbMap : (s.raise b i).csbMap = s.csbMap := by
  simp only [State.raise]
  split <;> simp only [State.sendVec_csbMap, State.wf_csbMap]
@[simp] theorem State.raise_boot : (s.raise b i).boot = s.boot := by
  simp only [State.raise]
  split <;> simp only [State.sendVec_boot, State.wf_boot]
@[simp] theorem State.raise_hsa : (s.raise b i).hsa = s.hsa := by
  simp only [State.raise]
  split <;> simp only [State.sendVec_hsa, State.wf_hsa]
@[simp] theorem State.raise_keys : (s.raise b i).keys = s.keys := by
  simp only [State.raise]
  split <;> simp only [State.sendVec_keys, State.wf_keys]
@[simp] theorem State.raise_cmdKeys : (s.raise b i).cmdKeys = s.cmdKeys := by
  simp only [State.raise]
  split <;> simp only [State.sendVec_cmdKeys, State.wf_cmdKeys]
@[simp] theorem State.raise_queues : (s.raise b i).queues = s.queues := by
  simp only [State.raise]
  split <;> simp only [State.sendVec_queues, State.wf_queues]
@[simp] theorem State.raise_cmds : (s.raise b i).cmds = s.cmds := by
  simp only [State.raise]
  split <;> simp only [State.sendVec_cmds, State.wf_cmds]
@[simp] theorem State.raise_cores : (s.raise b i).cores = s.cores := by
  simp only [State.raise]
  split <;> simp only [State.sendVec_cores, State.wf_cores]
@[simp] theorem State.raise_clusters : (s.raise b i).clusters = s.clusters := by
  simp only [State.raise]
  split <;> simp only [State.sendVec_clusters, State.wf_clusters]
@[simp] theorem State.raise_xlt : (s.raise b i).xlt = s.xlt := by
  simp only [State.raise]
  split <;> simp only [State.sendVec_xlt, State.wf_xlt]
@[simp] theorem State.raise_txns : (s.raise b i).txns = s.txns := by
  simp only [State.raise]
  split <;> simp only [State.sendVec_txns, State.wf_txns]
@[simp] theorem State.raise_waiting : (s.raise b i).waiting = s.waiting := by
  simp only [State.raise]
  split <;> simp only [State.sendVec_waiting, State.wf_waiting]
@[simp] theorem State.raise_sigs : (s.raise b i).sigs = s.sigs := by
  simp only [State.raise]
  split <;> simp only [State.sendVec_sigs, State.wf_sigs]
@[simp] theorem State.raise_checked : (s.raise b i).checked = s.checked := by
  simp only [State.raise]
  split <;> simp only [State.sendVec_checked, State.wf_checked]
@[simp] theorem State.raise_kvd : (s.raise b i).kvd = s.kvd := by
  simp only [State.raise]
  split <;> simp only [State.sendVec_kvd, State.wf_kvd]
@[simp] theorem State.raise_grz : (s.raise b i).grz = s.grz := by
  simp only [State.raise]
  split <;> simp only [State.sendVec_grz, State.wf_grz]
@[simp] theorem State.raise_slow : (s.raise b i).slow = s.slow := by
  simp only [State.raise]
  split <;> simp only [State.sendVec_slow, State.wf_slow]
@[simp] theorem State.raise_closing : (s.raise b i).closing = s.closing := by
  simp only [State.raise]
  split <;> simp only [State.sendVec_closing, State.wf_closing]
@[simp] theorem State.raise_inlets : (s.raise b i).inlets = s.inlets := by
  simp only [State.raise]
  split <;> simp only [State.sendVec_inlets, State.wf_inlets]
@[simp] theorem State.raise_links : (s.raise b i).links = s.links := by
  simp only [State.raise]
  split <;> simp only [State.sendVec_links, State.wf_links]
@[simp] theorem State.raise_flock : (s.raise b i).flock = s.flock := by
  simp only [State.raise]
  split <;> simp only [State.sendVec_flock, State.wf_flock]
@[simp] theorem State.raise_shep : (s.raise b i).shep = s.shep := by
  simp only [State.raise]
  split <;> simp only [State.sendVec_shep, State.wf_shep]
@[simp] theorem State.raise_drovers : (s.raise b i).drovers = s.drovers := by
  simp only [State.raise]
  split <;> simp only [State.sendVec_drovers, State.wf_drovers]
@[simp] theorem State.raise_pwr : (s.raise b i).pwr = s.pwr := by
  simp only [State.raise]
  split <;> simp only [State.sendVec_pwr, State.wf_pwr]
@[simp] theorem State.raise_timers : (s.raise b i).timers = s.timers := by
  simp only [State.raise]
  split <;> simp only [State.sendVec_timers, State.wf_timers]
@[simp] theorem State.raise_emu : (s.raise b i).emu = s.emu := by
  simp only [State.raise]
  split <;> simp only [State.sendVec_emu, State.wf_emu]
@[simp] theorem State.raise_free : (s.raise b i).free = s.free := by
  simp only [State.raise]
  split <;> simp only [State.sendVec_free, State.wf_free]
end

/-! `fabErr` changes regs, pins alone. -/

section
variable (s : State) (port ctx slot : Nat) (inst : Bool) (hpa : Nat)
@[simp] theorem State.fabErr_pending : (s.fabErr port ctx slot inst hpa).pending = s.pending := by simp only [State.fabErr, State.mpErr, State.setErr_pending, State.raise_pending, State.inc_pending]
@[simp] theorem State.fabErr_wlatch : (s.fabErr port ctx slot inst hpa).wlatch = s.wlatch := by simp only [State.fabErr, State.mpErr, State.setErr_wlatch, State.raise_wlatch, State.inc_wlatch]
@[simp] theorem State.fabErr_rlatch : (s.fabErr port ctx slot inst hpa).rlatch = s.rlatch := by simp only [State.fabErr, State.mpErr, State.setErr_rlatch, State.raise_rlatch, State.inc_rlatch]
@[simp] theorem State.fabErr_mem : (s.fabErr port ctx slot inst hpa).mem = s.mem := by simp only [State.fabErr, State.mpErr, State.setErr_mem, State.raise_mem, State.inc_mem]
@[simp] theorem State.fabErr_poison : (s.fabErr port ctx slot inst hpa).poison = s.poison := by simp only [State.fabErr, State.mpErr, State.setErr_poison, State.raise_poison, State.inc_poison]
@[simp] theorem State.fabErr_csb : (s.fabErr port ctx slot inst hpa).csb = s.csb := by simp only [State.fabErr, State.mpErr, State.setErr_csb, State.raise_csb, State.inc_csb]
@[simp] theorem State.fabErr_csbPoison : (s.fabErr port ctx slot inst hpa).csbPoison = s.csbPoison := by simp only [State.fabErr, State.mpErr, State.setErr_csbPoison, State.raise_csbPoison, State.inc_csbPoison]
@[simp] theorem State.fabErr_csbMap : (s.fabErr port ctx slot inst hpa).csbMap = s.csbMap := by simp only [State.fabErr, State.mpErr, State.setErr_csbMap, State.raise_csbMap, State.inc_csbMap]
@[simp] theorem State.fabErr_boot : (s.fabErr port ctx slot inst hpa).boot = s.boot := by simp only [State.fabErr, State.mpErr, State.setErr_boot, State.raise_boot, State.inc_boot]
@[simp] theorem State.fabErr_hsa : (s.fabErr port ctx slot inst hpa).hsa = s.hsa := by simp only [State.fabErr, State.mpErr, State.setErr_hsa, State.raise_hsa, State.inc_hsa]
@[simp] theorem State.fabErr_keys : (s.fabErr port ctx slot inst hpa).keys = s.keys := by simp only [State.fabErr, State.mpErr, State.setErr_keys, State.raise_keys, State.inc_keys]
@[simp] theorem State.fabErr_cmdKeys : (s.fabErr port ctx slot inst hpa).cmdKeys = s.cmdKeys := by simp only [State.fabErr, State.mpErr, State.setErr_cmdKeys, State.raise_cmdKeys, State.inc_cmdKeys]
@[simp] theorem State.fabErr_queues : (s.fabErr port ctx slot inst hpa).queues = s.queues := by simp only [State.fabErr, State.mpErr, State.setErr_queues, State.raise_queues, State.inc_queues]
@[simp] theorem State.fabErr_cmds : (s.fabErr port ctx slot inst hpa).cmds = s.cmds := by simp only [State.fabErr, State.mpErr, State.setErr_cmds, State.raise_cmds, State.inc_cmds]
@[simp] theorem State.fabErr_cores : (s.fabErr port ctx slot inst hpa).cores = s.cores := by simp only [State.fabErr, State.mpErr, State.setErr_cores, State.raise_cores, State.inc_cores]
@[simp] theorem State.fabErr_clusters : (s.fabErr port ctx slot inst hpa).clusters = s.clusters := by simp only [State.fabErr, State.mpErr, State.setErr_clusters, State.raise_clusters, State.inc_clusters]
@[simp] theorem State.fabErr_xlt : (s.fabErr port ctx slot inst hpa).xlt = s.xlt := by simp only [State.fabErr, State.mpErr, State.setErr_xlt, State.raise_xlt, State.inc_xlt]
@[simp] theorem State.fabErr_txns : (s.fabErr port ctx slot inst hpa).txns = s.txns := by simp only [State.fabErr, State.mpErr, State.setErr_txns, State.raise_txns, State.inc_txns]
@[simp] theorem State.fabErr_waiting : (s.fabErr port ctx slot inst hpa).waiting = s.waiting := by simp only [State.fabErr, State.mpErr, State.setErr_waiting, State.raise_waiting, State.inc_waiting]
@[simp] theorem State.fabErr_sigs : (s.fabErr port ctx slot inst hpa).sigs = s.sigs := by simp only [State.fabErr, State.mpErr, State.setErr_sigs, State.raise_sigs, State.inc_sigs]
@[simp] theorem State.fabErr_checked : (s.fabErr port ctx slot inst hpa).checked = s.checked := by simp only [State.fabErr, State.mpErr, State.setErr_checked, State.raise_checked, State.inc_checked]
@[simp] theorem State.fabErr_kvd : (s.fabErr port ctx slot inst hpa).kvd = s.kvd := by simp only [State.fabErr, State.mpErr, State.setErr_kvd, State.raise_kvd, State.inc_kvd]
@[simp] theorem State.fabErr_grz : (s.fabErr port ctx slot inst hpa).grz = s.grz := by simp only [State.fabErr, State.mpErr, State.setErr_grz, State.raise_grz, State.inc_grz]
@[simp] theorem State.fabErr_slow : (s.fabErr port ctx slot inst hpa).slow = s.slow := by simp only [State.fabErr, State.mpErr, State.setErr_slow, State.raise_slow, State.inc_slow]
@[simp] theorem State.fabErr_closing : (s.fabErr port ctx slot inst hpa).closing = s.closing := by simp only [State.fabErr, State.mpErr, State.setErr_closing, State.raise_closing, State.inc_closing]
@[simp] theorem State.fabErr_inlets : (s.fabErr port ctx slot inst hpa).inlets = s.inlets := by simp only [State.fabErr, State.mpErr, State.setErr_inlets, State.raise_inlets, State.inc_inlets]
@[simp] theorem State.fabErr_links : (s.fabErr port ctx slot inst hpa).links = s.links := by simp only [State.fabErr, State.mpErr, State.setErr_links, State.raise_links, State.inc_links]
@[simp] theorem State.fabErr_flock : (s.fabErr port ctx slot inst hpa).flock = s.flock := by simp only [State.fabErr, State.mpErr, State.setErr_flock, State.raise_flock, State.inc_flock]
@[simp] theorem State.fabErr_shep : (s.fabErr port ctx slot inst hpa).shep = s.shep := by simp only [State.fabErr, State.mpErr, State.setErr_shep, State.raise_shep, State.inc_shep]
@[simp] theorem State.fabErr_drovers : (s.fabErr port ctx slot inst hpa).drovers = s.drovers := by simp only [State.fabErr, State.mpErr, State.setErr_drovers, State.raise_drovers, State.inc_drovers]
@[simp] theorem State.fabErr_pwr : (s.fabErr port ctx slot inst hpa).pwr = s.pwr := by simp only [State.fabErr, State.mpErr, State.setErr_pwr, State.raise_pwr, State.inc_pwr]
@[simp] theorem State.fabErr_timers : (s.fabErr port ctx slot inst hpa).timers = s.timers := by simp only [State.fabErr, State.mpErr, State.setErr_timers, State.raise_timers, State.inc_timers]
@[simp] theorem State.fabErr_emu : (s.fabErr port ctx slot inst hpa).emu = s.emu := by simp only [State.fabErr, State.mpErr, State.setErr_emu, State.raise_emu, State.inc_emu]
@[simp] theorem State.fabErr_free : (s.fabErr port ctx slot inst hpa).free = s.free := by simp only [State.fabErr, State.mpErr, State.setErr_free, State.raise_free, State.inc_free]
end

/-! `tookLine` changes regs, pins alone. -/

section
variable (s : State) (port ctx slot : Nat) (inst : Bool) (hpa n : Nat)
@[simp] theorem State.tookLine_pending : (s.tookLine port ctx slot inst hpa n).pending = s.pending := by
  simp only [State.tookLine]
  split <;> simp only [State.fabErr_pending, State.inc_pending]
@[simp] theorem State.tookLine_wlatch : (s.tookLine port ctx slot inst hpa n).wlatch = s.wlatch := by
  simp only [State.tookLine]
  split <;> simp only [State.fabErr_wlatch, State.inc_wlatch]
@[simp] theorem State.tookLine_rlatch : (s.tookLine port ctx slot inst hpa n).rlatch = s.rlatch := by
  simp only [State.tookLine]
  split <;> simp only [State.fabErr_rlatch, State.inc_rlatch]
@[simp] theorem State.tookLine_mem : (s.tookLine port ctx slot inst hpa n).mem = s.mem := by
  simp only [State.tookLine]
  split <;> simp only [State.fabErr_mem, State.inc_mem]
@[simp] theorem State.tookLine_poison : (s.tookLine port ctx slot inst hpa n).poison = s.poison := by
  simp only [State.tookLine]
  split <;> simp only [State.fabErr_poison, State.inc_poison]
@[simp] theorem State.tookLine_csb : (s.tookLine port ctx slot inst hpa n).csb = s.csb := by
  simp only [State.tookLine]
  split <;> simp only [State.fabErr_csb, State.inc_csb]
@[simp] theorem State.tookLine_csbPoison : (s.tookLine port ctx slot inst hpa n).csbPoison = s.csbPoison := by
  simp only [State.tookLine]
  split <;> simp only [State.fabErr_csbPoison, State.inc_csbPoison]
@[simp] theorem State.tookLine_csbMap : (s.tookLine port ctx slot inst hpa n).csbMap = s.csbMap := by
  simp only [State.tookLine]
  split <;> simp only [State.fabErr_csbMap, State.inc_csbMap]
@[simp] theorem State.tookLine_boot : (s.tookLine port ctx slot inst hpa n).boot = s.boot := by
  simp only [State.tookLine]
  split <;> simp only [State.fabErr_boot, State.inc_boot]
@[simp] theorem State.tookLine_hsa : (s.tookLine port ctx slot inst hpa n).hsa = s.hsa := by
  simp only [State.tookLine]
  split <;> simp only [State.fabErr_hsa, State.inc_hsa]
@[simp] theorem State.tookLine_keys : (s.tookLine port ctx slot inst hpa n).keys = s.keys := by
  simp only [State.tookLine]
  split <;> simp only [State.fabErr_keys, State.inc_keys]
@[simp] theorem State.tookLine_cmdKeys : (s.tookLine port ctx slot inst hpa n).cmdKeys = s.cmdKeys := by
  simp only [State.tookLine]
  split <;> simp only [State.fabErr_cmdKeys, State.inc_cmdKeys]
@[simp] theorem State.tookLine_queues : (s.tookLine port ctx slot inst hpa n).queues = s.queues := by
  simp only [State.tookLine]
  split <;> simp only [State.fabErr_queues, State.inc_queues]
@[simp] theorem State.tookLine_cmds : (s.tookLine port ctx slot inst hpa n).cmds = s.cmds := by
  simp only [State.tookLine]
  split <;> simp only [State.fabErr_cmds, State.inc_cmds]
@[simp] theorem State.tookLine_cores : (s.tookLine port ctx slot inst hpa n).cores = s.cores := by
  simp only [State.tookLine]
  split <;> simp only [State.fabErr_cores, State.inc_cores]
@[simp] theorem State.tookLine_clusters : (s.tookLine port ctx slot inst hpa n).clusters = s.clusters := by
  simp only [State.tookLine]
  split <;> simp only [State.fabErr_clusters, State.inc_clusters]
@[simp] theorem State.tookLine_xlt : (s.tookLine port ctx slot inst hpa n).xlt = s.xlt := by
  simp only [State.tookLine]
  split <;> simp only [State.fabErr_xlt, State.inc_xlt]
@[simp] theorem State.tookLine_txns : (s.tookLine port ctx slot inst hpa n).txns = s.txns := by
  simp only [State.tookLine]
  split <;> simp only [State.fabErr_txns, State.inc_txns]
@[simp] theorem State.tookLine_waiting : (s.tookLine port ctx slot inst hpa n).waiting = s.waiting := by
  simp only [State.tookLine]
  split <;> simp only [State.fabErr_waiting, State.inc_waiting]
@[simp] theorem State.tookLine_sigs : (s.tookLine port ctx slot inst hpa n).sigs = s.sigs := by
  simp only [State.tookLine]
  split <;> simp only [State.fabErr_sigs, State.inc_sigs]
@[simp] theorem State.tookLine_checked : (s.tookLine port ctx slot inst hpa n).checked = s.checked := by
  simp only [State.tookLine]
  split <;> simp only [State.fabErr_checked, State.inc_checked]
@[simp] theorem State.tookLine_kvd : (s.tookLine port ctx slot inst hpa n).kvd = s.kvd := by
  simp only [State.tookLine]
  split <;> simp only [State.fabErr_kvd, State.inc_kvd]
@[simp] theorem State.tookLine_grz : (s.tookLine port ctx slot inst hpa n).grz = s.grz := by
  simp only [State.tookLine]
  split <;> simp only [State.fabErr_grz, State.inc_grz]
@[simp] theorem State.tookLine_slow : (s.tookLine port ctx slot inst hpa n).slow = s.slow := by
  simp only [State.tookLine]
  split <;> simp only [State.fabErr_slow, State.inc_slow]
@[simp] theorem State.tookLine_closing : (s.tookLine port ctx slot inst hpa n).closing = s.closing := by
  simp only [State.tookLine]
  split <;> simp only [State.fabErr_closing, State.inc_closing]
@[simp] theorem State.tookLine_inlets : (s.tookLine port ctx slot inst hpa n).inlets = s.inlets := by
  simp only [State.tookLine]
  split <;> simp only [State.fabErr_inlets, State.inc_inlets]
@[simp] theorem State.tookLine_links : (s.tookLine port ctx slot inst hpa n).links = s.links := by
  simp only [State.tookLine]
  split <;> simp only [State.fabErr_links, State.inc_links]
@[simp] theorem State.tookLine_flock : (s.tookLine port ctx slot inst hpa n).flock = s.flock := by
  simp only [State.tookLine]
  split <;> simp only [State.fabErr_flock, State.inc_flock]
@[simp] theorem State.tookLine_shep : (s.tookLine port ctx slot inst hpa n).shep = s.shep := by
  simp only [State.tookLine]
  split <;> simp only [State.fabErr_shep, State.inc_shep]
@[simp] theorem State.tookLine_drovers : (s.tookLine port ctx slot inst hpa n).drovers = s.drovers := by
  simp only [State.tookLine]
  split <;> simp only [State.fabErr_drovers, State.inc_drovers]
@[simp] theorem State.tookLine_pwr : (s.tookLine port ctx slot inst hpa n).pwr = s.pwr := by
  simp only [State.tookLine]
  split <;> simp only [State.fabErr_pwr, State.inc_pwr]
@[simp] theorem State.tookLine_timers : (s.tookLine port ctx slot inst hpa n).timers = s.timers := by
  simp only [State.tookLine]
  split <;> simp only [State.fabErr_timers, State.inc_timers]
@[simp] theorem State.tookLine_emu : (s.tookLine port ctx slot inst hpa n).emu = s.emu := by
  simp only [State.tookLine]
  split <;> simp only [State.fabErr_emu, State.inc_emu]
@[simp] theorem State.tookLine_free : (s.tookLine port ctx slot inst hpa n).free = s.free := by
  simp only [State.tookLine]
  split <;> simp only [State.fabErr_free, State.inc_free]
end

/-! `logPut` changes regs, pins, hsa alone. -/

section
variable (s : State) (e : LogEntry)
@[simp] theorem State.logPut_pending : (s.logPut e).pending = s.pending := by simp only [State.logPut, State.raise_pending, State.wf_pending]
@[simp] theorem State.logPut_wlatch : (s.logPut e).wlatch = s.wlatch := by simp only [State.logPut, State.raise_wlatch, State.wf_wlatch]
@[simp] theorem State.logPut_rlatch : (s.logPut e).rlatch = s.rlatch := by simp only [State.logPut, State.raise_rlatch, State.wf_rlatch]
@[simp] theorem State.logPut_mem : (s.logPut e).mem = s.mem := by simp only [State.logPut, State.raise_mem, State.wf_mem]
@[simp] theorem State.logPut_poison : (s.logPut e).poison = s.poison := by simp only [State.logPut, State.raise_poison, State.wf_poison]
@[simp] theorem State.logPut_csb : (s.logPut e).csb = s.csb := by simp only [State.logPut, State.raise_csb, State.wf_csb]
@[simp] theorem State.logPut_csbPoison : (s.logPut e).csbPoison = s.csbPoison := by simp only [State.logPut, State.raise_csbPoison, State.wf_csbPoison]
@[simp] theorem State.logPut_csbMap : (s.logPut e).csbMap = s.csbMap := by simp only [State.logPut, State.raise_csbMap, State.wf_csbMap]
@[simp] theorem State.logPut_boot : (s.logPut e).boot = s.boot := by simp only [State.logPut, State.raise_boot, State.wf_boot]
@[simp] theorem State.logPut_keys : (s.logPut e).keys = s.keys := by simp only [State.logPut, State.raise_keys, State.wf_keys]
@[simp] theorem State.logPut_cmdKeys : (s.logPut e).cmdKeys = s.cmdKeys := by simp only [State.logPut, State.raise_cmdKeys, State.wf_cmdKeys]
@[simp] theorem State.logPut_queues : (s.logPut e).queues = s.queues := by simp only [State.logPut, State.raise_queues, State.wf_queues]
@[simp] theorem State.logPut_cmds : (s.logPut e).cmds = s.cmds := by simp only [State.logPut, State.raise_cmds, State.wf_cmds]
@[simp] theorem State.logPut_cores : (s.logPut e).cores = s.cores := by simp only [State.logPut, State.raise_cores, State.wf_cores]
@[simp] theorem State.logPut_clusters : (s.logPut e).clusters = s.clusters := by simp only [State.logPut, State.raise_clusters, State.wf_clusters]
@[simp] theorem State.logPut_xlt : (s.logPut e).xlt = s.xlt := by simp only [State.logPut, State.raise_xlt, State.wf_xlt]
@[simp] theorem State.logPut_txns : (s.logPut e).txns = s.txns := by simp only [State.logPut, State.raise_txns, State.wf_txns]
@[simp] theorem State.logPut_waiting : (s.logPut e).waiting = s.waiting := by simp only [State.logPut, State.raise_waiting, State.wf_waiting]
@[simp] theorem State.logPut_sigs : (s.logPut e).sigs = s.sigs := by simp only [State.logPut, State.raise_sigs, State.wf_sigs]
@[simp] theorem State.logPut_checked : (s.logPut e).checked = s.checked := by simp only [State.logPut, State.raise_checked, State.wf_checked]
@[simp] theorem State.logPut_kvd : (s.logPut e).kvd = s.kvd := by simp only [State.logPut, State.raise_kvd, State.wf_kvd]
@[simp] theorem State.logPut_grz : (s.logPut e).grz = s.grz := by simp only [State.logPut, State.raise_grz, State.wf_grz]
@[simp] theorem State.logPut_slow : (s.logPut e).slow = s.slow := by simp only [State.logPut, State.raise_slow, State.wf_slow]
@[simp] theorem State.logPut_closing : (s.logPut e).closing = s.closing := by simp only [State.logPut, State.raise_closing, State.wf_closing]
@[simp] theorem State.logPut_inlets : (s.logPut e).inlets = s.inlets := by simp only [State.logPut, State.raise_inlets, State.wf_inlets]
@[simp] theorem State.logPut_links : (s.logPut e).links = s.links := by simp only [State.logPut, State.raise_links, State.wf_links]
@[simp] theorem State.logPut_flock : (s.logPut e).flock = s.flock := by simp only [State.logPut, State.raise_flock, State.wf_flock]
@[simp] theorem State.logPut_shep : (s.logPut e).shep = s.shep := by simp only [State.logPut, State.raise_shep, State.wf_shep]
@[simp] theorem State.logPut_drovers : (s.logPut e).drovers = s.drovers := by simp only [State.logPut, State.raise_drovers, State.wf_drovers]
@[simp] theorem State.logPut_pwr : (s.logPut e).pwr = s.pwr := by simp only [State.logPut, State.raise_pwr, State.wf_pwr]
@[simp] theorem State.logPut_timers : (s.logPut e).timers = s.timers := by simp only [State.logPut, State.raise_timers, State.wf_timers]
@[simp] theorem State.logPut_emu : (s.logPut e).emu = s.emu := by simp only [State.logPut, State.raise_emu, State.wf_emu]
@[simp] theorem State.logPut_free : (s.logPut e).free = s.free := by simp only [State.logPut, State.raise_free, State.wf_free]
end

/-! What a fold leaves unchanged. -/

theorem forL_field {α β : Type} (g : State → β) (l : List α) (f : α → State → State) (h : ∀ a s, g (f a s) = g s) (s : State) :
    g (forL l f s) = g s := by
  induction l generalizing s with
  | nil => rfl
  | cons a l ih => exact (ih (f a s)).trans (h a s)

theorem forN_field {β : Type} (g : State → β) (n : Nat) (f : Nat → State → State) (h : ∀ i s, g (f i s) = g s) (s : State) :
    g (forN n f s) = g s := forL_field g (List.range n) f h s

/-- A fold keeps what each of its steps keeps. -/
theorem forL_keeps {α : Type} (P : State → Prop) (l : List α) (f : α → State → State) (h : ∀ a s, P s → P (f a s)) (s : State)
    (hs : P s) : P (forL l f s) := by
  induction l generalizing s with
  | nil => exact hs
  | cons a l ih => exact ih (f a s) (h a s hs)

theorem forN_keeps (P : State → Prop) (n : Nat) (f : Nat → State → State) (h : ∀ i s, P s → P (f i s)) (s : State) (hs : P s) :
    P (forN n f s) := forL_keeps P (List.range n) f h s hs

end Sys2Proof.Machine
end

