-- ==== Sys2Proof/Laws/Canonical.lean ====
section
/-! SUPPORT. Every operation keeps the canonical form of shared memory, the CSB and the register file: one lemma per
operation of Machine/, which answers a state (or a state and a value). Citing these, a command's meaning is never unfolded
below its own calls. `State.canonical` is in Safety.lean; loops go through `State.canonical_forN` and `canonical_forL`. -/

set_option linter.unusedTactic false
set_option linter.unreachableTactic false

namespace Sys2Proof.Machine

/-- A result that a reset may replace: the state after the reset is canonical, and of the result holds a property. -/
def exceptCanonical {α : Type} (p : α → Prop) (r : Except State α) : Prop :=
  match r with
  | .ok a => p a
  | .error s => s.canonical

@[simp] theorem exceptCanonical_ok {α : Type} (p : α → Prop) (a : α) : exceptCanonical p (.ok a) ↔ p a := Iff.rfl
@[simp] theorem exceptCanonical_error {α : Type} (p : α → Prop) (s : State) : exceptCanonical p (.error s) ↔ s.canonical := Iff.rfl

/-- A step of the directory unit ends in a canonical state either way. -/
def KvR.canonical (r : KvR) : Prop :=
  match r with
  | .ok s => s.canonical
  | .error s => s.canonical

@[simp] theorem KvR.canonical_ok (s : State) : KvR.canonical (.ok s) ↔ s.canonical := Iff.rfl
@[simp] theorem KvR.canonical_error (s : State) : KvR.canonical (.error s) ↔ s.canonical := Iff.rfl

theorem State.canonical_iff (s : State) : s.canonical ↔ Memory.wf s.mem ∧ Memory.wf s.csb ∧ regsOk s.regs = true :=
  ⟨fun h => ⟨h.mem, h.csb, h.regs⟩, fun h => ⟨h.1, h.2.1, h.2.2⟩⟩

/-- A state that holds the same memory, CSB and registers as a canonical one is canonical. -/
theorem State.canonical_of_eq {s t : State} (h : s.canonical) (m : t.mem = s.mem) (c : t.csb = s.csb) (r : t.regs = s.regs) : t.canonical :=
  ⟨m ▸ h.mem, c ▸ h.csb, r ▸ h.regs⟩

@[simp] theorem State.canonical_mem {s : State} (h : s.canonical) : tblOk 0#8 s.mem = true := h.mem
@[simp] theorem State.canonical_csb {s : State} (h : s.canonical) : tblOk 0#8 s.csb = true := h.csb
@[simp] theorem State.canonical_regs {s : State} (h : s.canonical) : regsOk s.regs = true := h.regs
@[simp] theorem memOk_put' {m : List Host.Cell} (a : Nat) (bs : List Byte) (h : tblOk 0#8 m = true) : tblOk 0#8 (memPut m a bs) = true :=
  memOk_put m a bs h
@[simp] theorem memOk_byte {m : List Host.Cell} (a : Nat) (b : Byte) (h : tblOk 0#8 m = true) : tblOk 0#8 (tblPut 0#8 m a b) = true :=
  tblOk_put _ m a b h
@[simp] theorem memOk_nil : tblOk 0#8 ([] : List Host.Cell) = true := rfl
@[simp] theorem regsOk_nil : regsOk [] = true := rfl

@[simp] theorem State.canonical_setReg {s : State} (o : Nat) (v : W64) (h : s.canonical) : (s.setReg o v).canonical :=
  ⟨h.mem, h.csb, s.regsOk_setReg o v h.regs⟩

@[simp] theorem State.canonical_foldl {α : Type} (f : State → α → State) (hf : ∀ a s, s.canonical → (f s a).canonical) (l : List α) :
    ∀ s : State, s.canonical → (l.foldl f s).canonical := by
  induction l with
  | nil => exact fun s h => h
  | cons a l ih => exact fun s h => ih _ (hf a s h)

@[simp] theorem State.canonical_forN (n : Nat) (f : Nat → State → State) {s : State} (hf : ∀ i s, s.canonical → (f i s).canonical) (h : s.canonical) :
    (forN n f s).canonical := State.canonical_foldl _ (fun a s => hf a s) _ s h

@[simp] theorem State.canonical_forL {α : Type} (l : List α) (f : α → State → State) {s : State} (hf : ∀ a s, s.canonical → (f a s).canonical)
    (h : s.canonical) : (forL l f s).canonical := State.canonical_foldl _ (fun a s => hf a s) _ s h

@[simp] theorem State.canonical_mk {x0 x1 x2 x3 x4 x5 x6 x7 x8 x9 x10 x11 x12 x13 x14 x15 x16 x17 x18 x19 x20 x21 x22 x23 x24 x25 x26 x27 x28 x29 x30 x31 x32 x33 x34 x35} : State.canonical (State.mk x0 x1 x2 x3 x4 x5 x6 x7 x8 x9 x10 x11 x12 x13 x14 x15 x16 x17 x18 x19 x20 x21 x22 x23 x24 x25 x26 x27 x28 x29 x30 x31 x32 x33 x34 x35) ↔
    tblOk 0#8 x4 = true ∧ tblOk 0#8 x6 = true ∧ regsOk x1 = true :=
  State.canonical_iff _


@[simp] theorem State.canonical_ite {c : Prop} [Decidable c] {a b : State} (ha : a.canonical) (hb : b.canonical) : (if c then a else b).canonical := by
  split <;> assumption

@[simp] theorem State.canonical_ite_snd {α : Type} {c : Prop} [Decidable c] {a b : α × State} (ha : a.2.canonical) (hb : b.2.canonical) :
    (if c then a else b).2.canonical := by
  split <;> assumption

@[simp] theorem KvR.canonical_ite {c : Prop} [Decidable c] {a b : KvR} (ha : a.canonical) (hb : b.canonical) : KvR.canonical (if c then a else b) := by
  split <;> assumption

@[simp] theorem State.canonical_reset : State.reset.canonical := ⟨by decide, by decide, by decide⟩
@[simp] theorem State.reset_csb : State.reset.csb = [] := rfl
@[simp] theorem State.reset_regs : State.reset.regs = [] := rfl

@[simp] theorem State.canonical_wf {s : State} (f : Fld) (v : Nat) (hc : s.canonical) : (State.wf s f v).canonical := by
  simp (maxDischargeDepth := 60) +contextual [State.wf, *]

@[simp] theorem State.canonical_inc {s : State} (f : Fld) (n : Nat) (hc : s.canonical) : (State.inc s f n).canonical := by
  simp (maxDischargeDepth := 60) +contextual [State.inc, *]

@[simp] theorem State.canonical_incSat {s : State} (f : Fld) (n : Nat) (hc : s.canonical) : (State.incSat s f n).canonical := by
  simp (maxDischargeDepth := 60) +contextual [State.incSat, *]

@[simp] theorem State.canonical_wb {s : State} (f : Fld) (v : Bool) (hc : s.canonical) : (State.wb s f v).canonical := by
  simp (maxDischargeDepth := 60) +contextual [State.wb, *]

@[simp] theorem State.canonical_startT {s : State} (t : Tm) (hc : s.canonical) : (State.startT s t).canonical := by
  simp (maxDischargeDepth := 60) +contextual [State.startT, *]

@[simp] theorem State.canonical_stopT {s : State} (t : Tm) (hc : s.canonical) : (State.stopT s t).canonical := by
  simp (maxDischargeDepth := 60) +contextual [State.stopT, *]

@[simp] theorem State.canonical_takeFree {s : State} (hc : s.canonical) : (State.takeFree s).2.canonical := by
  simp (maxDischargeDepth := 60) +contextual [State.takeFree, *]

@[simp] theorem State.canonical_takeDrbg {s : State} (hc : s.canonical) : (State.takeDrbg s).2.canonical := by
  simp (maxDischargeDepth := 60) +contextual [State.takeDrbg, *]

@[simp] theorem State.canonical_setCore {s : State} (n : Nat) (c : Core) (hc : s.canonical) : (State.setCore s n c).canonical := by
  simp (maxDischargeDepth := 60) +contextual [State.setCore, *]

@[simp] theorem State.canonical_modCore {s : State} (n : Nat) (f : Core → Core) (hc : s.canonical) : (State.modCore s n f).canonical := by
  simp (maxDischargeDepth := 60) +contextual [State.modCore, *]

@[simp] theorem State.canonical_setLvl {s : State} (c : Nat) (l : Lvl) (hc : s.canonical) : (State.setLvl s c l).canonical := by
  simp (maxDischargeDepth := 60) +contextual [State.setLvl, *]

@[simp] theorem State.canonical_setCluster {s : State} (n : Nat) (c : Cluster) (hc : s.canonical) : (State.setCluster s n c).canonical := by
  simp (maxDischargeDepth := 60) +contextual [State.setCluster, *]

@[simp] theorem State.canonical_setQueue {s : State} (q : Nat) (v : Queue) (hc : s.canonical) : (State.setQueue s q v).canonical := by
  simp (maxDischargeDepth := 60) +contextual [State.setQueue, *]

@[simp] theorem State.canonical_modQueue {s : State} (q : Nat) (f : Queue → Queue) (hc : s.canonical) : (State.modQueue s q f).canonical := by
  simp (maxDischargeDepth := 60) +contextual [State.modQueue, *]

@[simp] theorem State.canonical_setInlet {s : State} (n : Nat) (v : Inlet) (hc : s.canonical) : (State.setInlet s n v).canonical := by
  simp (maxDischargeDepth := 60) +contextual [State.setInlet, *]

@[simp] theorem State.canonical_setLink {s : State} (n : Nat) (v : Link) (hc : s.canonical) : (State.setLink s n v).canonical := by
  simp (maxDischargeDepth := 60) +contextual [State.setLink, *]

@[simp] theorem State.canonical_setDrover {s : State} (n : Nat) (v : Drover) (hc : s.canonical) : (State.setDrover s n v).canonical := by
  simp (maxDischargeDepth := 60) +contextual [State.setDrover, *]

@[simp] theorem State.canonical_loadRegions {s : State} (n : Nat) (hc : s.canonical) : (State.loadRegions s n).canonical := by
  simp (maxDischargeDepth := 60) +contextual [State.loadRegions, *]

@[simp] theorem State.canonical_enterComponent {s : State} (n : Nat) (component : Nat) (hc : s.canonical) : (State.enterComponent s n component).canonical := by
  simp (maxDischargeDepth := 60) +contextual [State.enterComponent, *]

@[simp] theorem State.canonical_duty {s : State} (n : Nat) (hc : s.canonical) : (State.duty s n).canonical := by
  simp (maxDischargeDepth := 60) +contextual [State.duty, *]

@[simp] theorem State.canonical_setSlow {s : State} (c : Nat) (v : Slow) (hc : s.canonical) : (State.setSlow s c v).canonical := by
  simp (maxDischargeDepth := 60) +contextual [State.setSlow, *]

@[simp] theorem State.canonical_rearm {s : State} (hc : s.canonical) : (State.rearm s).canonical := by
  simp (maxDischargeDepth := 60) +contextual [State.rearm, *]

@[simp] theorem State.canonical_sendVec {s : State} (v : Nat) (hc : s.canonical) : (State.sendVec s v).canonical := by
  simp (maxDischargeDepth := 60) +contextual [State.sendVec, *]

@[simp] theorem State.canonical_sendVecAfter {s : State} (v : Nat) (qn : Nat) (slot : Nat) (hc : s.canonical) : (State.sendVecAfter s v qn slot).canonical := by
  simp (maxDischargeDepth := 60) +contextual [State.sendVecAfter, *]

@[simp] theorem State.canonical_raise {s : State} (b : Nat) (i : Nat) (hc : s.canonical) : (State.raise s b i).canonical := by
  simp (maxDischargeDepth := 60) +contextual [State.raise, *]

@[simp] theorem State.canonical_setErr {s : State} (b : Nat) (code : Nat) (info : Nat) (addr : Nat) (hc : s.canonical) : (State.setErr s b code info addr).canonical := by
  simp (maxDischargeDepth := 60) +contextual [State.setErr, *]

@[simp] theorem State.canonical_logPut {s : State} (e : LogEntry) (hc : s.canonical) : (State.logPut s e).canonical := by
  simp (maxDischargeDepth := 60) +contextual [State.logPut, *]

@[simp] theorem State.canonical_logEv {s : State} (code : Nat) (status : Nat) (ctx : Nat) (qn : Nat) (value : Nat) (hc : s.canonical) : (State.logEv s code status ctx qn value).canonical := by
  simp (maxDischargeDepth := 60) +contextual [State.logEv, *]

@[simp] theorem State.canonical_logLater {s : State} (code : Nat) (status : Nat) (ctx : Nat) (qn : Nat) (value : Nat) (hc : s.canonical) : (State.logLater s code status ctx qn value).canonical := by
  unfold State.logLater
  try dsimp only
  repeat' (first
    | (simp (maxDischargeDepth := 60) +contextual [*]; done)
    | refine State.canonical_forN _ _ (fun i s h => ?_) ?_ <;> try dsimp only
    | refine State.canonical_forL _ _ (fun i s h => ?_) ?_ <;> try dsimp only
    | split)

@[simp] theorem State.canonical_logWaiting {s : State}  (hc : s.canonical) : (State.logWaiting s ).canonical := by
  unfold State.logWaiting
  try dsimp only
  repeat' (first
    | (simp (maxDischargeDepth := 60) +contextual [*]; done)
    | refine State.canonical_forN _ _ (fun i s h => ?_) ?_ <;> try dsimp only
    | refine State.canonical_forL _ _ (fun i s h => ?_) ?_ <;> try dsimp only
    | split)

@[simp] theorem State.canonical_putByte {s : State} (a : Nat) (v : Byte) (hc : s.canonical) : (State.putByte s a v).canonical := by
  simp (maxDischargeDepth := 60) +contextual [State.putByte, *]

@[simp] theorem State.canonical_setPoison {s : State} (a : Nat) (p : Bool) (hc : s.canonical) : (State.setPoison s a p).canonical := by
  simp (maxDischargeDepth := 60) +contextual [State.setPoison, *]

@[simp] theorem State.canonical_putLine {s : State} (slot : Nat) (la : Nat) (bs : List Byte) (hc : s.canonical) : (State.putLine s slot la bs).canonical := by
  simp (maxDischargeDepth := 60) +contextual [State.putLine, *]

@[simp] theorem State.canonical_writeLine {s : State} (slot : Nat) (a : Nat) (bs : List Byte) (p : Bool) (hc : s.canonical) : (State.writeLine s slot a bs p).1.canonical := by
  unfold State.writeLine
  dsimp only
  repeat' (first | (simp (maxDischargeDepth := 60) +contextual [*]; done) | split)

@[simp] theorem State.canonical_mpErr {s : State} (port : Nat) (code : Nat) (ctx : Nat) (slot : Nat) (reason : Nat) (inst : Bool) (hpa : Nat) (hc : s.canonical) : (State.mpErr s port code ctx slot reason inst hpa).canonical := by
  simp (maxDischargeDepth := 60) +contextual [State.mpErr, *]

@[simp] theorem State.canonical_fabErr {s : State} (port : Nat) (ctx : Nat) (slot : Nat) (inst : Bool) (hpa : Nat) (hc : s.canonical) : (State.fabErr s port ctx slot inst hpa).canonical := by
  simp (maxDischargeDepth := 60) +contextual [State.fabErr, *]

@[simp] theorem State.canonical_tookLine {s : State} (port : Nat) (ctx : Nat) (slot : Nat) (inst : Bool) (hpa : Nat) (n : Nat) (hc : s.canonical) : (State.tookLine s port ctx slot inst hpa n).canonical := by
  simp (maxDischargeDepth := 60) +contextual [State.tookLine, *]

@[simp] theorem State.canonical_tookPieces {s : State} (ctx : Nat) (slot : Nat) (ps : List (Nat × List Byte)) (hc : s.canonical) : (State.tookPieces s ctx slot ps).canonical := by
  unfold State.tookPieces
  try dsimp only
  repeat' (first
    | (simp (maxDischargeDepth := 60) +contextual [*]; done)
    | refine State.canonical_forN _ _ (fun i s h => ?_) ?_ <;> try dsimp only
    | refine State.canonical_forL _ _ (fun i s h => ?_) ?_ <;> try dsimp only
    | split)

@[simp] theorem State.canonical_tookInst {s : State} (slot : Nat) (hpa : Nat) (n : Nat) (hc : s.canonical) : (State.tookInst s slot hpa n).canonical := by
  simp (maxDischargeDepth := 60) +contextual [State.tookInst, *]

@[simp] theorem State.canonical_tookShep {s : State} (hpa : Nat) (n : Nat) (hc : s.canonical) : (State.tookShep s hpa n).canonical := by
  unfold State.tookShep
  try dsimp only
  repeat' (first
    | (simp (maxDischargeDepth := 60) +contextual [*]; done)
    | refine State.canonical_forN _ _ (fun i s h => ?_) ?_ <;> try dsimp only
    | refine State.canonical_forL _ _ (fun i s h => ?_) ?_ <;> try dsimp only
    | split)

@[simp] theorem State.canonical_flightUp {s : State} (slot : Nat) (hc : s.canonical) : (State.flightUp s slot).canonical := by
  simp (maxDischargeDepth := 60) +contextual [State.flightUp, *]

@[simp] theorem State.canonical_flightDown {s : State} (slot : Nat) (hc : s.canonical) : (State.flightDown s slot).canonical := by
  simp (maxDischargeDepth := 60) +contextual [State.flightDown, *]

@[simp] theorem State.canonical_setCmd {s : State} (c : Cmd) (hc : s.canonical) : (State.setCmd s c).canonical := by
  simp (maxDischargeDepth := 60) +contextual [State.setCmd, *]

@[simp] theorem State.canonical_modCmd {s : State} (qn : Nat) (slot : Nat) (f : Cmd → Cmd) (hc : s.canonical) : (State.modCmd s qn slot f).canonical := by
  simp (maxDischargeDepth := 60) +contextual [State.modCmd, *]

@[simp] theorem State.canonical_keepChecked {s : State} (l : List Cmd) (hc : s.canonical) : (State.keepChecked s l).canonical := by
  simp (maxDischargeDepth := 60) +contextual [State.keepChecked, *]

@[simp] theorem State.canonical_halt {s : State} (q : Nat) (reason : Nat) (hc : s.canonical) : (State.halt s q reason).canonical := by
  simp (maxDischargeDepth := 60) +contextual [State.halt, *]

@[simp] theorem State.canonical_sigFail {s : State} (qn : Nat) (slot : Nat) (status : Nat) (hc : s.canonical) : (State.sigFail s qn slot status).canonical := by
  simp (maxDischargeDepth := 60) +contextual [State.sigFail, *]

@[simp] theorem State.canonical_countSent {s : State} (r : Req) (n : Nat) (hc : s.canonical) : (State.countSent s r n).canonical := by
  simp (maxDischargeDepth := 60) +contextual [State.countSent, *]

@[simp] theorem State.canonical_mergeRead {s : State} (r : Req) (n : Nat) (hc : s.canonical) : (State.mergeRead s r n).canonical := by
  simp (maxDischargeDepth := 60) +contextual [State.mergeRead, *]

@[simp] theorem State.canonical_push {s : State} (t : Txn) (hc : s.canonical) : (State.push s t).canonical := by
  simp (maxDischargeDepth := 60) +contextual [State.push, *]

@[simp] theorem State.canonical_sentTo {s : State} (x : Sent) (hc : s.canonical) : (State.sentTo s x).canonical := by
  simp (maxDischargeDepth := 60) +contextual [State.sentTo, *]

@[simp] theorem State.canonical_markBad {s : State} (z1 : Option Nat) (hc : s.canonical) : (State.markBad s z1).canonical := by
  unfold State.markBad
  split <;> simp (maxDischargeDepth := 60) +contextual [*]

@[simp] theorem State.canonical_refuseWrite {s : State} (r : Req) (hc : s.canonical) : (State.refuseWrite s r).canonical := by
  simp (maxDischargeDepth := 60) +contextual [State.refuseWrite, *]

@[simp] theorem State.canonical_sendWrite {s : State} (r : Req) (id : Nat) (bs : List Byte) (p : Bool) (hold : Bool) (hc : s.canonical) : (State.sendWrite s r id bs p hold).canonical := by
  simp (maxDischargeDepth := 60) +contextual [State.sendWrite, *]

@[simp] theorem State.canonical_refuseAtomic {s : State} (port : Nat) (ctx : Nat) (slot : Nat) (hpa : Nat) (inst : Bool) (hc : s.canonical) : (State.refuseAtomic s port ctx slot hpa inst).canonical := by
  simp (maxDischargeDepth := 60) +contextual [State.refuseAtomic, *]

@[simp] theorem State.canonical_nearAtomic {s : State} (r : Req) (id : Nat) (w : Nat) (f : Nat → Nat) (hc : s.canonical) : (State.nearAtomic s r id w f).canonical := by
  unfold State.nearAtomic
  dsimp only
  repeat' (first | (simp (maxDischargeDepth := 60) +contextual [*]; done) | split)

@[simp] theorem State.canonical_joinDrains {s : State} (r : Req) (id : Nat) (hc : s.canonical) : (State.joinDrains s r id).canonical := by
  simp (maxDischargeDepth := 60) +contextual [State.joinDrains, *]

@[simp] theorem State.canonical_accept {s : State} (r : Req) (id : Nat) (hc : s.canonical) : (State.accept s r id).canonical := by
  unfold State.accept
  split <;> simp (maxDischargeDepth := 60) +contextual [*]

@[simp] theorem State.canonical_request {s : State} (r : Req) (hc : s.canonical) : (State.request s r).canonical := by
  unfold State.request
  split <;> simp (maxDischargeDepth := 60) +contextual [*]

@[simp] theorem State.canonical_serveGo {z1 : State} (z0 : List Req) (hc : z1.canonical) : (State.serveGo z0 z1).canonical := by
  induction z0 generalizing z1 
  all_goals
    unfold State.serveGo
    try dsimp only
    repeat' (first
      | (simp (maxDischargeDepth := 60) +contextual [*]; done)
      | refine State.canonical_forN _ _ (fun i s h => ?_) ?_ <;> try dsimp only
      | refine State.canonical_forL _ _ (fun i s h => ?_) ?_ <;> try dsimp only
      | (split <;> (try (rename_i heq; (first
          | have he := congrArg (fun p => State.canonical (Prod.snd p)) heq
          | have he := congrArg KvR.canonical heq
          | have he := congrArg (exceptCanonical (fun p => State.canonical (Prod.snd p))) heq
          | have he := congrArg (exceptCanonical (fun p => State.canonical (Prod.fst p))) heq
          | have he := congrArg (exceptCanonical (fun _ => True)) heq
          | have he := congrArg (fun p => State.canonical (Prod.fst p)) heq); clear heq; simp (maxDischargeDepth := 60) +contextual [*] at he))))

@[simp] theorem State.canonical_serveWaiting {s : State} (hc : s.canonical) : (State.serveWaiting s).canonical := by
  simp (maxDischargeDepth := 60) +contextual [State.serveWaiting, *]

@[simp] theorem State.canonical_putNow {s : State} (r : Req) (hc : s.canonical) : (State.putNow s r).canonical := by
  simp (maxDischargeDepth := 60) +contextual [State.putNow, *]

@[simp] theorem State.canonical_instLine {s : State} (slot : Nat) (prio : Bool) (mp0 : Bool) (p : Nat × List Byte) (hc : s.canonical) : (State.instLine s slot prio mp0 p).canonical := by
  simp (maxDischargeDepth := 60) +contextual [State.instLine, *]

@[simp] theorem State.canonical_instPut {s : State} (slot : Nat) (a : Nat) (bs : List Byte) (prio : Bool) (mp0 : Bool) (hc : s.canonical) : (State.instPut s slot a bs prio mp0).canonical := by
  simp (maxDischargeDepth := 60) +contextual [State.instPut, *]

@[simp] theorem State.canonical_dropOwed {s : State} (port : Nat) (id : Nat) (hc : s.canonical) : (State.dropOwed s port id).canonical := by
  simp (maxDischargeDepth := 60) +contextual [State.dropOwed, *]

@[simp] theorem State.canonical_retireTxn {s : State} (t : Txn) (hc : s.canonical) : (State.retireTxn s t).canonical := by
  simp (maxDischargeDepth := 60) +contextual [State.retireTxn, *]

@[simp] theorem State.canonical_tlbFill {s : State} (t : Tlb) (hc : s.canonical) : (State.tlbFill s t).canonical := by
  unfold State.tlbFill
  dsimp only
  repeat' (first | (simp (maxDischargeDepth := 60) +contextual [*]; done) | split)

@[simp] theorem State.canonical_utlbFill {s : State} (core : Option Nat) (t : Tlb) (hc : s.canonical) : (State.utlbFill s core t).canonical := by
  unfold State.utlbFill
  split <;> simp (maxDischargeDepth := 60) +contextual [*]

@[simp] theorem State.canonical_walkCacheAdd {s : State} (c : Nat) (w : WalkEnt) (hc : s.canonical) : (State.walkCacheAdd s c w).canonical := by
  simp (maxDischargeDepth := 60) +contextual [State.walkCacheAdd, *]

@[simp] theorem State.canonical_walked {s : State} (cl : Option Nat) (r : Combined) (g : WLog) (hc : s.canonical) : (State.walked s cl r g).canonical := by
  unfold State.walked
  try dsimp only
  repeat' (first
    | (simp (maxDischargeDepth := 60) +contextual [*]; done)
    | refine State.canonical_forN _ _ (fun i s h => ?_) ?_ <;> try dsimp only
    | refine State.canonical_forL _ _ (fun i s h => ?_) ?_ <;> try dsimp only
    | split)

@[simp] theorem State.canonical_walkFill {s : State} (cl : Option Nat) (ctx : Nat) (eva : Nat) (hc : s.canonical) : (State.walkFill s cl ctx eva).2.canonical := by
  unfold State.walkFill
  dsimp only
  repeat' (first | (simp (maxDischargeDepth := 60) +contextual [*]; done) | split)

@[simp] theorem State.canonical_takeWalk {s : State} (core : Option Nat) (z2 : Combined) (hc : s.canonical) : (State.takeWalk s core z2).canonical := by
  unfold State.takeWalk
  split <;> simp (maxDischargeDepth := 60) +contextual [*]

@[simp] theorem State.canonical_cached {s : State} (core : Option Nat) (ctx : Nat) (eva : Nat) (hc : s.canonical) : (State.cached s core ctx eva).2.canonical := by
  unfold State.cached
  repeat' (first | (simp (maxDischargeDepth := 60) +contextual [*]; done) | split)

@[simp] theorem State.canonical_xlateEva {s : State} (core : Option Nat) (ctx eva right : Nat) (hc : s.canonical) :
    (s.xlateEva core ctx eva right).2.canonical := by
  have h := State.canonical_cached core ctx eva hc
  unfold State.xlateEva
  split
  · rename_i heq
    rw [heq] at h
    exact h
  · rename_i heq
    rw [heq] at h
    replace h : State.canonical _ := h
    cases core <;> simp (maxDischargeDepth := 60) [h]

@[simp] theorem State.canonical_xlateAt {s : State} (core : Option Nat) (ctx : Nat) (seg : Nat) (off : Nat) (right : Nat) (hc : s.canonical) : (State.xlateAt s core ctx seg off right).2.canonical := by
  unfold State.xlateAt
  split <;> simp (maxDischargeDepth := 60) +contextual [*]

@[simp] theorem State.canonical_xltErr {s : State} (ctx : Nat) (kind : Nat) (stage : Nat) (eva : Nat) (hc : s.canonical) : (State.xltErr s ctx kind stage eva).canonical := by
  simp (maxDischargeDepth := 60) +contextual [State.xltErr, *]

@[simp] theorem State.canonical_xlate {s : State} (ctx : Nat) (seg : Nat) (off : Nat) (right : Nat) (hc : s.canonical) : (State.xlate s ctx seg off right).2.canonical := by
  unfold State.xlate
  try dsimp only
  repeat' (first
    | (simp (maxDischargeDepth := 60) +contextual [*]; done)
    | refine State.canonical_forN _ _ (fun i s h => ?_) ?_ <;> try dsimp only
    | refine State.canonical_forL _ _ (fun i s h => ?_) ?_ <;> try dsimp only
    | (split <;> (try (rename_i heq; (first
        | have he := congrArg (fun p => State.canonical (Prod.snd p)) heq
        | have he := congrArg KvR.canonical heq
        | have he := congrArg (exceptCanonical (fun p => State.canonical (Prod.snd p))) heq
        | have he := congrArg (exceptCanonical (fun p => State.canonical (Prod.fst p))) heq
        | have he := congrArg (exceptCanonical (fun _ => True)) heq
        | have he := congrArg (fun p => State.canonical (Prod.fst p)) heq); clear heq; simp (maxDischargeDepth := 60) +contextual [*] at he))))

@[simp] theorem State.canonical_xlateSpan {s : State} (ctx : Nat) (addr : Nat) (right : Nat) (z4 : List (Nat × List Byte)) (hc : s.canonical) : (State.xlateSpan s ctx addr right z4).2.canonical := by
  induction z4 generalizing s 
  all_goals
    unfold State.xlateSpan
    try dsimp only
    repeat' (first
      | (simp (maxDischargeDepth := 60) +contextual [*]; done)
      | refine State.canonical_forN _ _ (fun i s h => ?_) ?_ <;> try dsimp only
      | refine State.canonical_forL _ _ (fun i s h => ?_) ?_ <;> try dsimp only
      | (split <;> (try (rename_i heq; (first
          | have he := congrArg (fun p => State.canonical (Prod.snd p)) heq
          | have he := congrArg KvR.canonical heq
          | have he := congrArg (exceptCanonical (fun p => State.canonical (Prod.snd p))) heq
          | have he := congrArg (exceptCanonical (fun p => State.canonical (Prod.fst p))) heq
          | have he := congrArg (exceptCanonical (fun _ => True)) heq
          | have he := congrArg (fun p => State.canonical (Prod.fst p)) heq); clear heq; simp (maxDischargeDepth := 60) +contextual [*] at he))))

@[simp] theorem State.canonical_slotRefused {s : State} (ctx : Nat) (hpa : Nat) (hc : s.canonical) : (State.slotRefused s ctx hpa).canonical := by
  simp (maxDischargeDepth := 60) +contextual [State.slotRefused, *]

@[simp] theorem State.canonical_spanRefused {s : State} (ctx : Nat) (ps : List (Nat × List Byte)) (hc : s.canonical) : (State.spanRefused s ctx ps).canonical := by
  unfold State.spanRefused
  split <;> simp (maxDischargeDepth := 60) +contextual [*]

@[simp] theorem State.canonical_ctxRead {s : State} (ctx : Nat) (addr : Nat) (n : Nat) (hc : s.canonical) : (State.ctxRead s ctx addr n).2.canonical := by
  unfold State.ctxRead
  try dsimp only
  repeat' (first
    | (simp (maxDischargeDepth := 60) +contextual [*]; done)
    | refine State.canonical_forN _ _ (fun i s h => ?_) ?_ <;> try dsimp only
    | refine State.canonical_forL _ _ (fun i s h => ?_) ?_ <;> try dsimp only
    | (split <;> (try (rename_i heq; (first
        | have he := congrArg (fun p => State.canonical (Prod.snd p)) heq
        | have he := congrArg KvR.canonical heq
        | have he := congrArg (exceptCanonical (fun p => State.canonical (Prod.snd p))) heq
        | have he := congrArg (exceptCanonical (fun p => State.canonical (Prod.fst p))) heq
        | have he := congrArg (exceptCanonical (fun _ => True)) heq
        | have he := congrArg (fun p => State.canonical (Prod.fst p)) heq); clear heq; simp (maxDischargeDepth := 60) +contextual [*] at he))))

@[simp] theorem State.canonical_writePieces {s : State} (ctx : Nat) (slot : Nat) (cl : Client) (z4 : List (Nat × List Byte)) (hc : s.canonical) : (State.writePieces s ctx slot cl z4).canonical := by
  induction z4 generalizing s 
  all_goals
    unfold State.writePieces
    try dsimp only
    repeat' (first
      | (simp (maxDischargeDepth := 60) +contextual [*]; done)
      | refine State.canonical_forN _ _ (fun i s h => ?_) ?_ <;> try dsimp only
      | refine State.canonical_forL _ _ (fun i s h => ?_) ?_ <;> try dsimp only
      | (split <;> (try (rename_i heq; (first
          | have he := congrArg (fun p => State.canonical (Prod.snd p)) heq
          | have he := congrArg KvR.canonical heq
          | have he := congrArg (exceptCanonical (fun p => State.canonical (Prod.snd p))) heq
          | have he := congrArg (exceptCanonical (fun p => State.canonical (Prod.fst p))) heq
          | have he := congrArg (exceptCanonical (fun _ => True)) heq
          | have he := congrArg (fun p => State.canonical (Prod.fst p)) heq); clear heq; simp (maxDischargeDepth := 60) +contextual [*] at he))))

@[simp] theorem State.canonical_ctxWrite {s : State} (ctx : Nat) (addr : Nat) (bs : List Byte) (cl : Client) (hc : s.canonical) : (State.ctxWrite s ctx addr bs cl).2.canonical := by
  unfold State.ctxWrite
  try dsimp only
  repeat' (first
    | (simp (maxDischargeDepth := 60) +contextual [*]; done)
    | refine State.canonical_forN _ _ (fun i s h => ?_) ?_ <;> try dsimp only
    | refine State.canonical_forL _ _ (fun i s h => ?_) ?_ <;> try dsimp only
    | (split <;> (try (rename_i heq; (first
        | have he := congrArg (fun p => State.canonical (Prod.snd p)) heq
        | have he := congrArg KvR.canonical heq
        | have he := congrArg (exceptCanonical (fun p => State.canonical (Prod.snd p))) heq
        | have he := congrArg (exceptCanonical (fun p => State.canonical (Prod.fst p))) heq
        | have he := congrArg (exceptCanonical (fun _ => True)) heq
        | have he := congrArg (fun p => State.canonical (Prod.fst p)) heq); clear heq; simp (maxDischargeDepth := 60) +contextual [*] at he))))

@[simp] theorem State.canonical_queueReport {s : State} (r : Report) (hc : s.canonical) : (State.queueReport s r).canonical := by
  simp (maxDischargeDepth := 60) +contextual [State.queueReport, *]

@[simp] theorem State.canonical_report {s : State} (r : Report) (hc : s.canonical) : (State.report s r).canonical := by
  simp (maxDischargeDepth := 60) +contextual [State.report, *]

@[simp] theorem State.canonical_tlbDrop {s : State} (p : Tlb → Bool) (w : WalkEnt → Bool) (hc : s.canonical) : (State.tlbDrop s p w).canonical := by
  simp (maxDischargeDepth := 60) +contextual [State.tlbDrop, *]

@[simp] theorem State.canonical_doorbell {s : State} (q : Nat) (v : Nat) (fromInlet : Bool) (hc : s.canonical) : (State.doorbell s q v fromInlet).canonical := by
  unfold State.doorbell
  repeat' (first | (simp (maxDischargeDepth := 60) +contextual [*]; done) | split)

@[simp] theorem State.canonical_cqHeadWrite {s : State} (q : Nat) (v : Nat) (hc : s.canonical) : (State.cqHeadWrite s q v).canonical := by
  simp (maxDischargeDepth := 60) +contextual [State.cqHeadWrite, *]

@[simp] theorem State.canonical_readSlot {s : State} (q : Nat) (p : Nat) (hc : s.canonical) : (State.readSlot s q p).2.canonical := by
  simp (maxDischargeDepth := 60) +contextual [State.readSlot, *]

@[simp] theorem State.canonical_haltNoRecord {s : State} (q : Nat) (reason : Nat) (hc : s.canonical) : (State.haltNoRecord s q reason).canonical := by
  simp (maxDischargeDepth := 60) +contextual [State.haltNoRecord, *]

@[simp] theorem State.canonical_haltFetch {s : State} (q : Nat) (reason : Nat) (hc : s.canonical) : (State.haltFetch s q reason).canonical := by
  simp (maxDischargeDepth := 60) +contextual [State.haltFetch, *]

@[simp] theorem State.canonical_putRecord {s : State} (c : Cmd) (hc : s.canonical) : (State.putRecord s c).2.canonical := by
  simp (maxDischargeDepth := 60) +contextual [State.putRecord, *]

@[simp] theorem State.canonical_dropCmd {s : State} (c : Cmd) (hc : s.canonical) : (State.dropCmd s c).canonical := by
  simp (maxDischargeDepth := 60) +contextual [State.dropCmd, *]

@[simp] theorem State.canonical_kvdError {s : State} (c : Cmd) (hc : s.canonical) : (State.kvdError s c).canonical := by
  simp (maxDischargeDepth := 60) +contextual [State.kvdError, *]

@[simp] theorem State.canonical_afterRecord {s : State} (c : Cmd) (hc : s.canonical) : (State.afterRecord s c).canonical := by
  simp (maxDischargeDepth := 60) +contextual [State.afterRecord, *]

@[simp] theorem State.canonical_acquire {s : State} (ctx : Nat) (hc : s.canonical) : (State.acquire s ctx).canonical := by
  simp (maxDischargeDepth := 60) +contextual [State.acquire, *]

@[simp] theorem State.canonical_qProgress {s : State} (q : Nat) (hc : s.canonical) : (State.qProgress s q).canonical := by
  simp (maxDischargeDepth := 60) +contextual [State.qProgress, *]

@[simp] theorem State.canonical_enter4 {s : State} (c : Cmd) (hc : s.canonical) : (State.enter4 s c).canonical := by
  simp (maxDischargeDepth := 60) +contextual [State.enter4, *]

@[simp] theorem State.canonical_failCmd {s : State} (c : Cmd) (status : Nat) (hc : s.canonical) : (State.failCmd s c status).canonical := by
  simp (maxDischargeDepth := 60) +contextual [State.failCmd, *]

@[simp] theorem State.canonical_waitRead {s : State} (c : Cmd) (hc : s.canonical) : (State.waitRead s c).canonical := by
  unfold State.waitRead
  try dsimp only
  repeat' (first
    | (simp (maxDischargeDepth := 60) +contextual [*]; done)
    | refine State.canonical_forN _ _ (fun i s h => ?_) ?_ <;> try dsimp only
    | refine State.canonical_forL _ _ (fun i s h => ?_) ?_ <;> try dsimp only
    | (split <;> (try (rename_i heq; (first
        | have he := congrArg (fun p => State.canonical (Prod.snd p)) heq
        | have he := congrArg KvR.canonical heq
        | have he := congrArg (exceptCanonical (fun p => State.canonical (Prod.snd p))) heq
        | have he := congrArg (exceptCanonical (fun p => State.canonical (Prod.fst p))) heq
        | have he := congrArg (exceptCanonical (fun _ => True)) heq
        | have he := congrArg (fun p => State.canonical (Prod.fst p)) heq); clear heq; simp (maxDischargeDepth := 60) +contextual [*] at he))))

@[simp] theorem State.canonical_rereadAll {s : State} (hc : s.canonical) : (State.rereadAll s).canonical := by
  simp (maxDischargeDepth := 60) +contextual [State.rereadAll, *]

@[simp] theorem State.canonical_signalAdd {s : State} (g : Sig) (hc : s.canonical) : (State.signalAdd s g).canonical := by
  unfold State.signalAdd
  try dsimp only
  repeat' (first
    | (simp (maxDischargeDepth := 60) +contextual [*]; done)
    | refine State.canonical_forN _ _ (fun i s h => ?_) ?_ <;> try dsimp only
    | refine State.canonical_forL _ _ (fun i s h => ?_) ?_ <;> try dsimp only
    | (split <;> (try (rename_i heq; (first
        | have he := congrArg (fun p => State.canonical (Prod.snd p)) heq
        | have he := congrArg KvR.canonical heq
        | have he := congrArg (exceptCanonical (fun p => State.canonical (Prod.snd p))) heq
        | have he := congrArg (exceptCanonical (fun p => State.canonical (Prod.fst p))) heq
        | have he := congrArg (exceptCanonical (fun _ => True)) heq
        | have he := congrArg (fun p => State.canonical (Prod.fst p)) heq); clear heq; simp (maxDischargeDepth := 60) +contextual [*] at he))))

@[simp] theorem State.canonical_sigsReady {s : State} (hc : s.canonical) : (State.sigsReady s).canonical := by
  simp (maxDischargeDepth := 60) +contextual [State.sigsReady, *]

@[simp] theorem State.canonical_complete {s : State} (c : Cmd) (hc : s.canonical) : (State.complete s c).canonical := by
  unfold State.complete
  try dsimp only
  repeat' (first
    | (simp (maxDischargeDepth := 60) +contextual [*]; done)
    | refine State.canonical_forN _ _ (fun i s h => ?_) ?_ <;> try dsimp only
    | refine State.canonical_forL _ _ (fun i s h => ?_) ?_ <;> try dsimp only
    | (split <;> (try (rename_i heq; (first
        | have he := congrArg (fun p => State.canonical (Prod.snd p)) heq
        | have he := congrArg KvR.canonical heq
        | have he := congrArg (exceptCanonical (fun p => State.canonical (Prod.snd p))) heq
        | have he := congrArg (exceptCanonical (fun p => State.canonical (Prod.fst p))) heq
        | have he := congrArg (exceptCanonical (fun _ => True)) heq
        | have he := congrArg (fun p => State.canonical (Prod.fst p)) heq); clear heq; simp (maxDischargeDepth := 60) +contextual [*] at he))))

@[simp] theorem State.canonical_offRegs {s : State} (lo : Nat) (hi : Nat) (hc : s.canonical) : (State.offRegs s lo hi).canonical := by
  simp (maxDischargeDepth := 60) +contextual [State.offRegs, *]

@[simp] theorem State.canonical_resetP02Up {s : State} (hc : s.canonical) : (State.resetP02Up s).canonical := by
  simp (maxDischargeDepth := 60) +contextual [State.resetP02Up, *]

@[simp] theorem State.canonical_clearTile {s : State} (n : Nat) (hc : s.canonical) : (State.clearTile s n).canonical := by
  simp (maxDischargeDepth := 60) +contextual [State.clearTile, *]

@[simp] theorem State.canonical_orphan {s : State} (n : Nat) (hc : s.canonical) : (State.orphan s n).canonical := by
  simp (maxDischargeDepth := 60) +contextual [State.orphan, *]

@[simp] theorem State.canonical_dropAhead {s : State} (n : Nat) (hc : s.canonical) : (State.dropAhead s n).canonical := by
  simp (maxDischargeDepth := 60) +contextual [State.dropAhead, *]

@[simp] theorem State.canonical_cbsClear {s : State} (n : Nat) (hc : s.canonical) : (State.cbsClear s n).canonical := by
  simp (maxDischargeDepth := 60) +contextual [State.cbsClear, *]

@[simp] theorem State.canonical_coreOff {s : State} (n : Nat) (hc : s.canonical) : (State.coreOff s n).canonical := by
  simp (maxDischargeDepth := 60) +contextual [State.coreOff, *]

@[simp] theorem State.canonical_coreOn {s : State} (n : Nat) (hc : s.canonical) : (State.coreOn s n).canonical := by
  simp (maxDischargeDepth := 60) +contextual [State.coreOn, *]

@[simp] theorem State.canonical_mxeStop {s : State} (n : Nat) (hc : s.canonical) : (State.mxeStop s n).canonical := by
  simp (maxDischargeDepth := 60) +contextual [State.mxeStop, *]

@[simp] theorem State.canonical_quiesceNow {s : State} (n : Nat) (hc : s.canonical) : (State.quiesceNow s n).canonical := by
  simp (maxDischargeDepth := 60) +contextual [State.quiesceNow, *]

@[simp] theorem State.canonical_quiesceCore {s : State} (why : Nat) (n : Nat) (hc : s.canonical) : (State.quiesceCore s why n).canonical := by
  simp (maxDischargeDepth := 60) +contextual [State.quiesceCore, *]

@[simp] theorem State.canonical_unquiesceCore {s : State} (why : Nat) (n : Nat) (hc : s.canonical) : (State.unquiesceCore s why n).canonical := by
  simp (maxDischargeDepth := 60) +contextual [State.unquiesceCore, *]

@[simp] theorem State.canonical_quiesceAll {s : State} (why : Nat) (hc : s.canonical) : (State.quiesceAll s why).canonical := by
  simp (maxDischargeDepth := 60) +contextual [State.quiesceAll, *]

@[simp] theorem State.canonical_unquiesceAll {s : State} (why : Nat) (hc : s.canonical) : (State.unquiesceAll s why).canonical := by
  simp (maxDischargeDepth := 60) +contextual [State.unquiesceAll, *]

@[simp] theorem State.canonical_quiescedBits {s : State} (hc : s.canonical) : (State.quiescedBits s).canonical := by
  simp (maxDischargeDepth := 60) +contextual [State.quiescedBits, *]

@[simp] theorem State.canonical_endColl {s : State} (k : Coll) (status : Nat) (hc : s.canonical) : (State.endColl s k status).canonical := by
  simp (maxDischargeDepth := 60) +contextual [State.endColl, *]

@[simp] theorem State.canonical_endColls {s : State} (status : Nat) (hc : s.canonical) : (State.endColls s status).canonical := by
  simp (maxDischargeDepth := 60) +contextual [State.endColls, *]

@[simp] theorem State.canonical_trainPort {s : State} (n : Nat) (hc : s.canonical) : (State.trainPort s n).canonical := by
  simp (maxDischargeDepth := 60) +contextual [State.trainPort, *]

@[simp] theorem State.canonical_flockReady {s : State} (degraded : Bool) (hc : s.canonical) : (State.flockReady s degraded).canonical := by
  simp (maxDischargeDepth := 60) +contextual [State.flockReady, *]

@[simp] theorem State.canonical_flockAlone {s : State} (hc : s.canonical) : (State.flockAlone s).canonical := by
  simp (maxDischargeDepth := 60) +contextual [State.flockAlone, *]

@[simp] theorem State.canonical_flockStart {s : State} (hc : s.canonical) : (State.flockStart s).canonical := by
  simp (maxDischargeDepth := 60) +contextual [State.flockStart, *]

@[simp] theorem State.canonical_inletDiscard {s : State} (n : Nat) (hc : s.canonical) : (State.inletDiscard s n).canonical := by
  simp (maxDischargeDepth := 60) +contextual [State.inletDiscard, *]

@[simp] theorem State.canonical_discardFrames {s : State} (hc : s.canonical) : (State.discardFrames s).canonical := by
  simp (maxDischargeDepth := 60) +contextual [State.discardFrames, *]

@[simp] theorem State.canonical_landRecords {s : State} (hc : s.canonical) : (State.landRecords s).canonical := by
  unfold State.landRecords
  exact State.canonical_forL _ _ (fun r s h => by simp [h]) hc

@[simp] theorem State.canonical_resetRecords {s : State} (hc : s.canonical) : (State.resetRecords s).canonical := by
  simp (maxDischargeDepth := 60) +contextual [State.resetRecords, *]

@[simp] theorem State.canonical_resetMessage {s : State} (hc : s.canonical) : (State.resetMessage s).canonical := by
  simp (maxDischargeDepth := 60) +contextual [State.resetMessage, *]

@[simp] theorem State.canonical_powerCycleAll {s : State} (hc : s.canonical) : (State.powerCycleAll s).canonical := by
  simp (maxDischargeDepth := 60) +contextual [State.powerCycleAll, *]

@[simp] theorem State.canonical_dropKeys {s : State} (hc : s.canonical) : (State.dropKeys s).canonical := by
  simp (maxDischargeDepth := 60) +contextual [State.dropKeys, *]

@[simp] theorem State.canonical_trayRequest {s : State} (hc : s.canonical) : (State.trayRequest s).canonical := by
  simp (maxDischargeDepth := 60) +contextual [State.trayRequest, *]

@[simp] theorem State.canonical_resetFirst {s : State} (cause : Nat) (records : Bool) (hc : s.canonical) : (State.resetFirst s cause records).canonical := by
  simp (maxDischargeDepth := 60) +contextual [State.resetFirst, *]

@[simp] theorem State.canonical_coresReset {s : State} (hc : s.canonical) : (State.coresReset s).canonical := by
  simp (maxDischargeDepth := 60) +contextual [State.coresReset, *]

@[simp] theorem State.canonical_resetTake {s : State} (cause : Nat) (hc : s.canonical) : (State.resetTake s cause).canonical := by
  simp (maxDischargeDepth := 60) +contextual [State.resetTake, *]

@[simp] theorem State.canonical_dirUndefined {s : State} (hc : s.canonical) : (State.dirUndefined s).canonical := by
  simp (maxDischargeDepth := 60) +contextual [State.dirUndefined, *]

@[simp] theorem State.canonical_instanceReset {s : State} (cause : Nat) (records : Bool) (hc : s.canonical) : (State.instanceReset s cause records).canonical := by
  simp (maxDischargeDepth := 60) +contextual [State.instanceReset, *]

@[simp] theorem State.canonical_consistencyFail {s : State} (inQueueManager : Bool) (hc : s.canonical) : (State.consistencyFail s inQueueManager).canonical := by
  simp (maxDischargeDepth := 60) +contextual [State.consistencyFail, *]

@[simp] theorem State.canonical_sharedPoison {s : State} (inQueueManager : Bool) (hc : s.canonical) : (State.sharedPoison s inQueueManager).canonical := by
  simp (maxDischargeDepth := 60) +contextual [State.sharedPoison, *]

@[simp] theorem State.canonical_instWrite {s : State} (a : Nat) (bs : List Byte) (hc : s.canonical) : (State.instWrite s a bs).canonical := by
  simp (maxDischargeDepth := 60) +contextual [State.instWrite, *]

@[simp] theorem State.canonical_dirGet {s : State} (cl : Option Nat) (id : Nat) (hc : s.canonical) : exceptCanonical (fun p => State.canonical (Prod.snd p)) (State.dirGet s cl id) := by
  unfold State.dirGet
  dsimp only
  repeat' (first | (simp (maxDischargeDepth := 60) +contextual [*]; done) | split)

@[simp] theorem State.canonical_dirPut {s : State} (cl : Option Nat) (id : Nat) (e : DirEnt) (hc : s.canonical) : (State.dirPut s cl id e).canonical := by
  simp (maxDischargeDepth := 60) +contextual [State.dirPut, *]

@[simp] theorem State.canonical_dirFill {s : State} (cl : Nat) (d : DirCopy) (hc : s.canonical) : (State.dirFill s cl d).canonical := by
  unfold State.dirFill
  dsimp only
  repeat' (first | (simp (maxDischargeDepth := 60) +contextual [*]; done) | split)

@[simp] theorem State.canonical_dirLookup {s : State} (cl : Nat) (part : Nat) (id : Nat) (hc : s.canonical) : exceptCanonical (fun p => State.canonical (Prod.snd p)) (State.dirLookup s cl part id) := by
  unfold State.dirLookup
  try dsimp only
  repeat' (first
    | (simp (maxDischargeDepth := 60) +contextual [*]; done)
    | refine State.canonical_forN _ _ (fun i s h => ?_) ?_ <;> try dsimp only
    | refine State.canonical_forL _ _ (fun i s h => ?_) ?_ <;> try dsimp only
    | (split <;> (try (rename_i heq; (first
        | have he := congrArg (fun p => State.canonical (Prod.snd p)) heq
        | have he := congrArg KvR.canonical heq
        | have he := congrArg (exceptCanonical (fun p => State.canonical (Prod.snd p))) heq
        | have he := congrArg (exceptCanonical (fun p => State.canonical (Prod.fst p))) heq
        | have he := congrArg (exceptCanonical (fun _ => True)) heq
        | have he := congrArg (fun p => State.canonical (Prod.fst p)) heq); clear heq; simp (maxDischargeDepth := 60) +contextual [*] at he))))

@[simp] theorem State.canonical_ringPush {s : State} (id : Nat) (hc : s.canonical) : (State.ringPush s id).canonical := by
  simp (maxDischargeDepth := 60) +contextual [State.ringPush, *]

@[simp] theorem State.canonical_kvFree {s : State} (cl : Option Nat) (id : Nat) (e : DirEnt) (hc : s.canonical) : KvR.canonical (State.kvFree s cl id e) := by
  simp (maxDischargeDepth := 60) +contextual [State.kvFree, *]

@[simp] theorem State.canonical_refDown {s : State} (cl : Option Nat) (id : Nat) (hc : s.canonical) : KvR.canonical (State.refDown s cl id) := by
  unfold State.refDown
  try dsimp only
  repeat' (first
    | (simp (maxDischargeDepth := 60) +contextual [*]; done)
    | refine State.canonical_forN _ _ (fun i s h => ?_) ?_ <;> try dsimp only
    | refine State.canonical_forL _ _ (fun i s h => ?_) ?_ <;> try dsimp only
    | (split <;> (try (rename_i heq; (first
        | have he := congrArg (fun p => State.canonical (Prod.snd p)) heq
        | have he := congrArg KvR.canonical heq
        | have he := congrArg (exceptCanonical (fun p => State.canonical (Prod.snd p))) heq
        | have he := congrArg (exceptCanonical (fun p => State.canonical (Prod.fst p))) heq
        | have he := congrArg (exceptCanonical (fun _ => True)) heq
        | have he := congrArg (fun p => State.canonical (Prod.fst p)) heq); clear heq; simp (maxDischargeDepth := 60) +contextual [*] at he))))

@[simp] theorem State.canonical_refUp {s : State} (cl : Option Nat) (id : Nat) (hc : s.canonical) : KvR.canonical (State.refUp s cl id) := by
  unfold State.refUp
  try dsimp only
  repeat' (first
    | (simp (maxDischargeDepth := 60) +contextual [*]; done)
    | refine State.canonical_forN _ _ (fun i s h => ?_) ?_ <;> try dsimp only
    | refine State.canonical_forL _ _ (fun i s h => ?_) ?_ <;> try dsimp only
    | (split <;> (try (rename_i heq; (first
        | have he := congrArg (fun p => State.canonical (Prod.snd p)) heq
        | have he := congrArg KvR.canonical heq
        | have he := congrArg (exceptCanonical (fun p => State.canonical (Prod.snd p))) heq
        | have he := congrArg (exceptCanonical (fun p => State.canonical (Prod.fst p))) heq
        | have he := congrArg (exceptCanonical (fun _ => True)) heq
        | have he := congrArg (fun p => State.canonical (Prod.fst p)) heq); clear heq; simp (maxDischargeDepth := 60) +contextual [*] at he))))

@[simp] theorem State.canonical_pin {s : State} (id : Nat) (hc : s.canonical) : (State.pin s id).canonical := by
  simp (maxDischargeDepth := 60) +contextual [State.pin, *]

@[simp] theorem State.canonical_unpin {s : State} (cl : Option Nat) (id : Nat) (hc : s.canonical) : KvR.canonical (State.unpin s cl id) := by
  unfold State.unpin
  try dsimp only
  repeat' (first
    | (simp (maxDischargeDepth := 60) +contextual [*]; done)
    | refine State.canonical_forN _ _ (fun i s h => ?_) ?_ <;> try dsimp only
    | refine State.canonical_forL _ _ (fun i s h => ?_) ?_ <;> try dsimp only
    | (split <;> (try (rename_i heq; (first
        | have he := congrArg (fun p => State.canonical (Prod.snd p)) heq
        | have he := congrArg KvR.canonical heq
        | have he := congrArg (exceptCanonical (fun p => State.canonical (Prod.snd p))) heq
        | have he := congrArg (exceptCanonical (fun p => State.canonical (Prod.fst p))) heq
        | have he := congrArg (exceptCanonical (fun _ => True)) heq
        | have he := congrArg (fun p => State.canonical (Prod.fst p)) heq); clear heq; simp (maxDischargeDepth := 60) +contextual [*] at he))))

@[simp] theorem State.canonical_unpinAll {s : State} (cl : Option Nat) (z2 : List Nat) (hc : s.canonical) : KvR.canonical (State.unpinAll s cl z2) := by
  induction z2 generalizing s 
  all_goals
    unfold State.unpinAll
    try dsimp only
    repeat' (first
      | (simp (maxDischargeDepth := 60) +contextual [*]; done)
      | refine State.canonical_forN _ _ (fun i s h => ?_) ?_ <;> try dsimp only
      | refine State.canonical_forL _ _ (fun i s h => ?_) ?_ <;> try dsimp only
      | (split <;> (try (rename_i heq; (first
          | have he := congrArg (fun p => State.canonical (Prod.snd p)) heq
          | have he := congrArg KvR.canonical heq
          | have he := congrArg (exceptCanonical (fun p => State.canonical (Prod.snd p))) heq
          | have he := congrArg (exceptCanonical (fun p => State.canonical (Prod.fst p))) heq
          | have he := congrArg (exceptCanonical (fun _ => True)) heq
          | have he := congrArg (fun p => State.canonical (Prod.fst p)) heq); clear heq; simp (maxDischargeDepth := 60) +contextual [*] at he))))

@[simp] theorem State.canonical_badRef {s : State} (id : Nat) (hc : s.canonical) : (State.badRef s id).canonical := by
  simp (maxDischargeDepth := 60) +contextual [State.badRef, *]

@[simp] theorem State.canonical_dropFree {s : State} (first : Nat) (n : Nat) (hc : s.canonical) : (State.dropFree s first n).canonical := by
  simp (maxDischargeDepth := 60) +contextual [State.dropFree, *]

@[simp] theorem State.canonical_provDo {s : State} (first : Nat) (n : Nat) (hc : s.canonical) : (State.provDo s first n).canonical := by
  unfold State.provDo
  repeat' (first | (simp (maxDischargeDepth := 60) +contextual [*]; done) | refine State.canonical_forN _ _ (fun i s h => ?_) ?_ | refine State.canonical_forL _ _ (fun i s h => ?_) ?_ | split)

@[simp] theorem State.canonical_provFail {s : State} (reason : Nat) (id : Nat) (hc : s.canonical) : (State.provFail s reason id).canonical := by
  simp (maxDischargeDepth := 60) +contextual [State.provFail, *]

@[simp] theorem State.canonical_provGo {s : State} (hc : s.canonical) : (State.provGo s).canonical := by
  unfold State.provGo
  dsimp only
  repeat' (first | (simp (maxDischargeDepth := 60) +contextual [*]; done) | split)

@[simp] theorem State.canonical_reclaimOne {s : State} (ctx : Nat) (id : Nat) (hc : s.canonical) : KvR.canonical (State.reclaimOne s ctx id) := by
  unfold State.reclaimOne
  try dsimp only
  repeat' (first
    | (simp (maxDischargeDepth := 60) +contextual [*]; done)
    | refine State.canonical_forN _ _ (fun i s h => ?_) ?_ <;> try dsimp only
    | refine State.canonical_forL _ _ (fun i s h => ?_) ?_ <;> try dsimp only
    | (split <;> (try (rename_i heq; (first
        | have he := congrArg (fun p => State.canonical (Prod.snd p)) heq
        | have he := congrArg KvR.canonical heq
        | have he := congrArg (exceptCanonical (fun p => State.canonical (Prod.snd p))) heq
        | have he := congrArg (exceptCanonical (fun p => State.canonical (Prod.fst p))) heq
        | have he := congrArg (exceptCanonical (fun _ => True)) heq
        | have he := congrArg (fun p => State.canonical (Prod.fst p)) heq); clear heq; simp (maxDischargeDepth := 60) +contextual [*] at he))))

@[simp] theorem State.canonical_reclaimNext {s : State} (hc : s.canonical) : (State.reclaimNext s).canonical := by
  unfold State.reclaimNext
  repeat' (first | (simp (maxDischargeDepth := 60) +contextual [*]; done) | split)

@[simp] theorem State.canonical_reclaim {s : State} (ctx : Nat) (hc : s.canonical) : (State.reclaim s ctx).canonical := by
  simp (maxDischargeDepth := 60) +contextual [State.reclaim, *]

@[simp] theorem State.canonical_tileHpa {s : State} (n : Nat) (t : Tile) (seg : Nat) (off : Nat) (right : Nat) (hc : s.canonical) : (State.tileHpa s n t seg off right).2.canonical := by
  unfold State.tileHpa
  try dsimp only
  repeat' (first
    | (simp (maxDischargeDepth := 60) +contextual [*]; done)
    | refine State.canonical_forN _ _ (fun i s h => ?_) ?_ <;> try dsimp only
    | refine State.canonical_forL _ _ (fun i s h => ?_) ?_ <;> try dsimp only
    | (split <;> (try (rename_i heq; (first
        | have he := congrArg (fun p => State.canonical (Prod.snd p)) heq
        | have he := congrArg KvR.canonical heq
        | have he := congrArg (exceptCanonical (fun p => State.canonical (Prod.snd p))) heq
        | have he := congrArg (exceptCanonical (fun p => State.canonical (Prod.fst p))) heq
        | have he := congrArg (exceptCanonical (fun _ => True)) heq
        | have he := congrArg (fun p => State.canonical (Prod.fst p)) heq); clear heq; simp (maxDischargeDepth := 60) +contextual [*] at he))))

@[simp] theorem State.canonical_placePiece {s : State} (n : Nat) (t : Tile) (src : Nat) (seg : Nat) (cl : Nat) (off : Nat) (bs : List MB) (hc : s.canonical) : (State.placePiece s n t src seg cl off bs).2.canonical := by
  unfold State.placePiece
  try dsimp only
  repeat' (first
    | (simp (maxDischargeDepth := 60) +contextual [*]; done)
    | refine State.canonical_forN _ _ (fun i s h => ?_) ?_ <;> try dsimp only
    | refine State.canonical_forL _ _ (fun i s h => ?_) ?_ <;> try dsimp only
    | (split <;> (try (rename_i heq; (first
        | have he := congrArg (fun p => State.canonical (Prod.snd p)) heq
        | have he := congrArg KvR.canonical heq
        | have he := congrArg (exceptCanonical (fun p => State.canonical (Prod.snd p))) heq
        | have he := congrArg (exceptCanonical (fun p => State.canonical (Prod.fst p))) heq
        | have he := congrArg (exceptCanonical (fun _ => True)) heq
        | have he := congrArg (fun p => State.canonical (Prod.fst p)) heq); clear heq; simp (maxDischargeDepth := 60) +contextual [*] at he))))

@[simp] theorem State.canonical_placeAdd {s : State} (n : Nat) (t : Tile) (h : HistAdd) (hc : s.canonical) : (State.placeAdd s n t h).2.canonical := by
  unfold State.placeAdd
  try dsimp only
  repeat' (first
    | (simp (maxDischargeDepth := 60) +contextual [*]; done)
    | refine State.canonical_forN _ _ (fun i s h => ?_) ?_ <;> try dsimp only
    | refine State.canonical_forL _ _ (fun i s h => ?_) ?_ <;> try dsimp only
    | (split <;> (try (rename_i heq; (first
        | have he := congrArg (fun p => State.canonical (Prod.snd p)) heq
        | have he := congrArg KvR.canonical heq
        | have he := congrArg (exceptCanonical (fun p => State.canonical (Prod.snd p))) heq
        | have he := congrArg (exceptCanonical (fun p => State.canonical (Prod.fst p))) heq
        | have he := congrArg (exceptCanonical (fun _ => True)) heq
        | have he := congrArg (fun p => State.canonical (Prod.fst p)) heq); clear heq; simp (maxDischargeDepth := 60) +contextual [*] at he))))

@[simp] theorem canonical_placeAll {α β : Type} {act : State → α → Except EndStop β × State} (l : List α) {s : State}
    (ha : ∀ s a, s.canonical → (act s a).2.canonical) (hc : s.canonical) : (placeAll act l s).2.canonical := by
  induction l generalizing s with
  | nil => exact hc
  | cons a l ih =>
    have h := ha s a hc
    unfold placeAll
    split
    · rename_i heq
      rw [heq] at h
      exact h
    · rename_i heq
      rw [heq] at h
      have h' := ih h
      split <;> (rename_i heq'; rw [heq'] at h'; exact h')

@[simp] theorem State.canonical_placeKv {s : State} (n : Nat) (t : Tile) (o : KvOp) (hc : s.canonical) : (State.placeKv s n t o).2.canonical := by
  unfold State.placeKv
  try dsimp only
  repeat' (first
    | (simp (maxDischargeDepth := 60) +contextual [*]; done)
    | refine State.canonical_forN _ _ (fun i s h => ?_) ?_ <;> try dsimp only
    | refine State.canonical_forL _ _ (fun i s h => ?_) ?_ <;> try dsimp only
    | (split <;> (try (rename_i heq; (first
        | have he := congrArg (fun p => State.canonical (Prod.snd p)) heq
        | have he := congrArg KvR.canonical heq
        | have he := congrArg (exceptCanonical (fun p => State.canonical (Prod.snd p))) heq
        | have he := congrArg (exceptCanonical (fun p => State.canonical (Prod.fst p))) heq
        | have he := congrArg (exceptCanonical (fun _ => True)) heq
        | have he := congrArg (fun p => State.canonical (Prod.fst p)) heq); clear heq; simp (maxDischargeDepth := 60) +contextual [*] at he))))

@[simp] theorem State.canonical_placeRes {s : State} (n : Nat) (t : Tile) (r : TRes) (hc : s.canonical) : (State.placeRes s n t r).2.canonical := by
  unfold State.placeRes
  try dsimp only
  repeat' (first
    | (simp (maxDischargeDepth := 60) +contextual [*]; done)
    | refine State.canonical_forN _ _ (fun i s h => ?_) ?_ <;> try dsimp only
    | refine State.canonical_forL _ _ (fun i s h => ?_) ?_ <;> try dsimp only
    | (split <;> (try (rename_i heq; (first
        | have he := congrArg (fun p => State.canonical (Prod.snd p)) heq
        | have he := congrArg KvR.canonical heq
        | have he := congrArg (exceptCanonical (fun p => State.canonical (Prod.snd p))) heq
        | have he := congrArg (exceptCanonical (fun p => State.canonical (Prod.fst p))) heq
        | have he := congrArg (exceptCanonical (fun _ => True)) heq
        | have he := congrArg (fun p => State.canonical (Prod.fst p)) heq); clear heq; simp (maxDischargeDepth := 60) +contextual [*] at he))))

@[simp] theorem State.canonical_csbWrite {s : State} (a : Nat) (bs : List MB) (hc : s.canonical) : (State.csbWrite s a bs).canonical := by
  simp (maxDischargeDepth := 60) +contextual [State.csbWrite, *]

@[simp] theorem State.canonical_freeMem {s : State} (slot : Nat) (hpa : Nat) (pos : Nat) (n : Nat) (hc : s.canonical) : (State.freeMem s slot hpa pos n).canonical := by
  simp (maxDischargeDepth := 60) +contextual [State.freeMem, *]

@[simp] theorem State.canonical_spoilWr {s : State} (slot : Nat) (pos : Nat) (z2 : Wr) (hc : s.canonical) : (State.spoilWr s slot pos z2).canonical := by
  unfold State.spoilWr
  split <;> simp (maxDischargeDepth := 60) +contextual [*]

@[simp] theorem State.canonical_spoil {s : State} (slot : Nat) (ws : List Wr) (hc : s.canonical) : (State.spoil s slot ws).canonical := by
  simp (maxDischargeDepth := 60) +contextual [State.spoil, *]

@[simp] theorem State.canonical_spoilTile {s : State} (n : Nat) (t : Tile) (hc : s.canonical) : (State.spoilTile s n t).canonical := by
  unfold State.spoilTile
  repeat' (first | (simp (maxDischargeDepth := 60) +contextual [*]; done) | split)

@[simp] theorem State.canonical_fillBeats {s : State} (n : Nat) (fill : Nat) (quiet : Nat) (hc : s.canonical) : (State.fillBeats s n fill quiet).canonical := by
  simp (maxDischargeDepth := 60) +contextual [State.fillBeats, *]

@[simp] theorem State.canonical_mxeGap {s : State} (n : Nat) (hc : s.canonical) : (State.mxeGap s n).canonical := by
  simp (maxDischargeDepth := 60) +contextual [State.mxeGap, *]

@[simp] theorem State.canonical_gapPart {s : State} (n : Nat) (hc : s.canonical) : (State.gapPart s n).canonical := by
  simp (maxDischargeDepth := 60) +contextual [State.gapPart, *]

@[simp] theorem State.canonical_gapEnd {s : State} (n : Nat) (hc : s.canonical) : (State.gapEnd s n).canonical := by
  simp (maxDischargeDepth := 60) +contextual [State.gapEnd, *]

@[simp] theorem State.canonical_mxeStart {s : State} (n : Nat) (hc : s.canonical) : (State.mxeStart s n).canonical := by
  simp (maxDischargeDepth := 60) +contextual [State.mxeStart, *]

@[simp] theorem State.canonical_showArr {s : State} (n : Nat) (x : Tx) (a : Arr) (hc : s.canonical) : (State.showArr s n x a).canonical := by
  simp (maxDischargeDepth := 60) +contextual [State.showArr, *]

@[simp] theorem State.canonical_progress {s : State} (n : Nat) (e : Nat) (hc : s.canonical) : (State.progress s n e).canonical := by
  simp (maxDischargeDepth := 60) +contextual [State.progress, *]

@[simp] theorem State.canonical_stream {s : State} (n : Nat) (t : Tile) (hc : s.canonical) : (State.stream s n t).canonical := by
  simp (maxDischargeDepth := 60) +contextual [State.stream, *]

@[simp] theorem State.canonical_ateStopped {s : State} (n : Nat) (t : Tile) (dot : Nat) (exp : Nat) (hc : s.canonical) : (State.ateStopped s n t dot exp).canonical := by
  simp (maxDischargeDepth := 60) +contextual [State.ateStopped, *]

@[simp] theorem State.canonical_engineCounts {s : State} (n : Nat) (t : Tile) (full : Bool) (hc : s.canonical) : (State.engineCounts s n t full).2.canonical := by
  unfold State.engineCounts
  dsimp only
  repeat' (first | (simp (maxDischargeDepth := 60) +contextual [*]; done) | split)

@[simp] theorem State.canonical_slowAdd {s : State} (ctx : Nat) (active : Nat) (stalled : Nat) (hc : s.canonical) : (State.slowAdd s ctx active stalled).canonical := by
  simp (maxDischargeDepth := 60) +contextual [State.slowAdd, *]

@[simp] theorem State.canonical_putTile {s : State} (n : Nat) (t : Tile) (hc : s.canonical) : (State.putTile s n t).canonical := by
  simp (maxDischargeDepth := 60) +contextual [State.putTile, *]

@[simp] theorem State.canonical_tileFails {s : State} (q : Nat) (slot : Nat) (i : Nat) (st : Nat) (hc : s.canonical) : (State.tileFails s q slot i st).canonical := by
  unfold State.tileFails
  dsimp only
  repeat' (first | (simp (maxDischargeDepth := 60) +contextual [*]; done) | split)

@[simp] theorem State.canonical_rejectTile {s : State} (n : Nat) (c : Cmd) (r : Reject) (hc : s.canonical) : (State.rejectTile s n c r).canonical := by
  simp (maxDischargeDepth := 60) +contextual [State.rejectTile, *]

@[simp] theorem State.canonical_giveBack {s : State} (l : List Nat) (hc : s.canonical) : (State.giveBack s l).canonical := by
  simp (maxDischargeDepth := 60) +contextual [State.giveBack, *]

@[simp] theorem State.canonical_release {s : State} (n : Nat) (t : Tile) (hc : s.canonical) : KvR.canonical (State.release s n t) := by
  simp (maxDischargeDepth := 60) +contextual [State.release, *]

@[simp] theorem State.canonical_engineIdle {s : State} (n : Nat) (t : Tile) (hc : s.canonical) : (State.engineIdle s n t).canonical := by
  unfold State.engineIdle
  split <;> simp (maxDischargeDepth := 60) +contextual [*]

@[simp] theorem State.canonical_leaveCore {s : State} (n : Nat) (t : Tile) (full : Bool) (hc : s.canonical) : KvR.canonical (State.leaveCore s n t full) := by
  unfold State.leaveCore
  try dsimp only
  repeat' (first
    | (simp (maxDischargeDepth := 60) +contextual [*]; done)
    | refine State.canonical_forN _ _ (fun i s h => ?_) ?_ <;> try dsimp only
    | refine State.canonical_forL _ _ (fun i s h => ?_) ?_ <;> try dsimp only
    | (split <;> (try (rename_i heq; (first
        | have he := congrArg (fun p => State.canonical (Prod.snd p)) heq
        | have he := congrArg KvR.canonical heq
        | have he := congrArg (exceptCanonical (fun p => State.canonical (Prod.snd p))) heq
        | have he := congrArg (exceptCanonical (fun p => State.canonical (Prod.fst p))) heq
        | have he := congrArg (exceptCanonical (fun _ => True)) heq
        | have he := congrArg (fun p => State.canonical (Prod.fst p)) heq); clear heq; simp (maxDischargeDepth := 60) +contextual [*] at he))))

@[simp] theorem State.canonical_stopTile {s : State} (n : Nat) (t : Tile) (hc : s.canonical) : KvR.canonical (State.stopTile s n t) := by
  simp (maxDischargeDepth := 60) +contextual [State.stopTile, *]

@[simp] theorem State.canonical_engineReset {s : State} (n : Nat) (mask : Nat) (hc : s.canonical) : (State.engineReset s n mask).canonical := by
  simp (maxDischargeDepth := 60) +contextual [State.engineReset, *]

@[simp] theorem State.canonical_shdExpire {s : State} (n : Nat) (e : Nat) (hc : s.canonical) : (State.shdExpire s n e).canonical := by
  simp (maxDischargeDepth := 60) +contextual [State.shdExpire, *]

@[simp] theorem State.canonical_closeProgress {s : State} (hc : s.canonical) : (State.closeProgress s).canonical := by
  simp (maxDischargeDepth := 60) +contextual [State.closeProgress, *]

@[simp] theorem State.canonical_dropWaiting {s : State} (ctx : Nat) (hc : s.canonical) : (State.dropWaiting s ctx).canonical := by
  simp (maxDischargeDepth := 60) +contextual [State.dropWaiting, *]

@[simp] theorem State.canonical_disableInlet {s : State} (ctx : Nat) (n : Nat) (hc : s.canonical) : (State.disableInlet s ctx n).canonical := by
  simp (maxDischargeDepth := 60) +contextual [State.disableInlet, *]

@[simp] theorem State.canonical_abortTileOf {s : State} (ctx : Nat) (n : Nat) (hc : s.canonical) : (State.abortTileOf s ctx n).canonical := by
  unfold State.abortTileOf
  split <;> simp (maxDischargeDepth := 60) +contextual [*]

@[simp] theorem State.canonical_startClosing {s : State} (ctx : Nat) (cmd : Option (Nat × Nat)) (cause : Nat) (carve : Option (Nat × Nat)) (hc : s.canonical) : (State.startClosing s ctx cmd cause carve).canonical := by
  simp (maxDischargeDepth := 60) +contextual [State.startClosing, *]

@[simp] theorem State.canonical_contextReset {s : State} (ctx : Nat) (cause : Nat) (hc : s.canonical) : (State.contextReset s ctx cause).canonical := by
  simp (maxDischargeDepth := 60) +contextual [State.contextReset, *]

@[simp] theorem State.canonical_rerunOrReset {s : State} (n : Nat) (t : Tile) (cause : Nat) (hc : s.canonical) : (State.rerunOrReset s n t cause).canonical := by
  unfold State.rerunOrReset
  try dsimp only
  repeat' (first
    | (simp (maxDischargeDepth := 60) +contextual [*]; done)
    | refine State.canonical_forN _ _ (fun i s h => ?_) ?_ <;> try dsimp only
    | refine State.canonical_forL _ _ (fun i s h => ?_) ?_ <;> try dsimp only
    | (split <;> (try (rename_i heq; (first
        | have he := congrArg (fun p => State.canonical (Prod.snd p)) heq
        | have he := congrArg KvR.canonical heq
        | have he := congrArg (exceptCanonical (fun p => State.canonical (Prod.snd p))) heq
        | have he := congrArg (exceptCanonical (fun p => State.canonical (Prod.fst p))) heq
        | have he := congrArg (exceptCanonical (fun _ => True)) heq
        | have he := congrArg (fun p => State.canonical (Prod.fst p)) heq); clear heq; simp (maxDischargeDepth := 60) +contextual [*] at he))))

@[simp] theorem State.canonical_clusterReset {s : State} (c : Nat) (hc : s.canonical) : (State.clusterReset s c).canonical := by
  simp (maxDischargeDepth := 60) +contextual [State.clusterReset, *]

@[simp] theorem State.canonical_setMeas {s : State} (i : Nat) (v : Nat) (hc : s.canonical) : (State.setMeas s i v).canonical := by
  simp (maxDischargeDepth := 60) +contextual [State.setMeas, *]

@[simp] theorem State.canonical_tookImage {s : State} (hpa : Nat) (hc : s.canonical) : (State.tookImage s hpa).canonical := by
  simp (maxDischargeDepth := 60) +contextual [State.tookImage, *]

@[simp] theorem State.canonical_newKey0 {s : State} (hc : s.canonical) : (State.newKey0 s).canonical := by
  simp (maxDischargeDepth := 60) +contextual [State.newKey0, *]

@[simp] theorem State.canonical_showWk {s : State} (hc : s.canonical) : (State.showWk s).canonical := by
  simp (maxDischargeDepth := 60) +contextual [State.showWk, *]

@[simp] theorem State.canonical_setWk {s : State} (src : Nat) (key : Nat) (hc : s.canonical) : (State.setWk s src key).canonical := by
  simp (maxDischargeDepth := 60) +contextual [State.setWk, *]

@[simp] theorem State.canonical_freshOpen {s : State} (hc : s.canonical) : (State.freshOpen s).canonical := by
  simp (maxDischargeDepth := 60) +contextual [State.freshOpen, *]

@[simp] theorem State.canonical_setTrust {s : State} (t : Nat) (hc : s.canonical) : (State.setTrust s t).canonical := by
  simp (maxDischargeDepth := 60) +contextual [State.setTrust, *]

@[simp] theorem State.canonical_bootKeys {s : State} (cold : Bool) (hc : s.canonical) : (State.bootKeys s cold).canonical := by
  simp (maxDischargeDepth := 60) +contextual [State.bootKeys, *]

@[simp] theorem State.canonical_bootFail {s : State} (st : Nat) (hc : s.canonical) : (State.bootFail s st).canonical := by
  simp (maxDischargeDepth := 60) +contextual [State.bootFail, *]

@[simp] theorem State.canonical_bootFrom {s : State} (alt : Bool) (cold : Bool) (img : List Byte) (hc : s.canonical) : (State.bootFrom s alt cold img).canonical := by
  unfold State.bootFrom
  dsimp only
  repeat' (first | (simp (maxDischargeDepth := 60) +contextual [*]; done) | split)

@[simp] theorem State.canonical_bootAltTry {s : State} (cold : Bool) (hc : s.canonical) : (State.bootAltTry s cold).canonical := by
  unfold State.bootAltTry
  dsimp only
  repeat' (first | (simp (maxDischargeDepth := 60) +contextual [*]; done) | split)

@[simp] theorem State.canonical_secureBoot {s : State} (cold : Bool) (fetched : Bool) (hc : s.canonical) : (State.secureBoot s cold fetched).canonical := by
  unfold State.secureBoot
  dsimp only
  repeat' (first | (simp (maxDischargeDepth := 60) +contextual [*]; done) | split)

@[simp] theorem State.canonical_storeSave {s : State} (v : Save) (hc : s.canonical) : (State.storeSave s v).canonical := by
  simp (maxDischargeDepth := 60) +contextual [State.storeSave, *]

@[simp] theorem State.canonical_supersede {s : State} (hc : s.canonical) : (State.supersede s).canonical := by
  unfold State.supersede
  split <;> simp (maxDischargeDepth := 60) +contextual [*]

@[simp] theorem State.canonical_unbindCsb {s : State} (ctx : Nat) (cl : Nat) (hc : s.canonical) : (State.unbindCsb s ctx cl).canonical := by
  simp (maxDischargeDepth := 60) +contextual [State.unbindCsb, *]

@[simp] theorem State.canonical_loseCsb {s : State} (ctxs : List Nat) (cl : Nat) (hc : s.canonical) : (State.loseCsb s ctxs cl).canonical := by
  simp (maxDischargeDepth := 60) +contextual [State.loseCsb, *]

@[simp] theorem State.canonical_refetchFrom {s : State} (cs : List Cmd) (hc : s.canonical) : (State.refetchFrom s cs).canonical := by
  simp (maxDischargeDepth := 60) +contextual [State.refetchFrom, *]

@[simp] theorem State.canonical_fetchFromHead {s : State} (ctxs : List Nat) (hc : s.canonical) : (State.fetchFromHead s ctxs).canonical := by
  simp (maxDischargeDepth := 60) +contextual [State.fetchFromHead, *]

@[simp] theorem State.canonical_siRearm {s : State} (hc : s.canonical) : (State.siRearm s).canonical := by
  simp (maxDischargeDepth := 60) +contextual [State.siRearm, *]

@[simp] theorem State.canonical_restore {s : State} (v : Save) (hc : s.canonical) : (State.restore s v).canonical := by
  simp (maxDischargeDepth := 60) +contextual [State.restore, *]

@[simp] theorem State.canonical_restoreAtBoot {s : State} (hc : s.canonical) : (State.restoreAtBoot s).canonical := by
  unfold State.restoreAtBoot
  repeat' (first | (simp (maxDischargeDepth := 60) +contextual [*]; done) | split)

@[simp] theorem State.canonical_freshAttach {s : State} (hc : s.canonical) : (State.freshAttach s).canonical := by
  simp (maxDischargeDepth := 60) +contextual [State.freshAttach, *]

@[simp] theorem State.canonical_becomeReady {s : State} (hc : s.canonical) : (State.becomeReady s).canonical := by
  simp (maxDischargeDepth := 60) +contextual [State.becomeReady, *]

@[simp] theorem State.canonical_porReset {s : State} (hc : s.canonical) : (State.porReset s).canonical := by
  simp (maxDischargeDepth := 60) +contextual [State.porReset, *]

@[simp] theorem State.canonical_warmReset {s : State} (hc : s.canonical) : (State.warmReset s).canonical := by
  simp (maxDischargeDepth := 60) +contextual [State.warmReset, *]

@[simp] theorem State.canonical_waitSvc {s : State} (c : Cmd) (hc : s.canonical) : (State.waitSvc s c).canonical := by
  simp (maxDischargeDepth := 60) +contextual [State.waitSvc, *]

@[simp] theorem State.canonical_withDuty {s : State} (c : Cmd) (d : Nat) {act : State → State} (ha : ∀ s, s.canonical → (act s).canonical) (hc : s.canonical) :
    (s.withDuty c d act).canonical := by
  unfold State.withDuty
  simp (maxDischargeDepth := 60) +contextual [*]

@[simp] theorem State.canonical_withShep {s : State} (c : Cmd) {act : State → State} (ha : ∀ s, s.canonical → (act s).canonical) (hc : s.canonical) :
    (s.withShep c act).canonical := by
  unfold State.withShep
  simp (maxDischargeDepth := 60) +contextual [*]

@[simp] theorem State.canonical_finishWaiting {s : State} (op : Nat) (status : Nat) (p : Cmd → Bool) (hc : s.canonical) : (State.finishWaiting s op status p).canonical := by
  simp (maxDischargeDepth := 60) +contextual [State.finishWaiting, *]

@[simp] theorem State.canonical_shepCmd {s : State} (c : Cmd) (n : Nat) {act : State → State} (ha : ∀ s, s.canonical → (act s).canonical) (hc : s.canonical) :
    (s.shepCmd c n act).canonical := by
  unfold State.shepCmd
  simp (maxDischargeDepth := 60) +contextual [*]

@[simp] theorem State.canonical_showLevel {s : State} (c : Nat) (hc : s.canonical) : (State.showLevel s c).canonical := by
  simp (maxDischargeDepth := 60) +contextual [State.showLevel, *]

@[simp] theorem State.canonical_writeSave {s : State} (q : Nat) (hc : s.canonical) : (State.writeSave s q).canonical := by
  simp (maxDischargeDepth := 60) +contextual [State.writeSave, *]

@[simp] theorem State.canonical_parkCmd {s : State} (c : Cmd) (hc : s.canonical) : (State.parkCmd s c).canonical := by
  simp (maxDischargeDepth := 60) +contextual [State.parkCmd, *]

@[simp] theorem State.canonical_leaveCmd {s : State} (n : Nat) (p : Nat × Nat) (hc : s.canonical) : (State.leaveCmd s n p).canonical := by
  unfold State.leaveCmd
  repeat' (first | (simp (maxDischargeDepth := 60) +contextual [*]; done) | split)

@[simp] theorem State.canonical_parkCore {s : State} (n : Nat) (hc : s.canonical) : (State.parkCore s n).canonical := by
  simp (maxDischargeDepth := 60) +contextual [State.parkCore, *]

@[simp] theorem State.canonical_retireNow {s : State} (n : Nat) (hc : s.canonical) : (State.retireNow s n).canonical := by
  simp (maxDischargeDepth := 60) +contextual [State.retireNow, *]

@[simp] theorem State.canonical_retire {s : State} (n : Nat) (hc : s.canonical) : (State.retire s n).canonical := by
  simp (maxDischargeDepth := 60) +contextual [State.retire, *]

@[simp] theorem State.canonical_takeSlot {s : State} (n : Nat) (hc : s.canonical) : (State.takeSlot s n).canonical := by
  simp (maxDischargeDepth := 60) +contextual [State.takeSlot, *]

@[simp] theorem State.canonical_boundary {s : State} (n : Nat) (hc : s.canonical) : (State.boundary s n).canonical := by
  simp (maxDischargeDepth := 60) +contextual [State.boundary, *]

@[simp] theorem State.canonical_boundaries {s : State} (hc : s.canonical) : (State.boundaries s).canonical := by
  simp (maxDischargeDepth := 60) +contextual [State.boundaries, *]

@[simp] theorem State.canonical_calNext {s : State} (hc : s.canonical) : (State.calNext s).canonical := by
  unfold State.calNext
  dsimp only
  repeat' (first | (simp (maxDischargeDepth := 60) +contextual [*]; done) | split)

@[simp] theorem State.canonical_calStop {s : State} (hc : s.canonical) : (State.calStop s).canonical := by
  simp (maxDischargeDepth := 60) +contextual [State.calStop, *]

@[simp] theorem State.canonical_capStop {s : State} (hc : s.canonical) : (State.capStop s).canonical := by
  simp (maxDischargeDepth := 60) +contextual [State.capStop, *]

@[simp] theorem State.canonical_stopUpdate {s : State} (hc : s.canonical) : (State.stopUpdate s).canonical := by
  unfold State.stopUpdate
  split <;> simp (maxDischargeDepth := 60) +contextual [*]

@[simp] theorem State.canonical_beginSave {s : State} (hc : s.canonical) : (State.beginSave s).canonical := by
  simp (maxDischargeDepth := 60) +contextual [State.beginSave, *]

@[simp] theorem State.canonical_sealAs {s : State} (v : Save) (hc : s.canonical) : (State.sealAs s v).canonical := by
  simp (maxDischargeDepth := 60) +contextual [State.sealAs, *]

@[simp] theorem State.canonical_sealHoldup {s : State} (preserve : Bool) (hc : s.canonical) : (State.sealHoldup s preserve).canonical := by
  simp (maxDischargeDepth := 60) +contextual [State.sealHoldup, *]

@[simp] theorem State.canonical_sealPreserve {s : State} (hc : s.canonical) : (State.sealPreserve s).canonical := by
  simp (maxDischargeDepth := 60) +contextual [State.sealPreserve, *]

@[simp] theorem State.canonical_retiringDone {s : State} (hc : s.canonical) : (State.retiringDone s).canonical := by
  simp (maxDischargeDepth := 60) +contextual [State.retiringDone, *]

@[simp] theorem State.canonical_resumeFrom {s : State} (v : Save) (hc : s.canonical) : (State.resumeFrom s v).canonical := by
  simp (maxDischargeDepth := 60) +contextual [State.resumeFrom, *]

@[simp] theorem State.canonical_unbindKey {s : State} (ctx : Nat) (hc : s.canonical) : (State.unbindKey s ctx).canonical := by
  simp (maxDischargeDepth := 60) +contextual [State.unbindKey, *]

@[simp] theorem State.canonical_bindKey {s : State} (ctx : Nat) (n : Nat) (hc : s.canonical) : (State.bindKey s ctx n).canonical := by
  simp (maxDischargeDepth := 60) +contextual [State.bindKey, *]

@[simp] theorem State.canonical_slotEmpty {s : State} (n : Nat) (hc : s.canonical) : (State.slotEmpty s n).canonical := by
  simp (maxDischargeDepth := 60) +contextual [State.slotEmpty, *]

@[simp] theorem State.canonical_carveScrub {s : State} (base : Nat) (len : Nat) (hc : s.canonical) : (State.carveScrub s base len).canonical := by
  simp (maxDischargeDepth := 60) +contextual [State.carveScrub, *]

@[simp] theorem State.canonical_tornQueue {s : State} (z1 : List Cmd) (hc : s.canonical) : (State.tornQueue s z1).canonical := by
  induction z1 generalizing s 
  all_goals
    unfold State.tornQueue
    try dsimp only
    repeat' (first
      | (simp (maxDischargeDepth := 60) +contextual [*]; done)
      | refine State.canonical_forN _ _ (fun i s h => ?_) ?_ <;> try dsimp only
      | refine State.canonical_forL _ _ (fun i s h => ?_) ?_ <;> try dsimp only
      | (split <;> (try (rename_i heq; (first
          | have he := congrArg (fun p => State.canonical (Prod.snd p)) heq
          | have he := congrArg KvR.canonical heq
          | have he := congrArg (exceptCanonical (fun p => State.canonical (Prod.snd p))) heq
          | have he := congrArg (exceptCanonical (fun p => State.canonical (Prod.fst p))) heq
          | have he := congrArg (exceptCanonical (fun _ => True)) heq
          | have he := congrArg (fun p => State.canonical (Prod.fst p)) heq); clear heq; simp (maxDischargeDepth := 60) +contextual [*] at he))))

@[simp] theorem State.canonical_cbsZero {s : State} (ctx : Nat) (hc : s.canonical) : (State.cbsZero s ctx).canonical := by
  simp (maxDischargeDepth := 60) +contextual [State.cbsZero, *]

@[simp] theorem State.canonical_finishClosing {s : State} (k : Closing) (hc : s.canonical) : (State.finishClosing s k).canonical := by
  unfold State.finishClosing
  dsimp only
  repeat' (first | (simp (maxDischargeDepth := 60) +contextual [*]; done) | split)

@[simp] theorem State.canonical_taAnswer {s : State} (accepted : Bool) (hc : s.canonical) : (State.taAnswer s accepted).canonical := by
  simp (maxDischargeDepth := 60) +contextual [State.taAnswer, *]

@[simp] theorem State.canonical_stopNext {s : State} (hc : s.canonical) : (State.stopNext s).canonical := by
  unfold State.stopNext
  dsimp only
  repeat' (first | (simp (maxDischargeDepth := 60) +contextual [*]; done) | split)

@[simp] theorem State.canonical_taAct {s : State} (code : Nat) (payload : Nat) (hc : s.canonical) : (State.taAct s code payload).canonical := by
  simp (maxDischargeDepth := 60) +contextual [State.taAct, *]

@[simp] theorem State.canonical_taArrive {s : State} (m : Nat × Nat) (hc : s.canonical) : (State.taArrive s m).canonical := by
  simp (maxDischargeDepth := 60) +contextual [State.taArrive, *]

@[simp] theorem State.canonical_taDrain {s : State} (hc : s.canonical) : (State.taDrain s).canonical := by
  simp (maxDischargeDepth := 60) +contextual [State.taDrain, *]

@[simp] theorem State.canonical_taResume {s : State} (hc : s.canonical) : (State.taResume s).canonical := by
  simp (maxDischargeDepth := 60) +contextual [State.taResume, *]

@[simp] theorem State.canonical_showHsa {s : State} (hc : s.canonical) : (State.showHsa s).canonical := by
  unfold State.showHsa
  dsimp only
  repeat' (first | (simp (maxDischargeDepth := 60) +contextual [*]; done) | split)

@[simp] theorem State.canonical_beginCap {s : State} (hc : s.canonical) : (State.beginCap s).canonical := by
  simp (maxDischargeDepth := 60) +contextual [State.beginCap, *]

@[simp] theorem State.canonical_trustAfterReset {s : State} (hc : s.canonical) : (State.trustAfterReset s).canonical := by
  simp (maxDischargeDepth := 60) +contextual [State.trustAfterReset, *]

@[simp] theorem State.canonical_resetReady {s : State} (hc : s.canonical) : (State.resetReady s).canonical := by
  simp (maxDischargeDepth := 60) +contextual [State.resetReady, *]

@[simp] theorem State.canonical_setupCheck {s : State} (c : Cmd) (hc : s.canonical) : (State.setupCheck s c).2.canonical := by
  unfold State.setupCheck
  try dsimp only
  repeat' (first
    | (simp (maxDischargeDepth := 60) +contextual [*]; done)
    | refine State.canonical_forN _ _ (fun i s h => ?_) ?_ <;> try dsimp only
    | refine State.canonical_forL _ _ (fun i s h => ?_) ?_ <;> try dsimp only
    | (split <;> (try (rename_i heq; (first
        | have he := congrArg (fun p => State.canonical (Prod.snd p)) heq
        | have he := congrArg KvR.canonical heq
        | have he := congrArg (exceptCanonical (fun p => State.canonical (Prod.snd p))) heq
        | have he := congrArg (exceptCanonical (fun p => State.canonical (Prod.fst p))) heq
        | have he := congrArg (exceptCanonical (fun _ => True)) heq
        | have he := congrArg (fun p => State.canonical (Prod.fst p)) heq); clear heq; simp (maxDischargeDepth := 60) +contextual [*] at he))))

@[simp] theorem State.canonical_setupQueue {s : State} (bs : List Byte) (n : Nat) (q : Nat) (hc : s.canonical) : (State.setupQueue s bs n q).canonical := by
  simp (maxDischargeDepth := 60) +contextual [State.setupQueue, *]

@[simp] theorem State.canonical_setupCtx {s : State} (bs : List Byte) (t : Nat) (hc : s.canonical) : (State.setupCtx s bs t).canonical := by
  simp (maxDischargeDepth := 60) +contextual [State.setupCtx, *]

@[simp] theorem State.canonical_setupAct {s : State} (c : Cmd) (hc : s.canonical) : (State.setupAct s c).canonical := by
  unfold State.setupAct
  try dsimp only
  repeat' (first
    | (simp (maxDischargeDepth := 60) +contextual [*]; done)
    | refine State.canonical_forN _ _ (fun i s h => ?_) ?_ <;> try dsimp only
    | refine State.canonical_forL _ _ (fun i s h => ?_) ?_ <;> try dsimp only
    | (split <;> (try (rename_i heq; (first
        | have he := congrArg (fun p => State.canonical (Prod.snd p)) heq
        | have he := congrArg KvR.canonical heq
        | have he := congrArg (exceptCanonical (fun p => State.canonical (Prod.snd p))) heq
        | have he := congrArg (exceptCanonical (fun p => State.canonical (Prod.fst p))) heq
        | have he := congrArg (exceptCanonical (fun _ => True)) heq
        | have he := congrArg (fun p => State.canonical (Prod.fst p)) heq); clear heq; simp (maxDischargeDepth := 60) +contextual [*] at he))))

@[simp] theorem State.canonical_startDrain {s : State} (c : Cmd) (hc : s.canonical) : (State.startDrain s c).canonical := by
  simp (maxDischargeDepth := 60) +contextual [State.startDrain, *]

@[simp] theorem State.canonical_holdTarget {s : State} (c : Cmd) (hc : s.canonical) : (State.holdTarget s c).canonical := by
  simp (maxDischargeDepth := 60) +contextual [State.holdTarget, *]

@[simp] theorem State.canonical_changeXlt {s : State} (c : Cmd) {act : State → State} (ha : ∀ s, s.canonical → (act s).canonical) (hc : s.canonical) :
    (s.changeXlt c act).canonical := by
  unfold State.changeXlt
  simp (maxDischargeDepth := 60) +contextual [*]

@[simp] theorem State.canonical_segWrite {s : State} (ctx : Nat) (n : Nat) (bs : List Byte) (hc : s.canonical) : (State.segWrite s ctx n bs).canonical := by
  simp (maxDischargeDepth := 60) +contextual [State.segWrite, *]

@[simp] theorem State.canonical_segChange {s : State} (c : Cmd) (mask : Nat) (bs : List Byte) (hc : s.canonical) : (State.segChange s c mask bs).canonical := by
  simp (maxDischargeDepth := 60) +contextual [State.segChange, *]

@[simp] theorem State.canonical_segSetDo {s : State} (c : Cmd) (hc : s.canonical) : (State.segSetDo s c).canonical := by
  unfold State.segSetDo
  try dsimp only
  repeat' (first
    | (simp (maxDischargeDepth := 60) +contextual [*]; done)
    | refine State.canonical_forN _ _ (fun i s h => ?_) ?_ <;> try dsimp only
    | refine State.canonical_forL _ _ (fun i s h => ?_) ?_ <;> try dsimp only
    | (split <;> (try (rename_i heq; (first
        | have he := congrArg (fun p => State.canonical (Prod.snd p)) heq
        | have he := congrArg KvR.canonical heq
        | have he := congrArg (exceptCanonical (fun p => State.canonical (Prod.snd p))) heq
        | have he := congrArg (exceptCanonical (fun p => State.canonical (Prod.fst p))) heq
        | have he := congrArg (exceptCanonical (fun _ => True)) heq
        | have he := congrArg (fun p => State.canonical (Prod.fst p)) heq); clear heq; simp (maxDischargeDepth := 60) +contextual [*] at he))))

@[simp] theorem State.canonical_hintEnds {s : State} (q : Nat) (hc : s.canonical) : (State.hintEnds s q).canonical := by
  simp (maxDischargeDepth := 60) +contextual [State.hintEnds, *]

@[simp] theorem State.canonical_reread {s : State} (c : Cmd) (hc : s.canonical) : (State.reread s c).2.canonical := by
  unfold State.reread
  try dsimp only
  repeat' (first
    | (simp (maxDischargeDepth := 60) +contextual [*]; done)
    | refine State.canonical_forN _ _ (fun i s h => ?_) ?_ <;> try dsimp only
    | refine State.canonical_forL _ _ (fun i s h => ?_) ?_ <;> try dsimp only
    | (split <;> (try (rename_i heq; (first
        | have he := congrArg (fun p => State.canonical (Prod.snd p)) heq
        | have he := congrArg KvR.canonical heq
        | have he := congrArg (exceptCanonical (fun p => State.canonical (Prod.snd p))) heq
        | have he := congrArg (exceptCanonical (fun p => State.canonical (Prod.fst p))) heq
        | have he := congrArg (exceptCanonical (fun _ => True)) heq
        | have he := congrArg (fun p => State.canonical (Prod.fst p)) heq); clear heq; simp (maxDischargeDepth := 60) +contextual [*] at he))))

@[simp] theorem State.canonical_resumeOne {s : State} (bs : List Byte) (c : Cmd) (hc : s.canonical) : (State.resumeOne s bs c).canonical := by
  unfold State.resumeOne
  try dsimp only
  repeat' (first
    | (simp (maxDischargeDepth := 60) +contextual [*]; done)
    | refine State.canonical_forN _ _ (fun i s h => ?_) ?_ <;> try dsimp only
    | refine State.canonical_forL _ _ (fun i s h => ?_) ?_ <;> try dsimp only
    | (split <;> (try (rename_i heq; (first
        | have he := congrArg (fun p => State.canonical (Prod.snd p)) heq
        | have he := congrArg KvR.canonical heq
        | have he := congrArg (exceptCanonical (fun p => State.canonical (Prod.snd p))) heq
        | have he := congrArg (exceptCanonical (fun p => State.canonical (Prod.fst p))) heq
        | have he := congrArg (exceptCanonical (fun _ => True)) heq
        | have he := congrArg (fun p => State.canonical (Prod.fst p)) heq); clear heq; simp (maxDischargeDepth := 60) +contextual [*] at he))))

@[simp] theorem State.canonical_partWrite {s : State} (c : Cmd) (hc : s.canonical) : (State.partWrite s c).canonical := by
  simp (maxDischargeDepth := 60) +contextual [State.partWrite, *]

@[simp] theorem State.canonical_assign {s : State} (c : Cmd) (hc : s.canonical) : (State.assign s c).canonical := by
  simp (maxDischargeDepth := 60) +contextual [State.assign, *]

@[simp] theorem State.canonical_fillBuffer {s : State} (b : Nat) (n : Nat) (bs : List Byte) (hc : s.canonical) : (State.fillBuffer s b n bs).canonical := by
  simp (maxDischargeDepth := 60) +contextual [State.fillBuffer, *]

@[simp] theorem State.canonical_enterSlot {s : State} (i : Nat) (hc : s.canonical) : (State.enterSlot s i).canonical := by
  simp (maxDischargeDepth := 60) +contextual [State.enterSlot, *]

@[simp] theorem State.canonical_switchTo {s : State} (b : Nat) (hc : s.canonical) : (State.switchTo s b).canonical := by
  simp (maxDischargeDepth := 60) +contextual [State.switchTo, *]

@[simp] theorem State.canonical_cycleEnd {s : State} (hc : s.canonical) : (State.cycleEnd s).canonical := by
  unfold State.cycleEnd
  dsimp only
  repeat' (first | (simp (maxDischargeDepth := 60) +contextual [*]; done) | split)

@[simp] theorem State.canonical_hostBeat {s : State} (hc : s.canonical) : (State.hostBeat s).canonical := by
  simp (maxDischargeDepth := 60) +contextual [State.hostBeat, *]

@[simp] theorem State.canonical_sendHeld {s : State} (hc : s.canonical) : (State.sendHeld s).canonical := by
  simp (maxDischargeDepth := 60) +contextual [State.sendHeld, *]

@[simp] theorem State.canonical_attach {s : State} (token : Nat) (hc : s.canonical) : (State.attach s token).canonical := by
  simp (maxDischargeDepth := 60) +contextual [State.attach, *]

@[simp] theorem State.canonical_attachFresh {s : State} (hc : s.canonical) : (State.attachFresh s).canonical := by
  simp (maxDischargeDepth := 60) +contextual [State.attachFresh, *]

@[simp] theorem State.canonical_fwImage {s : State} (c : Cmd) (hc : s.canonical) : (State.fwImage s c).2.canonical := by
  unfold State.fwImage
  try dsimp only
  repeat' (first
    | (simp (maxDischargeDepth := 60) +contextual [*]; done)
    | refine State.canonical_forN _ _ (fun i s h => ?_) ?_ <;> try dsimp only
    | refine State.canonical_forL _ _ (fun i s h => ?_) ?_ <;> try dsimp only
    | (split <;> (try (rename_i heq; (first
        | have he := congrArg (fun p => State.canonical (Prod.snd p)) heq
        | have he := congrArg KvR.canonical heq
        | have he := congrArg (exceptCanonical (fun p => State.canonical (Prod.snd p))) heq
        | have he := congrArg (exceptCanonical (fun p => State.canonical (Prod.fst p))) heq
        | have he := congrArg (exceptCanonical (fun _ => True)) heq
        | have he := congrArg (fun p => State.canonical (Prod.fst p)) heq); clear heq; simp (maxDischargeDepth := 60) +contextual [*] at he))))

@[simp] theorem State.canonical_updateDone {s : State} (u : Update) (hc : s.canonical) : (State.updateDone s u).canonical := by
  simp (maxDischargeDepth := 60) +contextual [State.updateDone, *]

@[simp] theorem State.canonical_droverPlan {s : State} (n : Nat) (b : Bool) (hc : s.canonical) : (State.droverPlan s n b).canonical := by
  simp (maxDischargeDepth := 60) +contextual [State.droverPlan, *]

@[simp] theorem State.canonical_updateStep {s : State} (n : Nat) (hc : s.canonical) : (State.updateStep s n).canonical := by
  unfold State.updateStep
  split <;> simp (maxDischargeDepth := 60) +contextual [*]

@[simp] theorem State.canonical_droverUpdate {s : State} (c : Cmd) (bs : List Byte) (hc : s.canonical) : (State.droverUpdate s c bs).canonical := by
  simp (maxDischargeDepth := 60) +contextual [State.droverUpdate, *]

@[simp] theorem State.canonical_shepPause {s : State} (hc : s.canonical) : (State.shepPause s).canonical := by
  unfold State.shepPause
  split <;> simp (maxDischargeDepth := 60) +contextual [*]

@[simp] theorem State.canonical_shepUpdate {s : State} (c : Cmd) (bs : List Byte) (hc : s.canonical) : (State.shepUpdate s c bs).canonical := by
  simp (maxDischargeDepth := 60) +contextual [State.shepUpdate, *]

@[simp] theorem State.canonical_shepResume {s : State} (u : Update) (hc : s.canonical) : (State.shepResume s u).canonical := by
  simp (maxDischargeDepth := 60) +contextual [State.shepResume, *]

@[simp] theorem State.canonical_fwAct {s : State} (c : Cmd) (hc : s.canonical) : (State.fwAct s c).canonical := by
  unfold State.fwAct
  try dsimp only
  repeat' (first
    | (simp (maxDischargeDepth := 60) +contextual [*]; done)
    | refine State.canonical_forN _ _ (fun i s h => ?_) ?_ <;> try dsimp only
    | refine State.canonical_forL _ _ (fun i s h => ?_) ?_ <;> try dsimp only
    | (split <;> (try (rename_i heq; (first
        | have he := congrArg (fun p => State.canonical (Prod.snd p)) heq
        | have he := congrArg KvR.canonical heq
        | have he := congrArg (exceptCanonical (fun p => State.canonical (Prod.snd p))) heq
        | have he := congrArg (exceptCanonical (fun p => State.canonical (Prod.fst p))) heq
        | have he := congrArg (exceptCanonical (fun _ => True)) heq
        | have he := congrArg (fun p => State.canonical (Prod.fst p)) heq); clear heq; simp (maxDischargeDepth := 60) +contextual [*] at he))))

@[simp] theorem State.canonical_mbGo {s : State} (op : Nat) (tag : Nat) (hc : s.canonical) : (State.mbGo s op tag).canonical := by
  simp (maxDischargeDepth := 60) +contextual [State.mbGo, *]

@[simp] theorem State.canonical_mbTook {s : State} (r : MbReq) (hc : s.canonical) : (State.mbTook s r).canonical := by
  simp (maxDischargeDepth := 60) +contextual [State.mbTook, *]

@[simp] theorem State.canonical_mbDone {s : State} (r : MbReq) (result : Nat) (rsp : List Byte) (hc : s.canonical) : (State.mbDone s r result rsp).canonical := by
  simp (maxDischargeDepth := 60) +contextual [State.mbDone, *]

@[simp] theorem State.canonical_spdmSay {s : State} (r : MbReq) (code : Nat) (fields : List Nat) (hc : s.canonical) : (State.spdmSay s r code fields).canonical := by
  simp (maxDischargeDepth := 60) +contextual [State.spdmSay, *]

@[simp] theorem State.canonical_spdmError {s : State} (r : MbReq) (err : Nat) (hc : s.canonical) : (State.spdmError s r err).canonical := by
  simp (maxDischargeDepth := 60) +contextual [State.spdmError, *]

@[simp] theorem State.canonical_sessionKey {s : State} (secret : Nat) (hc : s.canonical) : (State.sessionKey s secret).canonical := by
  simp (maxDischargeDepth := 60) +contextual [State.sessionKey, *]

@[simp] theorem State.canonical_mbWrite {s : State} (op : Nat) (tag : Nat) (hc : s.canonical) : (State.mbWrite s op tag).canonical := by
  simp (maxDischargeDepth := 60) +contextual [State.mbWrite, *]

@[simp] theorem State.canonical_spdm {s : State} {act : MbReq → State} (ha : ∀ r, (act r).canonical) (hc : s.canonical) :
    (s.spdm act).canonical := by
  unfold State.spdm
  split <;> simp (maxDischargeDepth := 60) +contextual [*]

@[simp] theorem State.canonical_setSessions {s : State} (l : List Spdm) (hc : s.canonical) : (State.setSessions s l).canonical := by
  simp (maxDischargeDepth := 60) +contextual [State.setSessions, *]

@[simp] theorem State.canonical_siStop {s : State} (n : Nat) (status : Nat) (hc : s.canonical) : (State.siStop s n status).canonical := by
  simp (maxDischargeDepth := 60) +contextual [State.siStop, *]

@[simp] theorem State.canonical_siWrite {s : State} (n : Nat) (off : Nat) (bs : List Byte) (hc : s.canonical) : (State.siWrite s n off bs).2.canonical := by
  simp (maxDischargeDepth := 60) +contextual [State.siWrite, *]

@[simp] theorem State.canonical_siFlush {s : State} (n : Nat) (hc : s.canonical) : (State.siFlush s n).canonical := by
  unfold State.siFlush
  try dsimp only
  repeat' (first
    | (simp (maxDischargeDepth := 60) +contextual [*]; done)
    | refine State.canonical_forN _ _ (fun i s h => ?_) ?_ <;> try dsimp only
    | refine State.canonical_forL _ _ (fun i s h => ?_) ?_ <;> try dsimp only
    | (split <;> (try (rename_i heq; (first
        | have he := congrArg (fun p => State.canonical (Prod.snd p)) heq
        | have he := congrArg KvR.canonical heq
        | have he := congrArg (exceptCanonical (fun p => State.canonical (Prod.snd p))) heq
        | have he := congrArg (exceptCanonical (fun p => State.canonical (Prod.fst p))) heq
        | have he := congrArg (exceptCanonical (fun _ => True)) heq
        | have he := congrArg (fun p => State.canonical (Prod.fst p)) heq); clear heq; simp (maxDischargeDepth := 60) +contextual [*] at he))))

@[simp] theorem State.canonical_siByte {s : State} (n : Nat) (b : Byte) (hc : s.canonical) : (State.siByte s n b).canonical := by
  simp (maxDischargeDepth := 60) +contextual [State.siByte, *]

@[simp] theorem State.canonical_siPublish {s : State} (n : Nat) (hc : s.canonical) : (State.siPublish s n).canonical := by
  unfold State.siPublish
  try dsimp only
  repeat' (first
    | (simp (maxDischargeDepth := 60) +contextual [*]; done)
    | refine State.canonical_forN _ _ (fun i s h => ?_) ?_ <;> try dsimp only
    | refine State.canonical_forL _ _ (fun i s h => ?_) ?_ <;> try dsimp only
    | (split <;> (try (rename_i heq; (first
        | have he := congrArg (fun p => State.canonical (Prod.snd p)) heq
        | have he := congrArg KvR.canonical heq
        | have he := congrArg (exceptCanonical (fun p => State.canonical (Prod.snd p))) heq
        | have he := congrArg (exceptCanonical (fun p => State.canonical (Prod.fst p))) heq
        | have he := congrArg (exceptCanonical (fun _ => True)) heq
        | have he := congrArg (fun p => State.canonical (Prod.fst p)) heq); clear heq; simp (maxDischargeDepth := 60) +contextual [*] at he))))

@[simp] theorem State.canonical_siEnd {s : State} (n : Nat) (flags : Nat) (hc : s.canonical) : (State.siEnd s n flags).canonical := by
  simp (maxDischargeDepth := 60) +contextual [State.siEnd, *]

@[simp] theorem State.canonical_siDrop {s : State} (n : Nat) (hc : s.canonical) : (State.siDrop s n).canonical := by
  simp (maxDischargeDepth := 60) +contextual [State.siDrop, *]

@[simp] theorem State.canonical_siStart {s : State} (n : Nat) (hc : s.canonical) : (State.siStart s n).canonical := by
  unfold State.siStart
  try dsimp only
  repeat' (first
    | (simp (maxDischargeDepth := 60) +contextual [*]; done)
    | refine State.canonical_forN _ _ (fun i s h => ?_) ?_ <;> try dsimp only
    | refine State.canonical_forL _ _ (fun i s h => ?_) ?_ <;> try dsimp only
    | (split <;> (try (rename_i heq; (first
        | have he := congrArg (fun p => State.canonical (Prod.snd p)) heq
        | have he := congrArg KvR.canonical heq
        | have he := congrArg (exceptCanonical (fun p => State.canonical (Prod.snd p))) heq
        | have he := congrArg (exceptCanonical (fun p => State.canonical (Prod.fst p))) heq
        | have he := congrArg (exceptCanonical (fun _ => True)) heq
        | have he := congrArg (fun p => State.canonical (Prod.fst p)) heq); clear heq; simp (maxDischargeDepth := 60) +contextual [*] at he))))

@[simp] theorem State.canonical_siWord {s : State} (n : Nat) (bs : List Byte) (ue : Bool) (full : Bool) (hc : s.canonical) : (State.siWord s n bs ue full).canonical := by
  simp (maxDischargeDepth := 60) +contextual [State.siWord, *]

@[simp] theorem State.canonical_siEnable {s : State} (n : Nat) (hc : s.canonical) : (State.siEnable s n).canonical := by
  unfold State.siEnable
  split <;> simp (maxDischargeDepth := 60) +contextual [*]

@[simp] theorem State.canonical_siDisable {s : State} (n : Nat) (hc : s.canonical) : (State.siDisable s n).canonical := by
  simp (maxDischargeDepth := 60) +contextual [State.siDisable, *]

@[simp] theorem State.canonical_poolWait {s : State} (l : Pool) (who : Nat × Nat × Nat) (hc : s.canonical) : (State.poolWait s l who).canonical := by
  simp (maxDischargeDepth := 60) +contextual [State.poolWait, *]

@[simp] theorem State.canonical_poolLeave {s : State} (who : Nat × Nat × Nat) (hc : s.canonical) : (State.poolLeave s who).canonical := by
  simp (maxDischargeDepth := 60) +contextual [State.poolLeave, *]

@[simp] theorem State.canonical_parkSwitched {s : State} (ctx : Nat) (hc : s.canonical) : (State.parkSwitched s ctx).canonical := by
  simp (maxDischargeDepth := 60) +contextual [State.parkSwitched, *]

@[simp] theorem State.canonical_afterTile {s : State} (n : Nat) (ctx : Nat) (hc : s.canonical) : (State.afterTile s n ctx).canonical := by
  simp (maxDischargeDepth := 60) +contextual [State.afterTile, *]

@[simp] theorem State.canonical_switchOut {s : State} (q : Nat) (slot : Nat) (i : Nat) (seg : Nat) (off : Nat) (right : Nat) (kind : Nat) (stage : Nat) (level : Nat) (ipa : Nat) (hc : s.canonical) : (State.switchOut s q slot i seg off right kind stage level ipa).canonical := by
  simp (maxDischargeDepth := 60) +contextual [State.switchOut, *]

@[simp] theorem State.canonical_stopErr {s : State} (n : Nat) (t : Tile) (st : Nat) (page : Nat) (reason : Nat) (hc : s.canonical) : (State.stopErr s n t st page reason).canonical := by
  unfold State.stopErr
  try dsimp only
  repeat' (first
    | (simp (maxDischargeDepth := 60) +contextual [*]; done)
    | refine State.canonical_forN _ _ (fun i s h => ?_) ?_ <;> try dsimp only
    | refine State.canonical_forL _ _ (fun i s h => ?_) ?_ <;> try dsimp only
    | (split <;> (try (rename_i heq; (first
        | have he := congrArg (fun p => State.canonical (Prod.snd p)) heq
        | have he := congrArg KvR.canonical heq
        | have he := congrArg (exceptCanonical (fun p => State.canonical (Prod.snd p))) heq
        | have he := congrArg (exceptCanonical (fun p => State.canonical (Prod.fst p))) heq
        | have he := congrArg (exceptCanonical (fun _ => True)) heq
        | have he := congrArg (fun p => State.canonical (Prod.fst p)) heq); clear heq; simp (maxDischargeDepth := 60) +contextual [*] at he))))

@[simp] theorem State.canonical_stopFault {s : State} (n : Nat) (t : Tile) (a : Access) (kind : Nat) (stage : Nat) (level : Nat) (ipa : Nat) (hc : s.canonical) : (State.stopFault s n t a kind stage level ipa).canonical := by
  unfold State.stopFault
  try dsimp only
  repeat' (first
    | (simp (maxDischargeDepth := 60) +contextual [*]; done)
    | refine State.canonical_forN _ _ (fun i s h => ?_) ?_ <;> try dsimp only
    | refine State.canonical_forL _ _ (fun i s h => ?_) ?_ <;> try dsimp only
    | (split <;> (try (rename_i heq; (first
        | have he := congrArg (fun p => State.canonical (Prod.snd p)) heq
        | have he := congrArg KvR.canonical heq
        | have he := congrArg (exceptCanonical (fun p => State.canonical (Prod.snd p))) heq
        | have he := congrArg (exceptCanonical (fun p => State.canonical (Prod.fst p))) heq
        | have he := congrArg (exceptCanonical (fun _ => True)) heq
        | have he := congrArg (fun p => State.canonical (Prod.fst p)) heq); clear heq; simp (maxDischargeDepth := 60) +contextual [*] at he))))

@[simp] theorem State.canonical_issueRead {s : State} (n : Nat) (t : Tile) (a : Access) (hpa : Nat) (hc : s.canonical) : (State.issueRead s n t a hpa).canonical := by
  unfold State.issueRead
  split <;> simp (maxDischargeDepth := 60) +contextual [*]

@[simp] theorem State.canonical_askLine {s : State} (n : Nat) (t : Tile) (a : Access) (hc : s.canonical) : (State.askLine s n t a).canonical := by
  unfold State.askLine
  try dsimp only
  repeat' (first
    | (simp (maxDischargeDepth := 60) +contextual [*]; done)
    | refine State.canonical_forN _ _ (fun i s h => ?_) ?_ <;> try dsimp only
    | refine State.canonical_forL _ _ (fun i s h => ?_) ?_ <;> try dsimp only
    | (split <;> (try (rename_i heq; (first
        | have he := congrArg (fun p => State.canonical (Prod.snd p)) heq
        | have he := congrArg KvR.canonical heq
        | have he := congrArg (exceptCanonical (fun p => State.canonical (Prod.snd p))) heq
        | have he := congrArg (exceptCanonical (fun p => State.canonical (Prod.fst p))) heq
        | have he := congrArg (exceptCanonical (fun _ => True)) heq
        | have he := congrArg (fun p => State.canonical (Prod.fst p)) heq); clear heq; simp (maxDischargeDepth := 60) +contextual [*] at he))))

@[simp] theorem State.canonical_stopBlock {s : State} (n : Nat) (t : Tile) (id : Nat) (hc : s.canonical) : (State.stopBlock s n t id).canonical := by
  simp (maxDischargeDepth := 60) +contextual [State.stopBlock, *]

@[simp] theorem State.canonical_tilePin {s : State} (n : Nat) (t : Tile) (id : Nat) (hc : s.canonical) : (State.tilePin s n t id).1.canonical := by
  simp (maxDischargeDepth := 60) +contextual [State.tilePin, *]

@[simp] theorem State.canonical_learnBlock {s : State} (n : Nat) (t : Tile) (key : Nat) (word : Nat) (kind : Nat) (fmt : Nat) (dcode : Nat) (pin : Bool) (hc : s.canonical) : exceptCanonical (fun p => State.canonical (Prod.fst p)) (State.learnBlock s n t key word kind fmt dcode pin) := by
  unfold State.learnBlock
  try dsimp only
  repeat' (first
    | (simp (maxDischargeDepth := 60) +contextual [*]; done)
    | refine State.canonical_forN _ _ (fun i s h => ?_) ?_ <;> try dsimp only
    | refine State.canonical_forL _ _ (fun i s h => ?_) ?_ <;> try dsimp only
    | (split <;> (try (rename_i heq; (first
        | have he := congrArg (fun p => State.canonical (Prod.snd p)) heq
        | have he := congrArg KvR.canonical heq
        | have he := congrArg (exceptCanonical (fun p => State.canonical (Prod.snd p))) heq
        | have he := congrArg (exceptCanonical (fun p => State.canonical (Prod.fst p))) heq
        | have he := congrArg (exceptCanonical (fun _ => True)) heq
        | have he := congrArg (fun p => State.canonical (Prod.fst p)) heq); clear heq; simp (maxDischargeDepth := 60) +contextual [*] at he))))

@[simp] theorem State.canonical_holdBlock {s : State} (n : Nat) (t : Tile) (key : Nat) (hc : s.canonical) : exceptCanonical (fun p => State.canonical (Prod.fst p)) (State.holdBlock s n t key) := by
  unfold State.holdBlock
  try dsimp only
  repeat' (first
    | (simp (maxDischargeDepth := 60) +contextual [*]; done)
    | refine State.canonical_forN _ _ (fun i s h => ?_) ?_ <;> try dsimp only
    | refine State.canonical_forL _ _ (fun i s h => ?_) ?_ <;> try dsimp only
    | (split <;> (try (rename_i heq; (first
        | have he := congrArg (fun p => State.canonical (Prod.snd p)) heq
        | have he := congrArg KvR.canonical heq
        | have he := congrArg (exceptCanonical (fun p => State.canonical (Prod.snd p))) heq
        | have he := congrArg (exceptCanonical (fun p => State.canonical (Prod.fst p))) heq
        | have he := congrArg (exceptCanonical (fun _ => True)) heq
        | have he := congrArg (fun p => State.canonical (Prod.fst p)) heq); clear heq; simp (maxDischargeDepth := 60) +contextual [*] at he))))

@[simp] theorem State.canonical_dropBlock {s : State} (n : Nat) (t : Tile) (key : Nat) (hc : s.canonical) : exceptCanonical (fun p => State.canonical (Prod.fst p)) (State.dropBlock s n t key) := by
  unfold State.dropBlock
  try dsimp only
  repeat' (first
    | (simp (maxDischargeDepth := 60) +contextual [*]; done)
    | refine State.canonical_forN _ _ (fun i s h => ?_) ?_ <;> try dsimp only
    | refine State.canonical_forL _ _ (fun i s h => ?_) ?_ <;> try dsimp only
    | (split <;> (try (rename_i heq; (first
        | have he := congrArg (fun p => State.canonical (Prod.snd p)) heq
        | have he := congrArg KvR.canonical heq
        | have he := congrArg (exceptCanonical (fun p => State.canonical (Prod.snd p))) heq
        | have he := congrArg (exceptCanonical (fun p => State.canonical (Prod.fst p))) heq
        | have he := congrArg (exceptCanonical (fun _ => True)) heq
        | have he := congrArg (fun p => State.canonical (Prod.fst p)) heq); clear heq; simp (maxDischargeDepth := 60) +contextual [*] at he))))

@[simp] theorem State.canonical_runOnNext {z2 : State} (n : Nat) (z1 : Nat) (z3 : Tile) (hc : z2.canonical) : (State.runOnNext n z1 z2 z3).canonical := by
  induction z1 generalizing z2 z3
  all_goals
    unfold State.runOnNext
    try dsimp only
    repeat' (first
      | (simp (maxDischargeDepth := 60) +contextual [*]; done)
      | refine State.canonical_forN _ _ (fun i s h => ?_) ?_ <;> try dsimp only
      | refine State.canonical_forL _ _ (fun i s h => ?_) ?_ <;> try dsimp only
      | (split <;> (try (rename_i heq; (first
          | have he := congrArg (fun p => State.canonical (Prod.snd p)) heq
          | have he := congrArg KvR.canonical heq
          | have he := congrArg (exceptCanonical (fun p => State.canonical (Prod.snd p))) heq
          | have he := congrArg (exceptCanonical (fun p => State.canonical (Prod.fst p))) heq
          | have he := congrArg (exceptCanonical (fun _ => True)) heq
          | have he := congrArg (fun p => State.canonical (Prod.fst p)) heq); clear heq; simp (maxDischargeDepth := 60) +contextual [*] at he))))

@[simp] theorem State.canonical_tileReady {s : State} (n : Nat) (t : Tile) (hc : s.canonical) : (State.tileReady s n t).canonical := by
  unfold State.tileReady
  dsimp only
  repeat' (first | (simp (maxDischargeDepth := 60) +contextual [*]; done) | split)

@[simp] theorem State.canonical_readAhead {z2 : State} (n : Nat) (z1 : Nat) (hc : z2.canonical) : (State.readAhead n z1 z2).canonical := by
  induction z1 generalizing z2 
  all_goals
    unfold State.readAhead
    try dsimp only
    repeat' (first
      | (simp (maxDischargeDepth := 60) +contextual [*]; done)
      | refine State.canonical_forN _ _ (fun i s h => ?_) ?_ <;> try dsimp only
      | refine State.canonical_forL _ _ (fun i s h => ?_) ?_ <;> try dsimp only
      | (split <;> (try (rename_i heq; (first
          | have he := congrArg (fun p => State.canonical (Prod.snd p)) heq
          | have he := congrArg KvR.canonical heq
          | have he := congrArg (exceptCanonical (fun p => State.canonical (Prod.snd p))) heq
          | have he := congrArg (exceptCanonical (fun p => State.canonical (Prod.fst p))) heq
          | have he := congrArg (exceptCanonical (fun _ => True)) heq
          | have he := congrArg (fun p => State.canonical (Prod.fst p)) heq); clear heq; simp (maxDischargeDepth := 60) +contextual [*] at he))))

@[simp] theorem State.canonical_mxeGo {s : State} (n : Nat) (t : Tile) (hc : s.canonical) : (State.mxeGo s n t).canonical := by
  unfold State.mxeGo
  dsimp only
  repeat' (first | (simp (maxDischargeDepth := 60) +contextual [*]; done) | split)

@[simp] theorem State.canonical_askMore {s : State} (n : Nat) (t : Tile) (a : Access) (hc : s.canonical) : (State.askMore s n t a).canonical := by
  unfold State.askMore
  split <;> simp (maxDischargeDepth := 60) +contextual [*]

@[simp] theorem State.canonical_advanceGo {z2 : State} (n : Nat) (z1 : Nat) (z3 : Tile) (hc : z2.canonical) : (State.advanceGo n z1 z2 z3).canonical := by
  induction z1 generalizing z2 z3
  all_goals
    unfold State.advanceGo
    try dsimp only
    repeat' (first
      | (simp (maxDischargeDepth := 60) +contextual [*]; done)
      | refine State.canonical_forN _ _ (fun i s h => ?_) ?_ <;> try dsimp only
      | refine State.canonical_forL _ _ (fun i s h => ?_) ?_ <;> try dsimp only
      | (split <;> (try (rename_i heq; (first
          | have he := congrArg (fun p => State.canonical (Prod.snd p)) heq
          | have he := congrArg KvR.canonical heq
          | have he := congrArg (exceptCanonical (fun p => State.canonical (Prod.snd p))) heq
          | have he := congrArg (exceptCanonical (fun p => State.canonical (Prod.fst p))) heq
          | have he := congrArg (exceptCanonical (fun _ => True)) heq
          | have he := congrArg (fun p => State.canonical (Prod.fst p)) heq); clear heq; simp (maxDischargeDepth := 60) +contextual [*] at he))))

@[simp] theorem State.canonical_advance {s : State} (n : Nat) (hc : s.canonical) : (State.advance s n).canonical := by
  unfold State.advance
  split <;> simp (maxDischargeDepth := 60) +contextual [*]

@[simp] theorem State.canonical_delivered {s : State} (slot : Nat) (hpa : Nat) (raw : List Byte) (ok : Bool) (bad : Bool) (hc : s.canonical) : (State.delivered s slot hpa raw ok bad).2.canonical := by
  simp (maxDischargeDepth := 60) +contextual [State.delivered, *]

@[simp] theorem State.canonical_advanceMore {s : State} (n : Nat) (hc : s.canonical) : (State.advanceMore s n).canonical := by
  unfold State.advanceMore
  repeat' (first | (simp (maxDischargeDepth := 60) +contextual [*]; done) | split)

@[simp] theorem State.canonical_lineProgress {s : State} (n : Nat) (t : Tile) (hc : s.canonical) : (State.lineProgress s n t).canonical := by
  unfold State.lineProgress
  split <;> simp (maxDischargeDepth := 60) +contextual [*]

@[simp] theorem State.canonical_giveLine {s : State} (n : Nat) (a : Access) (hpa : Nat) (v : Line) (bad : Bool) (hc : s.canonical) : (State.giveLine s n a hpa v bad).canonical := by
  unfold State.giveLine
  split <;> simp (maxDischargeDepth := 60) +contextual [*]

@[simp] theorem State.canonical_deliverAhead {s : State} (n : Nat) (a : Access) (hpa : Nat) (v : Line) (bad : Bool) (hc : s.canonical) : (State.deliverAhead s n a hpa v bad).canonical := by
  unfold State.deliverAhead
  dsimp only
  repeat' (first | (simp (maxDischargeDepth := 60) +contextual [*]; done) | split)

@[simp] theorem State.canonical_doWr {s : State} (n : Nat) (t : Tile) (slot : Nat) (z4 : Wr) (hc : s.canonical) : (State.doWr s n t slot z4).canonical := by
  unfold State.doWr
  repeat' (first | (simp (maxDischargeDepth := 60) +contextual [*]; done) | split)

@[simp] theorem State.canonical_putWord {s : State} (n : Nat) (t : Tile) (slot : Nat) (h : Nat) (w : Nat) (hc : s.canonical) : (State.putWord s n t slot h w).canonical := by
  simp (maxDischargeDepth := 60) +contextual [State.putWord, *]

@[simp] theorem State.canonical_namedBlock {s : State} (n : Nat) (t : Tile) (word : Nat) (kind : Nat) (fmt : Nat) (dcode : Nat) (hc : s.canonical) : exceptCanonical (fun p => State.canonical (Prod.snd p)) (State.namedBlock s n t word kind fmt dcode) := by
  unfold State.namedBlock
  try dsimp only
  repeat' (first
    | (simp (maxDischargeDepth := 60) +contextual [*]; done)
    | refine State.canonical_forN _ _ (fun i s h => ?_) ?_ <;> try dsimp only
    | refine State.canonical_forL _ _ (fun i s h => ?_) ?_ <;> try dsimp only
    | (split <;> (try (rename_i heq; (first
        | have he := congrArg (fun p => State.canonical (Prod.snd p)) heq
        | have he := congrArg KvR.canonical heq
        | have he := congrArg (exceptCanonical (fun p => State.canonical (Prod.snd p))) heq
        | have he := congrArg (exceptCanonical (fun p => State.canonical (Prod.fst p))) heq
        | have he := congrArg (exceptCanonical (fun _ => True)) heq
        | have he := congrArg (fun p => State.canonical (Prod.fst p)) heq); clear heq; simp (maxDischargeDepth := 60) +contextual [*] at he))))

@[simp] theorem State.canonical_doKv {s : State} (n : Nat) (t : Tile) (slot : Nat) (o : KvOp × Nat) (hc : s.canonical) : KvR.canonical (State.doKv s n t slot o) := by
  unfold State.doKv
  try dsimp only
  repeat' (first
    | (simp (maxDischargeDepth := 60) +contextual [*]; done)
    | refine State.canonical_forN _ _ (fun i s h => ?_) ?_ <;> try dsimp only
    | refine State.canonical_forL _ _ (fun i s h => ?_) ?_ <;> try dsimp only
    | (split <;> (try (rename_i heq; (first
        | have he := congrArg (fun p => State.canonical (Prod.snd p)) heq
        | have he := congrArg KvR.canonical heq
        | have he := congrArg (exceptCanonical (fun p => State.canonical (Prod.snd p))) heq
        | have he := congrArg (exceptCanonical (fun p => State.canonical (Prod.fst p))) heq
        | have he := congrArg (exceptCanonical (fun _ => True)) heq
        | have he := congrArg (fun p => State.canonical (Prod.fst p)) heq); clear heq; simp (maxDischargeDepth := 60) +contextual [*] at he))))

@[simp] theorem State.canonical_doKvs {s : State} (n : Nat) (t : Tile) (slot : Nat) (z4 : List (KvOp × Nat)) (hc : s.canonical) : KvR.canonical (State.doKvs s n t slot z4) := by
  induction z4 generalizing s 
  all_goals
    unfold State.doKvs
    try dsimp only
    repeat' (first
      | (simp (maxDischargeDepth := 60) +contextual [*]; done)
      | refine State.canonical_forN _ _ (fun i s h => ?_) ?_ <;> try dsimp only
      | refine State.canonical_forL _ _ (fun i s h => ?_) ?_ <;> try dsimp only
      | (split <;> (try (rename_i heq; (first
          | have he := congrArg (fun p => State.canonical (Prod.snd p)) heq
          | have he := congrArg KvR.canonical heq
          | have he := congrArg (exceptCanonical (fun p => State.canonical (Prod.snd p))) heq
          | have he := congrArg (exceptCanonical (fun p => State.canonical (Prod.fst p))) heq
          | have he := congrArg (exceptCanonical (fun _ => True)) heq
          | have he := congrArg (fun p => State.canonical (Prod.fst p)) heq); clear heq; simp (maxDischargeDepth := 60) +contextual [*] at he))))

@[simp] theorem State.canonical_recordDone {s : State} (c : Cmd) (hc : s.canonical) : (State.recordDone s c).2.canonical := by
  unfold State.recordDone
  try dsimp only
  repeat' (first
    | (simp (maxDischargeDepth := 60) +contextual [*]; done)
    | refine State.canonical_forN _ _ (fun i s h => ?_) ?_ <;> try dsimp only
    | refine State.canonical_forL _ _ (fun i s h => ?_) ?_ <;> try dsimp only
    | (split <;> (try (rename_i heq; (first
        | have he := congrArg (fun p => State.canonical (Prod.snd p)) heq
        | have he := congrArg KvR.canonical heq
        | have he := congrArg (exceptCanonical (fun p => State.canonical (Prod.snd p))) heq
        | have he := congrArg (exceptCanonical (fun p => State.canonical (Prod.fst p))) heq
        | have he := congrArg (exceptCanonical (fun _ => True)) heq
        | have he := congrArg (fun p => State.canonical (Prod.fst p)) heq); clear heq; simp (maxDischargeDepth := 60) +contextual [*] at he))))

@[simp] theorem State.canonical_dirDone {s : State} (c : Cmd) (hc : s.canonical) : (State.dirDone s c).canonical := by
  simp (maxDischargeDepth := 60) +contextual [State.dirDone, *]

@[simp] theorem State.canonical_tilesEnd {s : State} (c : Cmd) (hc : s.canonical) : (State.tilesEnd s c).canonical := by
  simp (maxDischargeDepth := 60) +contextual [State.tilesEnd, *]

@[simp] theorem State.canonical_cbsLoad {s : State} (n : Nat) (t : Tile) (bs : List MB) (hc : s.canonical) : (State.cbsLoad s n t bs).canonical := by
  simp (maxDischargeDepth := 60) +contextual [State.cbsLoad, *]

@[simp] theorem State.canonical_tell {s : State} (r : TRes) (hc : s.canonical) : (State.tell s r).canonical := by
  simp (maxDischargeDepth := 60) +contextual [State.tell, *]

@[simp] theorem State.canonical_endNormal {s : State} (n : Nat) (t : Tile) (r : TRes) (hc : s.canonical) : (State.endNormal s n t r).canonical := by
  unfold State.endNormal
  try dsimp only
  repeat' (first
    | (simp (maxDischargeDepth := 60) +contextual [*]; done)
    | refine State.canonical_forN _ _ (fun i s h => ?_) ?_ <;> try dsimp only
    | refine State.canonical_forL _ _ (fun i s h => ?_) ?_ <;> try dsimp only
    | (split <;> (try (rename_i heq; (first
        | have he := congrArg (fun p => State.canonical (Prod.snd p)) heq
        | have he := congrArg KvR.canonical heq
        | have he := congrArg (exceptCanonical (fun p => State.canonical (Prod.snd p))) heq
        | have he := congrArg (exceptCanonical (fun p => State.canonical (Prod.fst p))) heq
        | have he := congrArg (exceptCanonical (fun _ => True)) heq
        | have he := congrArg (fun p => State.canonical (Prod.fst p)) heq); clear heq; simp (maxDischargeDepth := 60) +contextual [*] at he))))

@[simp] theorem State.canonical_endCodebook {s : State} (n : Nat) (t : Tile) (bs : List MB) (hc : s.canonical) : (State.endCodebook s n t bs).canonical := by
  simp (maxDischargeDepth := 60) +contextual [State.endCodebook, *]

@[simp] theorem State.canonical_endPoisoned {s : State} (n : Nat) (t : Tile) (r : TRes) (hc : s.canonical) : (State.endPoisoned s n t r).canonical := by
  unfold State.endPoisoned
  try dsimp only
  repeat' (first
    | (simp (maxDischargeDepth := 60) +contextual [*]; done)
    | refine State.canonical_forN _ _ (fun i s h => ?_) ?_ <;> try dsimp only
    | refine State.canonical_forL _ _ (fun i s h => ?_) ?_ <;> try dsimp only
    | (split <;> (try (rename_i heq; (first
        | have he := congrArg (fun p => State.canonical (Prod.snd p)) heq
        | have he := congrArg KvR.canonical heq
        | have he := congrArg (exceptCanonical (fun p => State.canonical (Prod.snd p))) heq
        | have he := congrArg (exceptCanonical (fun p => State.canonical (Prod.fst p))) heq
        | have he := congrArg (exceptCanonical (fun _ => True)) heq
        | have he := congrArg (fun p => State.canonical (Prod.fst p)) heq); clear heq; simp (maxDischargeDepth := 60) +contextual [*] at he))))

@[simp] theorem State.canonical_commitKv {s : State} (n : Nat) (t : Tile) (f : TileFin) (hc : s.canonical) : (State.commitKv s n t f).canonical := by
  unfold State.commitKv
  try dsimp only
  repeat' (first
    | (simp (maxDischargeDepth := 60) +contextual [*]; done)
    | refine State.canonical_forN _ _ (fun i s h => ?_) ?_ <;> try dsimp only
    | refine State.canonical_forL _ _ (fun i s h => ?_) ?_ <;> try dsimp only
    | (split <;> (try (rename_i heq; (first
        | have he := congrArg (fun p => State.canonical (Prod.snd p)) heq
        | have he := congrArg KvR.canonical heq
        | have he := congrArg (exceptCanonical (fun p => State.canonical (Prod.snd p))) heq
        | have he := congrArg (exceptCanonical (fun p => State.canonical (Prod.fst p))) heq
        | have he := congrArg (exceptCanonical (fun _ => True)) heq
        | have he := congrArg (fun p => State.canonical (Prod.fst p)) heq); clear heq; simp (maxDischargeDepth := 60) +contextual [*] at he))))

@[simp] theorem State.canonical_finish {s : State} (n : Nat) (hc : s.canonical) : (State.finish s n).canonical := by
  unfold State.finish
  repeat' (first | (simp (maxDischargeDepth := 60) +contextual [*]; done) | split)

@[simp] theorem State.canonical_endWith {s : State} (n : Nat) (t : Tile) (r : TRes) (hc : s.canonical) : (State.endWith s n t r).canonical := by
  unfold State.endWith
  try dsimp only
  repeat' (first
    | (simp (maxDischargeDepth := 60) +contextual [*]; done)
    | refine State.canonical_forN _ _ (fun i s h => ?_) ?_ <;> try dsimp only
    | refine State.canonical_forL _ _ (fun i s h => ?_) ?_ <;> try dsimp only
    | (split <;> (try (rename_i heq; (first
        | have he := congrArg (fun p => State.canonical (Prod.snd p)) heq
        | have he := congrArg KvR.canonical heq
        | have he := congrArg (exceptCanonical (fun p => State.canonical (Prod.snd p))) heq
        | have he := congrArg (exceptCanonical (fun p => State.canonical (Prod.fst p))) heq
        | have he := congrArg (exceptCanonical (fun _ => True)) heq
        | have he := congrArg (fun p => State.canonical (Prod.fst p)) heq); clear heq; simp (maxDischargeDepth := 60) +contextual [*] at he))))

@[simp] theorem State.canonical_blockNow {s : State} (n : Nat) (g : BlockGot) (hc : s.canonical) : exceptCanonical (fun p => State.canonical (Prod.snd p)) (State.blockNow s n g) := by
  unfold State.blockNow
  try dsimp only
  repeat' (first
    | (simp (maxDischargeDepth := 60) +contextual [*]; done)
    | refine State.canonical_forN _ _ (fun i s h => ?_) ?_ <;> try dsimp only
    | refine State.canonical_forL _ _ (fun i s h => ?_) ?_ <;> try dsimp only
    | (split <;> (try (rename_i heq; (first
        | have he := congrArg (fun p => State.canonical (Prod.snd p)) heq
        | have he := congrArg KvR.canonical heq
        | have he := congrArg (exceptCanonical (fun p => State.canonical (Prod.snd p))) heq
        | have he := congrArg (exceptCanonical (fun p => State.canonical (Prod.fst p))) heq
        | have he := congrArg (exceptCanonical (fun _ => True)) heq
        | have he := congrArg (fun p => State.canonical (Prod.fst p)) heq); clear heq; simp (maxDischargeDepth := 60) +contextual [*] at he))))

@[simp] theorem State.canonical_blocksNow {s : State} (n : Nat) (t : Tile) (z3 : List BlockGot) (z4 : List BlockGot) (hc : s.canonical) : exceptCanonical (fun p => State.canonical (Prod.snd p)) (State.blocksNow s n t z3 z4) := by
  induction z3 generalizing s z4
  all_goals
    unfold State.blocksNow
    try dsimp only
    repeat' (first
      | (simp (maxDischargeDepth := 60) +contextual [*]; done)
      | refine State.canonical_forN _ _ (fun i s h => ?_) ?_ <;> try dsimp only
      | refine State.canonical_forL _ _ (fun i s h => ?_) ?_ <;> try dsimp only
      | (split <;> (try (rename_i heq; (first
          | have he := congrArg (fun p => State.canonical (Prod.snd p)) heq
          | have he := congrArg KvR.canonical heq
          | have he := congrArg (exceptCanonical (fun p => State.canonical (Prod.snd p))) heq
          | have he := congrArg (exceptCanonical (fun p => State.canonical (Prod.fst p))) heq
          | have he := congrArg (exceptCanonical (fun _ => True)) heq
          | have he := congrArg (fun p => State.canonical (Prod.fst p)) heq); clear heq; simp (maxDischargeDepth := 60) +contextual [*] at he))))

@[simp] theorem State.canonical_endTile {s : State} (n : Nat) (t : Tile) (hc : s.canonical) : (s.endTile n t).canonical := by
  have hb : exceptCanonical (fun p => State.canonical (Prod.snd p)) (if t.kind = 5 then s.blocksNow n t t.blocks [] else .ok (t, s)) := by
    split <;> simp [*]
  unfold State.endTile
  repeat' (first
    | (simp (maxDischargeDepth := 60) +contextual [*]; done)
    | split)
  · rename_i heq
    rw [heq] at hb
    exact hb
  all_goals
    rename_i heq _ _ _
    rw [heq] at hb
    have he : State.canonical _ := hb
    dsimp only at he
    simp [he]

@[simp] theorem State.canonical_fetchLines {s : State} (ctx : Nat) (seg : Nat) (z3 : List (Nat × List Byte)) (hc : s.canonical) : (State.fetchLines s ctx seg z3).2.canonical := by
  induction z3 generalizing s 
  all_goals
    unfold State.fetchLines
    try dsimp only
    repeat' (first
      | (simp (maxDischargeDepth := 60) +contextual [*]; done)
      | refine State.canonical_forN _ _ (fun i s h => ?_) ?_ <;> try dsimp only
      | refine State.canonical_forL _ _ (fun i s h => ?_) ?_ <;> try dsimp only
      | (split <;> (try (rename_i heq; (first
          | have he := congrArg (fun p => State.canonical (Prod.snd p)) heq
          | have he := congrArg KvR.canonical heq
          | have he := congrArg (exceptCanonical (fun p => State.canonical (Prod.snd p))) heq
          | have he := congrArg (exceptCanonical (fun p => State.canonical (Prod.fst p))) heq
          | have he := congrArg (exceptCanonical (fun _ => True)) heq
          | have he := congrArg (fun p => State.canonical (Prod.fst p)) heq); clear heq; simp (maxDischargeDepth := 60) +contextual [*] at he))))

@[simp] theorem State.canonical_tileRead {s : State} (ctx : Nat) (a : Nat) (n : Nat) (hc : s.canonical) : (State.tileRead s ctx a n).2.canonical := by
  unfold State.tileRead
  try dsimp only
  repeat' (first
    | (simp (maxDischargeDepth := 60) +contextual [*]; done)
    | refine State.canonical_forN _ _ (fun i s h => ?_) ?_ <;> try dsimp only
    | refine State.canonical_forL _ _ (fun i s h => ?_) ?_ <;> try dsimp only
    | (split <;> (try (rename_i heq; (first
        | have he := congrArg (fun p => State.canonical (Prod.snd p)) heq
        | have he := congrArg KvR.canonical heq
        | have he := congrArg (exceptCanonical (fun p => State.canonical (Prod.snd p))) heq
        | have he := congrArg (exceptCanonical (fun p => State.canonical (Prod.fst p))) heq
        | have he := congrArg (exceptCanonical (fun _ => True)) heq
        | have he := congrArg (fun p => State.canonical (Prod.fst p)) heq); clear heq; simp (maxDischargeDepth := 60) +contextual [*] at he))))

@[simp] theorem State.canonical_pruneWaiters {s : State} (hc : s.canonical) : (State.pruneWaiters s).canonical := by
  simp (maxDischargeDepth := 60) +contextual [State.pruneWaiters, *]

@[simp] theorem State.canonical_joinLine {s : State} (line : Nat) (who : Nat × Nat × Nat) (hc : s.canonical) : (State.joinLine s line who).canonical := by
  simp (maxDischargeDepth := 60) +contextual [State.joinLine, *]

@[simp] theorem State.canonical_leaveLocks {s : State} (who : Nat × Nat × Nat) (hc : s.canonical) : (State.leaveLocks s who).canonical := by
  simp (maxDischargeDepth := 60) +contextual [State.leaveLocks, *]

@[simp] theorem State.canonical_leavePools {s : State} (lacking : List Pool) (who : Nat × Nat × Nat) (hc : s.canonical) : (State.leavePools s lacking who).canonical := by
  simp (maxDischargeDepth := 60) +contextual [State.leavePools, *]

@[simp] theorem State.canonical_tryAsk {s : State} (n : Nat) (p : Nat) (a : Ask) (who : Nat × Nat × Nat) (hc : s.canonical) : (State.tryAsk s n p a who).2.canonical := by
  simp (maxDischargeDepth := 60) +contextual [State.tryAsk, *]

@[simp] theorem State.canonical_goesOn {s : State} (c : Cmd) (hc : s.canonical) : (State.goesOn s c).canonical := by
  simp (maxDischargeDepth := 60) +contextual [State.goesOn, *]

@[simp] theorem State.canonical_resumeKept {s : State} (c : Cmd) (hc : s.canonical) : (State.resumeKept s c).canonical := by
  unfold State.resumeKept
  try dsimp only
  repeat' (first
    | (simp (maxDischargeDepth := 60) +contextual [*]; done)
    | refine State.canonical_forN _ _ (fun i s h => ?_) ?_ <;> try dsimp only
    | refine State.canonical_forL _ _ (fun i s h => ?_) ?_ <;> try dsimp only
    | (split <;> (try (rename_i heq; (first
        | have he := congrArg (fun p => State.canonical (Prod.snd p)) heq
        | have he := congrArg KvR.canonical heq
        | have he := congrArg (exceptCanonical (fun p => State.canonical (Prod.snd p))) heq
        | have he := congrArg (exceptCanonical (fun p => State.canonical (Prod.fst p))) heq
        | have he := congrArg (exceptCanonical (fun _ => True)) heq
        | have he := congrArg (fun p => State.canonical (Prod.fst p)) heq); clear heq; simp (maxDischargeDepth := 60) +contextual [*] at he))))

@[simp] theorem State.canonical_parkServed {s : State} (n : Nat) (ctx : Nat) (hc : s.canonical) : (State.parkServed s n ctx).canonical := by
  simp (maxDischargeDepth := 60) +contextual [State.parkServed, *]

@[simp] theorem State.canonical_takeOver {s : State} (n : Nat) (ctx : Nat) (hc : s.canonical) : (State.takeOver s n ctx).canonical := by
  unfold State.takeOver
  split <;> simp (maxDischargeDepth := 60) +contextual [*]

@[simp] theorem State.canonical_bindCsb {s : State} (ctx : Nat) (cl : Nat) (gran : Nat) (hc : s.canonical) : (State.bindCsb s ctx cl gran).canonical := by
  simp (maxDischargeDepth := 60) +contextual [State.bindCsb, *]

@[simp] theorem State.canonical_grant {s : State} (n : Nat) (p : Nat) (c : Cmd) (a : Ask) (hc : s.canonical) : (State.grant s n p c a).2.canonical := by
  simp (maxDischargeDepth := 60) +contextual [State.grant, *]

@[simp] theorem State.canonical_showTile {s : State} (n : Nat) (t : Tile) (hc : s.canonical) : (State.showTile s n t).canonical := by
  simp (maxDischargeDepth := 60) +contextual [State.showTile, *]

@[simp] theorem State.canonical_showEngine {s : State} (n : Nat) (t : Tile) (hc : s.canonical) : (State.showEngine s n t).canonical := by
  unfold State.showEngine
  split <;> simp (maxDischargeDepth := 60) +contextual [*]

@[simp] theorem State.canonical_takeAhead {s : State} (n : Nat) (t : Tile) (hc : s.canonical) : (State.takeAhead s n t).2.canonical := by
  simp (maxDischargeDepth := 60) +contextual [State.takeAhead, *]

@[simp] theorem State.canonical_unstamp {s : State} (n : Nat) (t : Tile) (hc : s.canonical) : (State.unstamp s n t).canonical := by
  simp (maxDischargeDepth := 60) +contextual [State.unstamp, *]

@[simp] theorem State.canonical_useHalves {s : State} (n : Nat) (x : Tx) (hc : s.canonical) : (State.useHalves s n x).canonical := by
  simp (maxDischargeDepth := 60) +contextual [State.useHalves, *]

@[simp] theorem State.canonical_placeTile {s : State} (n : Nat) (t : Tile) (hc : s.canonical) : (State.placeTile s n t).canonical := by
  simp (maxDischargeDepth := 60) +contextual [State.placeTile, *]

@[simp] theorem State.canonical_fetchFails {s : State} (c : Cmd) (z2 : Fetch) (hc : s.canonical) : (State.fetchFails s c z2).canonical := by
  unfold State.fetchFails
  split <;> simp (maxDischargeDepth := 60) +contextual [*]

@[simp] theorem State.canonical_skipTile {s : State} (c : Cmd) (hc : s.canonical) : (State.skipTile s c).canonical := by
  simp (maxDischargeDepth := 60) +contextual [State.skipTile, *]

@[simp] theorem State.canonical_auxBlock {s : State} (x : Tx) (hc : s.canonical) : (State.auxBlock s x).2.canonical := by
  unfold State.auxBlock
  try dsimp only
  repeat' (first
    | (simp (maxDischargeDepth := 60) +contextual [*]; done)
    | refine State.canonical_forN _ _ (fun i s h => ?_) ?_ <;> try dsimp only
    | refine State.canonical_forL _ _ (fun i s h => ?_) ?_ <;> try dsimp only
    | (split <;> (try (rename_i heq; (first
        | have he := congrArg (fun p => State.canonical (Prod.snd p)) heq
        | have he := congrArg KvR.canonical heq
        | have he := congrArg (exceptCanonical (fun p => State.canonical (Prod.snd p))) heq
        | have he := congrArg (exceptCanonical (fun p => State.canonical (Prod.fst p))) heq
        | have he := congrArg (exceptCanonical (fun _ => True)) heq
        | have he := congrArg (fun p => State.canonical (Prod.fst p)) heq); clear heq; simp (maxDischargeDepth := 60) +contextual [*] at he))))

@[simp] theorem State.canonical_checkBody {s : State} (n : Nat) (c : Cmd) (x : Tx) (w : Option Win) (hc : s.canonical) : exceptCanonical (fun p => State.canonical (Prod.snd p)) (State.checkBody s n c x w) := by
  unfold State.checkBody
  dsimp only
  repeat' (first | (simp (maxDischargeDepth := 60) +contextual [*]; done) | split)

@[simp] theorem State.canonical_checkTdt {s : State} (n : Nat) (c : Cmd) (hc : s.canonical) : exceptCanonical (fun p => State.canonical (Prod.snd p)) (State.checkTdt s n c) := by
  unfold State.checkTdt
  try dsimp only
  repeat' (first
    | (simp (maxDischargeDepth := 60) +contextual [*]; done)
    | refine State.canonical_forN _ _ (fun i s h => ?_) ?_ <;> try dsimp only
    | refine State.canonical_forL _ _ (fun i s h => ?_) ?_ <;> try dsimp only
    | (split <;> (try (rename_i heq; (first
        | have he := congrArg (fun p => State.canonical (Prod.snd p)) heq
        | have he := congrArg KvR.canonical heq
        | have he := congrArg (exceptCanonical (fun p => State.canonical (Prod.snd p))) heq
        | have he := congrArg (exceptCanonical (fun p => State.canonical (Prod.fst p))) heq
        | have he := congrArg (exceptCanonical (fun _ => True)) heq
        | have he := congrArg (fun p => State.canonical (Prod.fst p)) heq); clear heq; simp (maxDischargeDepth := 60) +contextual [*] at he))))

@[simp] theorem State.canonical_dirTile {s : State} (n : Nat) (c : Cmd) (r : Seq) (hc : s.canonical) : exceptCanonical (fun p => State.canonical (Prod.snd p)) (State.dirTile s n c r) := by
  unfold State.dirTile
  dsimp only
  repeat' (first | (simp (maxDischargeDepth := 60) +contextual [*]; done) | split)

@[simp] theorem State.canonical_childRecord {s : State} (c : Cmd) (r : Seq) (hc : s.canonical) : (State.childRecord s c r).2.canonical := by
  unfold State.childRecord
  try dsimp only
  repeat' (first
    | (simp (maxDischargeDepth := 60) +contextual [*]; done)
    | refine State.canonical_forN _ _ (fun i s h => ?_) ?_ <;> try dsimp only
    | refine State.canonical_forL _ _ (fun i s h => ?_) ?_ <;> try dsimp only
    | (split <;> (try (rename_i heq; (first
        | have he := congrArg (fun p => State.canonical (Prod.snd p)) heq
        | have he := congrArg KvR.canonical heq
        | have he := congrArg (exceptCanonical (fun p => State.canonical (Prod.snd p))) heq
        | have he := congrArg (exceptCanonical (fun p => State.canonical (Prod.fst p))) heq
        | have he := congrArg (exceptCanonical (fun _ => True)) heq
        | have he := congrArg (fun p => State.canonical (Prod.fst p)) heq); clear heq; simp (maxDischargeDepth := 60) +contextual [*] at he))))

@[simp] theorem State.canonical_checkDir {s : State} (n : Nat) (c : Cmd) (hc : s.canonical) : exceptCanonical (fun p => State.canonical (Prod.snd p)) (State.checkDir s n c) := by
  unfold State.checkDir
  try dsimp only
  repeat' (first
    | (simp (maxDischargeDepth := 60) +contextual [*]; done)
    | refine State.canonical_forN _ _ (fun i s h => ?_) ?_ <;> try dsimp only
    | refine State.canonical_forL _ _ (fun i s h => ?_) ?_ <;> try dsimp only
    | (split <;> (try (rename_i heq; (first
        | have he := congrArg (fun p => State.canonical (Prod.snd p)) heq
        | have he := congrArg KvR.canonical heq
        | have he := congrArg (exceptCanonical (fun p => State.canonical (Prod.snd p))) heq
        | have he := congrArg (exceptCanonical (fun p => State.canonical (Prod.fst p))) heq
        | have he := congrArg (exceptCanonical (fun _ => True)) heq
        | have he := congrArg (fun p => State.canonical (Prod.fst p)) heq); clear heq; simp (maxDischargeDepth := 60) +contextual [*] at he))))

@[simp] theorem State.canonical_grantPlace {s : State} (n : Nat) (c : Cmd) (t : Tile) (a : Ask) (hc : s.canonical) : (State.grantPlace s n c t a).canonical := by
  unfold State.grantPlace
  split <;> simp (maxDischargeDepth := 60) +contextual [*]

@[simp] theorem State.canonical_admitPlace {s : State} (n : Nat) (c : Cmd) (t : Tile) (a : Ask) (hc : s.canonical) : (State.admitPlace s n c t a).canonical := by
  unfold State.admitPlace
  dsimp only
  repeat' (first | (simp (maxDischargeDepth := 60) +contextual [*]; done) | split)

@[simp] theorem State.canonical_admitTile {s : State} (n : Nat) (c : Cmd) (t : Tile) (a : Ask) (hc : s.canonical) : (State.admitTile s n c t a).canonical := by
  simp (maxDischargeDepth := 60) +contextual [State.admitTile, *]

@[simp] theorem State.canonical_waitOrAdmit {s : State} (n : Nat) (c : Cmd) (t : Tile) (hc : s.canonical) : (State.waitOrAdmit s n c t).canonical := by
  simp (maxDischargeDepth := 60) +contextual [State.waitOrAdmit, *]

@[simp] theorem State.canonical_checkTile {s : State} (n : Nat) (c : Cmd) (hc : s.canonical) : exceptCanonical (fun p => State.canonical (Prod.snd p)) (State.checkTile s n c) := by
  unfold State.checkTile
  split <;> simp (maxDischargeDepth := 60) +contextual [*]

@[simp] theorem State.canonical_walkGive {s : State} (n : Nat) (r : Combined) (a : Access) (hc : s.canonical) : (State.walkGive s n r a).canonical := by
  unfold State.walkGive
  repeat' (first | (simp (maxDischargeDepth := 60) +contextual [*]; done) | split)

@[simp] theorem State.canonical_storeLine {s : State} (t : Txn) (data : Line) (ok : Bool) (poison : Bool) (hc : s.canonical) : (State.storeLine s t data ok poison).canonical := by
  simp (maxDischargeDepth := 60) +contextual [State.storeLine, *]

@[simp] theorem State.canonical_dirEnds {s : State} (c : Cmd) (st : Nat) (hc : s.canonical) : (State.dirEnds s c st).canonical := by
  simp (maxDischargeDepth := 60) +contextual [State.dirEnds, *]

@[simp] theorem State.canonical_dirTiles {s : State} (c : Cmd) (n : Nat) (hc : s.canonical) : (State.dirTiles s c n).canonical := by
  simp (maxDischargeDepth := 60) +contextual [State.dirTiles, *]

@[simp] theorem State.canonical_withRecord {s : State} (c : Cmd) (o : Nat) {act : State → Seq → State} (ha : ∀ s r, s.canonical → (act s r).canonical)
    (hc : s.canonical) : (s.withRecord c o act).canonical := by
  have h := State.canonical_tileRead c.ctx (c.record o) 64 hc
  unfold State.withRecord
  split <;> (rename_i heq; rw [heq] at h; simp (maxDischargeDepth := 60) +contextual [*])

@[simp] theorem State.canonical_dirPlanned {s : State} (c : Cmd) (st : Nat) (r : Seq) (hc : s.canonical) : (State.dirPlanned s c st r).canonical := by
  simp (maxDischargeDepth := 60) +contextual [State.dirPlanned, *]

@[simp] theorem State.canonical_reclaimAll {s : State} (ctx : Nat) (z2 : List Nat) (hc : s.canonical) : KvR.canonical (State.reclaimAll s ctx z2) := by
  induction z2 generalizing s 
  all_goals
    unfold State.reclaimAll
    try dsimp only
    repeat' (first
      | (simp (maxDischargeDepth := 60) +contextual [*]; done)
      | refine State.canonical_forN _ _ (fun i s h => ?_) ?_ <;> try dsimp only
      | refine State.canonical_forL _ _ (fun i s h => ?_) ?_ <;> try dsimp only
      | (split <;> (try (rename_i heq; (first
          | have he := congrArg (fun p => State.canonical (Prod.snd p)) heq
          | have he := congrArg KvR.canonical heq
          | have he := congrArg (exceptCanonical (fun p => State.canonical (Prod.snd p))) heq
          | have he := congrArg (exceptCanonical (fun p => State.canonical (Prod.fst p))) heq
          | have he := congrArg (exceptCanonical (fun _ => True)) heq
          | have he := congrArg (fun p => State.canonical (Prod.fst p)) heq); clear heq; simp (maxDischargeDepth := 60) +contextual [*] at he))))

@[simp] theorem State.canonical_hintProbe {s : State} (c : Cmd) (seg : Nat) (z3 : List Nat) (hc : s.canonical) : (State.hintProbe s c seg z3).1.canonical := by
  induction z3 generalizing s 
  all_goals
    unfold State.hintProbe
    try dsimp only
    repeat' (first
      | (simp (maxDischargeDepth := 60) +contextual [*]; done)
      | refine State.canonical_forN _ _ (fun i s h => ?_) ?_ <;> try dsimp only
      | refine State.canonical_forL _ _ (fun i s h => ?_) ?_ <;> try dsimp only
      | (split <;> (try (rename_i heq; (first
          | have he := congrArg (fun p => State.canonical (Prod.snd p)) heq
          | have he := congrArg KvR.canonical heq
          | have he := congrArg (exceptCanonical (fun p => State.canonical (Prod.snd p))) heq
          | have he := congrArg (exceptCanonical (fun p => State.canonical (Prod.fst p))) heq
          | have he := congrArg (exceptCanonical (fun _ => True)) heq
          | have he := congrArg (fun p => State.canonical (Prod.fst p)) heq); clear heq; simp (maxDischargeDepth := 60) +contextual [*] at he))))

@[simp] theorem State.canonical_sealFlit {s : State} (p : Nat) (h : Hdr) (pay : List Byte) (lseq : Nat) (crq : Nat) (crn : Nat) (hc : s.canonical) : (State.sealFlit s p h pay lseq crq crn).2.canonical := by
  simp (maxDischargeDepth := 60) +contextual [State.sealFlit, *]

@[simp] theorem State.canonical_showLink {s : State} (p : Nat) (hc : s.canonical) : (State.showLink s p).canonical := by
  simp (maxDischargeDepth := 60) +contextual [State.showLink, *]

@[simp] theorem State.canonical_oweCredit {s : State} (p : Nat) (q : Nat) (hc : s.canonical) : (State.oweCredit s p q).canonical := by
  simp (maxDischargeDepth := 60) +contextual [State.oweCredit, *]

@[simp] theorem State.canonical_oweFor {s : State} (p : Nat) (h : Hdr) (hc : s.canonical) : (State.oweFor s p h).canonical := by
  simp (maxDischargeDepth := 60) +contextual [State.oweFor, *]

@[simp] theorem State.canonical_returnPlace {s : State} (z1 : Option (Nat × Nat)) (hc : s.canonical) : (State.returnPlace s z1).canonical := by
  unfold State.returnPlace
  split <;> simp (maxDischargeDepth := 60) +contextual [*]

@[simp] theorem State.canonical_transmit {s : State} (p : Nat) (w : Waiting) (hc : s.canonical) : (State.transmit s p w).canonical := by
  simp (maxDischargeDepth := 60) +contextual [State.transmit, *]

@[simp] theorem State.canonical_flushGo {s : State} (p : Nat) (z2 : List Waiting) (z3 : List Nat) (hc : s.canonical) : (State.flushGo s p z2 z3).1.canonical := by
  induction z2 generalizing s z3
  all_goals
    unfold State.flushGo
    try dsimp only
    repeat' (first
      | (simp (maxDischargeDepth := 60) +contextual [*]; done)
      | refine State.canonical_forN _ _ (fun i s h => ?_) ?_ <;> try dsimp only
      | refine State.canonical_forL _ _ (fun i s h => ?_) ?_ <;> try dsimp only
      | (split <;> (try (rename_i heq; (first
          | have he := congrArg (fun p => State.canonical (Prod.snd p)) heq
          | have he := congrArg KvR.canonical heq
          | have he := congrArg (exceptCanonical (fun p => State.canonical (Prod.snd p))) heq
          | have he := congrArg (exceptCanonical (fun p => State.canonical (Prod.fst p))) heq
          | have he := congrArg (exceptCanonical (fun _ => True)) heq
          | have he := congrArg (fun p => State.canonical (Prod.fst p)) heq); clear heq; simp (maxDischargeDepth := 60) +contextual [*] at he))))

@[simp] theorem State.canonical_flush {s : State} (p : Nat) (hc : s.canonical) : (State.flush s p).canonical := by
  simp (maxDischargeDepth := 60) +contextual [State.flush, *]

@[simp] theorem State.canonical_linkSend {s : State} (p : Nat) (w : Waiting) (hc : s.canonical) : (State.linkSend s p w).canonical := by
  simp (maxDischargeDepth := 60) +contextual [State.linkSend, *]

@[simp] theorem State.canonical_sendNak {s : State} (p : Nat) (hc : s.canonical) : (State.sendNak s p).canonical := by
  simp (maxDischargeDepth := 60) +contextual [State.sendNak, *]

@[simp] theorem State.canonical_releaseHeld {s : State} (l : List Held) (hc : s.canonical) : (State.releaseHeld s l).canonical := by
  simp (maxDischargeDepth := 60) +contextual [State.releaseHeld, *]

@[simp] theorem State.canonical_discardWaiting {s : State} (p : Nat) (count : Bool) (w : Waiting) (hc : s.canonical) : (State.discardWaiting s p count w).canonical := by
  simp (maxDischargeDepth := 60) +contextual [State.discardWaiting, *]

@[simp] theorem State.canonical_dropVia {s : State} (p : Nat) (o : Nat) (count : Bool) (hc : s.canonical) : (State.dropVia s p o count).canonical := by
  simp (maxDischargeDepth := 60) +contextual [State.dropVia, *]

@[simp] theorem State.canonical_dropLink {s : State} (p : Nat) (count : Bool) (hc : s.canonical) : (State.dropLink s p count).canonical := by
  simp (maxDischargeDepth := 60) +contextual [State.dropLink, *]

@[simp] theorem State.canonical_linkFail {s : State} (p : Nat) (hc : s.canonical) : (State.linkFail s p).canonical := by
  simp (maxDischargeDepth := 60) +contextual [State.linkFail, *]

@[simp] theorem State.canonical_resend {s : State} (p : Nat) (hc : s.canonical) : (State.resend s p).canonical := by
  simp (maxDischargeDepth := 60) +contextual [State.resend, *]

@[simp] theorem State.canonical_takeAck {s : State} (p : Nat) (f : Flit) (hc : s.canonical) : (State.takeAck s p f).canonical := by
  simp (maxDischargeDepth := 60) +contextual [State.takeAck, *]

@[simp] theorem State.canonical_accepted {s : State} (p : Nat) (f : Flit) (hc : s.canonical) : (State.accepted s p f).canonical := by
  simp (maxDischargeDepth := 60) +contextual [State.accepted, *]

@[simp] theorem State.canonical_dropFlit {s : State} (p : Nat) (h : Hdr) (hc : s.canonical) : (State.dropFlit s p h).canonical := by
  simp (maxDischargeDepth := 60) +contextual [State.dropFlit, *]

@[simp] theorem State.canonical_sendTo {s : State} (h : Hdr) (pay : List Byte) (hc : s.canonical) : (State.sendTo s h pay).canonical := by
  simp (maxDischargeDepth := 60) +contextual [State.sendTo, *]

@[simp] theorem State.canonical_forward {s : State} (inPort : Nat) (h : Hdr) (pay : List Byte) (hc : s.canonical) : (State.forward s inPort h pay).canonical := by
  simp (maxDischargeDepth := 60) +contextual [State.forward, *]

@[simp] theorem State.canonical_deliver {s : State} (p : Nat) (h : Hdr) (pay : List Byte) (act : Local) (ha : ∀ a b c s, s.canonical → (act a b c s).canonical) (hc : s.canonical) : (State.deliver s p h pay act).canonical := by
  simp (maxDischargeDepth := 60) +contextual [State.deliver, *]

@[simp] theorem State.canonical_unseqOpened {s : State} (p : Nat) (f : Flit) (nak : Bool) (z4 : Option (List Byte)) (hc : s.canonical) : (State.unseqOpened s p f nak z4).canonical := by
  unfold State.unseqOpened
  split <;> simp (maxDischargeDepth := 60) +contextual [*]

@[simp] theorem State.canonical_arriveUnseq {s : State} (p : Nat) (nonce : List Nat) (f : Flit) (nak : Bool) (hc : s.canonical) : (State.arriveUnseq s p nonce f nak).canonical := by
  simp (maxDischargeDepth := 60) +contextual [State.arriveUnseq, *]

@[simp] theorem State.canonical_seqOpened {s : State} (p : Nat) (f : Flit) (act : Local) (ha : ∀ a b c s, s.canonical → (act a b c s).canonical) (z5 : Option (List Byte)) (hc : s.canonical) : (State.seqOpened s p f act z5).canonical := by
  unfold State.seqOpened
  split <;> simp (maxDischargeDepth := 60) +contextual [*]

@[simp] theorem State.canonical_arriveSeq {s : State} (p : Nat) (nonce : List Nat) (f : Flit) (act : Local) (ha : ∀ a b c s, s.canonical → (act a b c s).canonical) (hc : s.canonical) : (State.arriveSeq s p nonce f act).canonical := by
  simp (maxDischargeDepth := 60) +contextual [State.arriveSeq, *]

@[simp] theorem State.canonical_arrive {s : State} (p : Nat) (nonce : List Nat) (f : Flit) (act : Local) (ha : ∀ a b c s, s.canonical → (act a b c s).canonical) (hc : s.canonical) : (State.arrive s p nonce f act).canonical := by
  simp (maxDischargeDepth := 60) +contextual [State.arrive, *]

@[simp] theorem State.canonical_sendOn {s : State} (p : Nat) (typ : Nat) (body : List Byte) (hc : s.canonical) : (State.sendOn s p typ body).canonical := by
  simp (maxDischargeDepth := 60) +contextual [State.sendOn, *]

@[simp] theorem State.canonical_tryReply {s : State} (hc : s.canonical) : (State.tryReply s).canonical := by
  unfold State.tryReply
  split <;> simp (maxDischargeDepth := 60) +contextual [*]

@[simp] theorem State.canonical_discover {s : State} (p : Nat) (pay : List Byte) (hc : s.canonical) : (State.discover s p pay).canonical := by
  simp (maxDischargeDepth := 60) +contextual [State.discover, *]

@[simp] theorem State.canonical_takeRoute {s : State} (body : List Byte) (hc : s.canonical) : (State.takeRoute s body).canonical := by
  simp (maxDischargeDepth := 60) +contextual [State.takeRoute, *]

@[simp] theorem State.canonical_routeArrive {s : State} (h : Hdr) (body : List Byte) (hc : s.canonical) : (State.routeArrive s h body).canonical := by
  simp (maxDischargeDepth := 60) +contextual [State.routeArrive, *]

@[simp] theorem State.canonical_tryReady {s : State} (hc : s.canonical) : (State.tryReady s).canonical := by
  simp (maxDischargeDepth := 60) +contextual [State.tryReady, *]

@[simp] theorem State.canonical_assignRoutes {s : State} (hc : s.canonical) : (State.assignRoutes s).canonical := by
  simp (maxDischargeDepth := 60) +contextual [State.assignRoutes, *]

@[simp] theorem State.canonical_sendDiscover {s : State} (r : List Nat) (hc : s.canonical) : (State.sendDiscover s r).canonical := by
  unfold State.sendDiscover
  split <;> simp (maxDischargeDepth := 60) +contextual [*]

@[simp] theorem State.canonical_discStep {s : State} (hc : s.canonical) : (State.discStep s).canonical := by
  simp (maxDischargeDepth := 60) +contextual [State.discStep, *]

@[simp] theorem State.canonical_discStart {s : State} (hc : s.canonical) : (State.discStart s).canonical := by
  simp (maxDischargeDepth := 60) +contextual [State.discStart, *]

@[simp] theorem State.canonical_reply {s : State} (p : Nat) (pay : List Byte) (hc : s.canonical) : (State.reply s p pay).canonical := by
  unfold State.reply
  dsimp only
  repeat' (first | (simp (maxDischargeDepth := 60) +contextual [*]; done) | split)

@[simp] theorem State.canonical_routeAck {s : State} (h : Hdr) (hc : s.canonical) : (State.routeAck s h).canonical := by
  simp (maxDischargeDepth := 60) +contextual [State.routeAck, *]

@[simp] theorem State.canonical_rejoin {s : State} (m : Nat) (hc : s.canonical) : (State.rejoin s m).canonical := by
  unfold State.rejoin
  dsimp only
  repeat' (first | (simp (maxDischargeDepth := 60) +contextual [*]; done) | split)

@[simp] theorem State.canonical_portMoved {s : State} (hc : s.canonical) : (State.portMoved s).canonical := by
  simp (maxDischargeDepth := 60) +contextual [State.portMoved, *]

@[simp] theorem State.canonical_lkDown {s : State} (p : Nat) (hc : s.canonical) : (State.lkDown s p).canonical := by
  simp (maxDischargeDepth := 60) +contextual [State.lkDown, *]

@[simp] theorem State.canonical_lkUp {s : State} (p : Nat) (hc : s.canonical) : (State.lkUp s p).canonical := by
  simp (maxDischargeDepth := 60) +contextual [State.lkUp, *]

@[simp] theorem State.canonical_fwdDb {s : State} (v : Nat) (hc : s.canonical) : (State.fwdDb s v).canonical := by
  simp (maxDischargeDepth := 60) +contextual [State.fwdDb, *]

@[simp] theorem State.canonical_rraDone {s : State} (status : Nat) (data : Nat) (hc : s.canonical) : (State.rraDone s status data).canonical := by
  simp (maxDischargeDepth := 60) +contextual [State.rraDone, *]

@[simp] theorem State.canonical_rraSend {s : State} (hc : s.canonical) : (State.rraSend s).canonical := by
  simp (maxDischargeDepth := 60) +contextual [State.rraSend, *]

@[simp] theorem State.canonical_rraAnswer {s : State} (m : Nat) (tag : Nat) (data : Nat) (hc : s.canonical) : (State.rraAnswer s m tag data).canonical := by
  simp (maxDischargeDepth := 60) +contextual [State.rraAnswer, *]

@[simp] theorem State.canonical_setGroup {s : State} (g : Group) (hc : s.canonical) : (State.setGroup s g).canonical := by
  simp (maxDischargeDepth := 60) +contextual [State.setGroup, *]

@[simp] theorem State.canonical_setColl {s : State} (k : Coll) (hc : s.canonical) : (State.setColl s k).canonical := by
  simp (maxDischargeDepth := 60) +contextual [State.setColl, *]

@[simp] theorem State.canonical_collWrite {s : State} (c : Cmd) (n : Nat) (off : Nat) (bs : List Byte) (hc : s.canonical) : (State.collWrite s c n off bs).2.canonical := by
  simp (maxDischargeDepth := 60) +contextual [State.collWrite, *]

@[simp] theorem State.canonical_collNext {s : State} (c : Cmd) (g : Group) (k : Coll) (hc : s.canonical) : (State.collNext s c g k).2.canonical := by
  unfold State.collNext
  dsimp only
  repeat' (first | (simp (maxDischargeDepth := 60) +contextual [*]; done) | split)

@[simp] theorem State.canonical_collLost {s : State} (k : Coll) (c : Cmd) (n : Nat) (status : Nat) (hc : s.canonical) : (State.collLost s k c n status).canonical := by
  unfold State.collLost
  try dsimp only
  repeat' (first
    | (simp (maxDischargeDepth := 60) +contextual [*]; done)
    | refine State.canonical_forN _ _ (fun i s h => ?_) ?_ <;> try dsimp only
    | refine State.canonical_forL _ _ (fun i s h => ?_) ?_ <;> try dsimp only
    | split)

@[simp] theorem State.canonical_collEnd {s : State} (c : Cmd) (g : Group) (k : Coll) (hc : s.canonical) : (State.collEnd s c g k).canonical := by
  simp (maxDischargeDepth := 60) +contextual [State.collEnd, *]

@[simp] theorem State.canonical_collPump {s : State} (qn : Nat) (slot : Nat) (z3 : Nat) (hc : s.canonical) : (State.collPump s qn slot z3).canonical := by
  induction z3 generalizing s 
  all_goals
    unfold State.collPump
    try dsimp only
    repeat' (first
      | (simp (maxDischargeDepth := 60) +contextual [*]; done)
      | refine State.canonical_forN _ _ (fun i s h => ?_) ?_ <;> try dsimp only
      | refine State.canonical_forL _ _ (fun i s h => ?_) ?_ <;> try dsimp only
      | (split <;> (try (rename_i heq; (first
          | have he := congrArg (fun p => State.canonical (Prod.snd p)) heq
          | have he := congrArg KvR.canonical heq
          | have he := congrArg (exceptCanonical (fun p => State.canonical (Prod.snd p))) heq
          | have he := congrArg (exceptCanonical (fun p => State.canonical (Prod.fst p))) heq
          | have he := congrArg (exceptCanonical (fun _ => True)) heq
          | have he := congrArg (fun p => State.canonical (Prod.fst p)) heq); clear heq; simp (maxDischargeDepth := 60) +contextual [*] at he))))

@[simp] theorem State.canonical_collPumpAll {s : State} (hc : s.canonical) : (State.collPumpAll s).canonical := by
  simp (maxDischargeDepth := 60) +contextual [State.collPumpAll, *]

@[simp] theorem State.canonical_collTake {s : State} (k : Coll) (c : Cmd) (g : Group) (b : List Byte) (hc : s.canonical) : (State.collTake s k c g b).canonical := by
  unfold State.collTake
  try dsimp only
  repeat' (first
    | (simp (maxDischargeDepth := 60) +contextual [*]; done)
    | refine State.canonical_forN _ _ (fun i s h => ?_) ?_ <;> try dsimp only
    | refine State.canonical_forL _ _ (fun i s h => ?_) ?_ <;> try dsimp only
    | (split <;> (try (rename_i heq; (first
        | have he := congrArg (fun p => State.canonical (Prod.snd p)) heq
        | have he := congrArg KvR.canonical heq
        | have he := congrArg (exceptCanonical (fun p => State.canonical (Prod.snd p))) heq
        | have he := congrArg (exceptCanonical (fun p => State.canonical (Prod.fst p))) heq
        | have he := congrArg (exceptCanonical (fun _ => True)) heq
        | have he := congrArg (fun p => State.canonical (Prod.fst p)) heq); clear heq; simp (maxDischargeDepth := 60) +contextual [*] at he))))

@[simp] theorem State.canonical_collFlit {s : State} (p : Nat) (h : Hdr) (pay : List Byte) (hc : s.canonical) : (State.collFlit s p h pay).canonical := by
  unfold State.collFlit
  repeat' (first | (simp (maxDischargeDepth := 60) +contextual [*]; done) | split)

@[simp] theorem State.canonical_collCopy {s : State} (c : Cmd) (n : Nat) (dstOff : Nat) (z4 : Nat) (z5 : Nat) (hc : s.canonical) : (State.collCopy s c n dstOff z4 z5).2.canonical := by
  induction z4 generalizing s z5
  all_goals
    unfold State.collCopy
    try dsimp only
    repeat' (first
      | (simp (maxDischargeDepth := 60) +contextual [*]; done)
      | refine State.canonical_forN _ _ (fun i s h => ?_) ?_ <;> try dsimp only
      | refine State.canonical_forL _ _ (fun i s h => ?_) ?_ <;> try dsimp only
      | (split <;> (try (rename_i heq; (first
          | have he := congrArg (fun p => State.canonical (Prod.snd p)) heq
          | have he := congrArg KvR.canonical heq
          | have he := congrArg (exceptCanonical (fun p => State.canonical (Prod.snd p))) heq
          | have he := congrArg (exceptCanonical (fun p => State.canonical (Prod.fst p))) heq
          | have he := congrArg (exceptCanonical (fun _ => True)) heq
          | have he := congrArg (fun p => State.canonical (Prod.fst p)) heq); clear heq; simp (maxDischargeDepth := 60) +contextual [*] at he))))

@[simp] theorem State.canonical_collBegin {s : State} (c : Cmd) (g : Group) (hc : s.canonical) : (State.collBegin s c g).canonical := by
  simp (maxDischargeDepth := 60) +contextual [State.collBegin, *]

@[simp] theorem State.canonical_collCmd {s : State} (c : Cmd) (hc : s.canonical) : (State.collCmd s c).canonical := by
  unfold State.collCmd
  split <;> simp (maxDischargeDepth := 60) +contextual [*]

@[simp] theorem State.canonical_askEngineReset {s : State} (n : Nat) (mask : Nat) (hc : s.canonical) : (State.askEngineReset s n mask).canonical := by
  unfold State.askEngineReset
  dsimp only
  repeat' (first | (simp (maxDischargeDepth := 60) +contextual [*]; done) | split)

@[simp] theorem State.canonical_dogExpire {s : State} (n : Nat) (e : Nat) (hc : s.canonical) : (State.dogExpire s n e).canonical := by
  simp (maxDischargeDepth := 60) +contextual [State.dogExpire, *]

@[simp] theorem State.canonical_engineClear {s : State} (n : Nat) (mask : Nat) (hc : s.canonical) : (State.engineClear s n mask).canonical := by
  simp (maxDischargeDepth := 60) +contextual [State.engineClear, *]

@[simp] theorem State.canonical_clearReqs {s : State} (n : Nat) (hc : s.canonical) : (State.clearReqs s n).canonical := by
  simp (maxDischargeDepth := 60) +contextual [State.clearReqs, *]

@[simp] theorem State.canonical_stopInlets {s : State} (c : Nat) (hc : s.canonical) : (State.stopInlets s c).canonical := by
  simp (maxDischargeDepth := 60) +contextual [State.stopInlets, *]

@[simp] theorem State.canonical_coreStops {s : State} (n : Nat) (hc : s.canonical) : (State.coreStops s n).canonical := by
  unfold State.coreStops
  split <;> simp (maxDischargeDepth := 60) +contextual [*]

@[simp] theorem State.canonical_coreReset {s : State} (n : Nat) (hc : s.canonical) : (State.coreReset s n).canonical := by
  unfold State.coreReset
  dsimp only
  repeat' (first | (simp (maxDischargeDepth := 60) +contextual [*]; done) | split)

@[simp] theorem State.canonical_clusterRegs {s : State} (c : Nat) (hc : s.canonical) : (State.clusterRegs s c).canonical := by
  simp (maxDischargeDepth := 60) +contextual [State.clusterRegs, *]

@[simp] theorem State.canonical_csbWipe {s : State} (c : Nat) (hc : s.canonical) : (State.csbWipe s c).canonical := by
  simp (maxDischargeDepth := 60) +contextual [State.csbWipe, *]

@[simp] theorem State.canonical_droverCrash {s : State} (n : Nat) (cause : Nat) (hc : s.canonical) : (State.droverCrash s n cause).canonical := by
  simp (maxDischargeDepth := 60) +contextual [State.droverCrash, *]

@[simp] theorem State.canonical_cbsMark {s : State} (n : Nat) (h : Nat) (l : Nat) (hc : s.canonical) : (State.cbsMark s n h l).canonical := by
  simp (maxDischargeDepth := 60) +contextual [State.cbsMark, *]

@[simp] theorem State.canonical_cbsScrub {s : State} (n : Nat) (h : Nat) (l : Nat) (hc : s.canonical) : (State.cbsScrub s n h l).canonical := by
  simp (maxDischargeDepth := 60) +contextual [State.cbsScrub, *]

@[simp] theorem State.canonical_restart {s : State} (q : Nat) (discard : Bool) (hc : s.canonical) : (State.restart s q discard).canonical := by
  simp (maxDischargeDepth := 60) +contextual [State.restart, *]

@[simp] theorem State.canonical_authFail {s : State} (q : Nat) (status : Nat) (t : Nat) (hc : s.canonical) : (State.authFail s q status t).canonical := by
  simp (maxDischargeDepth := 60) +contextual [State.authFail, *]

@[simp] theorem State.canonical_fetchChecks {s : State} (q : Nat) (p : Nat) (bs : List Byte) (hc : s.canonical) : (State.fetchChecks s q p bs).2.canonical := by
  unfold State.fetchChecks
  split <;> simp (maxDischargeDepth := 60) +contextual [*]

@[simp] theorem State.canonical_takeCmd {s : State} (q : Nat) (p : Nat) (bs : List Byte) (hc : s.canonical) : (State.takeCmd s q p bs).canonical := by
  simp (maxDischargeDepth := 60) +contextual [State.takeCmd, *]

@[simp] theorem State.canonical_gotSecond {s : State} (q : Nat) (p : Nat) (b0 : List Byte) (b1 : List Byte) (hc : s.canonical) : (State.gotSecond s q p b0 b1).canonical := by
  simp (maxDischargeDepth := 60) +contextual [State.gotSecond, *]

@[simp] theorem State.canonical_gotFirst {s : State} (q : Nat) (p : Nat) (b0 : List Byte) (hc : s.canonical) : (State.gotFirst s q p b0).canonical := by
  unfold State.gotFirst
  try dsimp only
  repeat' (first
    | (simp (maxDischargeDepth := 60) +contextual [*]; done)
    | refine State.canonical_forN _ _ (fun i s h => ?_) ?_ <;> try dsimp only
    | refine State.canonical_forL _ _ (fun i s h => ?_) ?_ <;> try dsimp only
    | (split <;> (try (rename_i heq; (first
        | have he := congrArg (fun p => State.canonical (Prod.snd p)) heq
        | have he := congrArg KvR.canonical heq
        | have he := congrArg (exceptCanonical (fun p => State.canonical (Prod.snd p))) heq
        | have he := congrArg (exceptCanonical (fun p => State.canonical (Prod.fst p))) heq
        | have he := congrArg (exceptCanonical (fun _ => True)) heq
        | have he := congrArg (fun p => State.canonical (Prod.fst p)) heq); clear heq; simp (maxDischargeDepth := 60) +contextual [*] at he))))

@[simp] theorem State.canonical_fetchAt {s : State} (q : Nat) (p : Nat) (hc : s.canonical) : (State.fetchAt s q p).canonical := by
  unfold State.fetchAt
  try dsimp only
  repeat' (first
    | (simp (maxDischargeDepth := 60) +contextual [*]; done)
    | refine State.canonical_forN _ _ (fun i s h => ?_) ?_ <;> try dsimp only
    | refine State.canonical_forL _ _ (fun i s h => ?_) ?_ <;> try dsimp only
    | (split <;> (try (rename_i heq; (first
        | have he := congrArg (fun p => State.canonical (Prod.snd p)) heq
        | have he := congrArg KvR.canonical heq
        | have he := congrArg (exceptCanonical (fun p => State.canonical (Prod.snd p))) heq
        | have he := congrArg (exceptCanonical (fun p => State.canonical (Prod.fst p))) heq
        | have he := congrArg (exceptCanonical (fun _ => True)) heq
        | have he := congrArg (fun p => State.canonical (Prod.fst p)) heq); clear heq; simp (maxDischargeDepth := 60) +contextual [*] at he))))

@[simp] theorem State.canonical_startCheck {s : State} (c : Cmd) (on : Bool) (o : Nat) (right : Nat) (hc : s.canonical) : (State.startCheck s c on o right).2.canonical := by
  simp (maxDischargeDepth := 60) +contextual [State.startCheck, *]

@[simp] theorem State.canonical_startChecks {s : State} (c : Cmd) (hc : s.canonical) : (State.startChecks s c).2.canonical := by
  unfold State.startChecks
  try dsimp only
  repeat' (first
    | (simp (maxDischargeDepth := 60) +contextual [*]; done)
    | refine State.canonical_forN _ _ (fun i s h => ?_) ?_ <;> try dsimp only
    | refine State.canonical_forL _ _ (fun i s h => ?_) ?_ <;> try dsimp only
    | (split <;> (try (rename_i heq; (first
        | have he := congrArg (fun p => State.canonical (Prod.snd p)) heq
        | have he := congrArg KvR.canonical heq
        | have he := congrArg (exceptCanonical (fun p => State.canonical (Prod.snd p))) heq
        | have he := congrArg (exceptCanonical (fun p => State.canonical (Prod.fst p))) heq
        | have he := congrArg (exceptCanonical (fun _ => True)) heq
        | have he := congrArg (fun p => State.canonical (Prod.fst p)) heq); clear heq; simp (maxDischargeDepth := 60) +contextual [*] at he))))

@[simp] theorem State.canonical_wrote {s : State} (cl : Client) (hc : s.canonical) : (State.wrote s cl).canonical := by
  unfold State.wrote
  split <;> simp (maxDischargeDepth := 60) +contextual [*]

@[simp] theorem State.canonical_busRead {s : State} (code : Nat) (off : Nat) (wide : Bool) (hc : s.canonical) : (State.busRead s code off wide).2.2.canonical := by
  unfold State.busRead
  dsimp only
  repeat' (first | (simp (maxDischargeDepth := 60) +contextual [*]; done) | split)

@[simp] theorem State.canonical_putFields {s : State} (r : RegAt) (v : Nat) (hc : s.canonical) : (State.putFields s r v).canonical := by
  simp (maxDischargeDepth := 60) +contextual [State.putFields, *]

@[simp] theorem State.canonical_evWrite {s : State} (r : RegAt) (v : Nat) (hc : s.canonical) : (State.evWrite s r v).canonical := by
  simp (maxDischargeDepth := 60) +contextual [State.evWrite, *]

@[simp] theorem State.canonical_quiesceWrite {s : State} (l : Loc) (v : Bool) (hc : s.canonical) : (State.quiesceWrite s l v).canonical := by
  simp (maxDischargeDepth := 60) +contextual [State.quiesceWrite, *]

@[simp] theorem State.canonical_resetWrite {s : State} (l : Loc) (hc : s.canonical) : (State.resetWrite s l).canonical := by
  unfold State.resetWrite
  dsimp only
  repeat' (first | (simp (maxDischargeDepth := 60) +contextual [*]; done) | split)

@[simp] theorem State.canonical_pgCtrlWrite {s : State} (r : RegAt) (v : Nat) (hc : s.canonical) : (State.pgCtrlWrite s r v).canonical := by
  simp (maxDischargeDepth := 60) +contextual [State.pgCtrlWrite, *]

@[simp] theorem State.canonical_clampF {s : State} (f : Fld) (bad : Nat → Bool) (v : Nat) (hc : s.canonical) : (State.clampF s f bad v).canonical := by
  simp (maxDischargeDepth := 60) +contextual [State.clampF, *]

@[simp] theorem State.canonical_setCsbInlet {s : State} (c : Nat) (n : Nat) (hc : s.canonical) : (State.setCsbInlet s c n).canonical := by
  simp (maxDischargeDepth := 60) +contextual [State.setCsbInlet, *]

@[simp] theorem State.canonical_csbInletField {s : State} (v : Nat) (c : Nat) (hc : s.canonical) : (State.csbInletField s v c).canonical := by
  simp (maxDischargeDepth := 60) +contextual [State.csbInletField, *]

@[simp] theorem State.canonical_csbInletWrite {s : State} (v : Nat) (hc : s.canonical) : (State.csbInletWrite s v).canonical := by
  simp (maxDischargeDepth := 60) +contextual [State.csbInletWrite, *]

@[simp] theorem State.canonical_fltCfgWrite {s : State} (v : Nat) (hc : s.canonical) : (State.fltCfgWrite s v).canonical := by
  simp (maxDischargeDepth := 60) +contextual [State.fltCfgWrite, *]

@[simp] theorem State.canonical_fltHeadWrite {s : State} (v : Nat) (hc : s.canonical) : (State.fltHeadWrite s v).canonical := by
  simp (maxDischargeDepth := 60) +contextual [State.fltHeadWrite, *]

@[simp] theorem State.canonical_siCtrlWrite {s : State} (n : Nat) (v : Nat) (hc : s.canonical) : (State.siCtrlWrite s n v).canonical := by
  simp (maxDischargeDepth := 60) +contextual [State.siCtrlWrite, *]

@[simp] theorem State.canonical_lkCtrlWrite {s : State} (p : Nat) (en : Bool) (hc : s.canonical) : (State.lkCtrlWrite s p en).canonical := by
  simp (maxDischargeDepth := 60) +contextual [State.lkCtrlWrite, *]

@[simp] theorem State.canonical_blockEffect {t : State} (r : RegAt) (v : Nat) (hc : t.canonical) : (State.blockEffect t r v).canonical := by
  unfold State.blockEffect
  dsimp only
  repeat' (first | (simp (maxDischargeDepth := 60) +contextual [*]; done) | split)

@[simp] theorem State.canonical_rampWrite {s : State} (n : Nat) (v : Nat) (hc : s.canonical) : (State.rampWrite s n v).canonical := by
  simp (maxDischargeDepth := 60) +contextual [State.rampWrite, *]

@[simp] theorem State.canonical_ateCtrlWrite {s : State} (n : Nat) (v : Nat) (hc : s.canonical) : (State.ateCtrlWrite s n v).canonical := by
  simp (maxDischargeDepth := 60) +contextual [State.ateCtrlWrite, *]

theorem State.canonical_lockedWrite {s : State} (r : RegAt) (v : Nat) (hc : s.canonical) {t : State} (h : s.lockedWrite r v = some t) : t.canonical := by
  unfold State.lockedWrite at h
  dsimp only at h
  split at h <;> first
    | (cases h; simp (maxDischargeDepth := 60) +contextual [*])
    | cases h

@[simp] theorem State.canonical_commit {s : State} (r : RegAt) (v : Nat) (hc : s.canonical) : (s.commit r v).canonical := by
  unfold State.commit
  dsimp only
  have hl : ∀ t, s.lockedWrite r v = some t → t.canonical := fun t h => State.canonical_lockedWrite r v hc h
  repeat' (first
    | (simp (maxDischargeDepth := 60) +contextual [*]; done)
    | exact hl _ (by assumption)
    | split)

@[simp] theorem State.canonical_latchAfter {s : State} (key : Nat) (r : RegAt) (hc : s.canonical) : (State.latchAfter s key r).canonical := by
  simp (maxDischargeDepth := 60) +contextual [State.latchAfter, *]

@[simp] theorem State.canonical_emuWrite {s : State} (code : Nat) (n : Nat) (off : Nat) (v : Nat) (hc : s.canonical) : (State.emuWrite s code n off v).canonical := by
  simp (maxDischargeDepth := 60) +contextual [State.emuWrite, *]

@[simp] theorem State.canonical_busWrite {s : State} (code : Nat) (off : Nat) (wide : Bool) (v : Nat) (hc : s.canonical) : (State.busWrite s code off wide v).1.canonical := by
  unfold State.busWrite
  dsimp only
  repeat' (first | (simp (maxDischargeDepth := 60) +contextual [*]; done) | split)

@[simp] theorem State.canonical_emuAsk {s : State} (code : Nat) (off : Nat) (wide : Bool) (hc : s.canonical) : (State.emuAsk s code off wide).canonical := by
  simp (maxDischargeDepth := 60) +contextual [State.emuAsk, *]

@[simp] theorem State.canonical_remoteAccess {s : State} (code : Nat) (off : Nat) (write : Bool) (wide : Bool) (data : Nat) (hc : s.canonical) : (State.remoteAccess s code off write wide data).2.canonical := by
  unfold State.remoteAccess
  dsimp only
  repeat' (first | (simp (maxDischargeDepth := 60) +contextual [*]; done) | split)

@[simp] theorem State.canonical_rraGo {s : State} (hc : s.canonical) : (State.rraGo s).canonical := by
  unfold State.rraGo
  try dsimp only
  repeat' (first
    | (simp (maxDischargeDepth := 60) +contextual [*]; done)
    | refine State.canonical_forN _ _ (fun i s h => ?_) ?_ <;> try dsimp only
    | refine State.canonical_forL _ _ (fun i s h => ?_) ?_ <;> try dsimp only
    | (split <;> (try (rename_i heq; (first
        | have he := congrArg (fun p => State.canonical (Prod.snd p)) heq
        | have he := congrArg KvR.canonical heq
        | have he := congrArg (exceptCanonical (fun p => State.canonical (Prod.snd p))) heq
        | have he := congrArg (exceptCanonical (fun p => State.canonical (Prod.fst p))) heq
        | have he := congrArg (exceptCanonical (fun _ => True)) heq
        | have he := congrArg (fun p => State.canonical (Prod.fst p)) heq); clear heq; simp (maxDischargeDepth := 60) +contextual [*] at he))))

@[simp] theorem State.canonical_regWrite {s : State} (path : Path) (off : Nat) (wide : Bool) (v : Nat) (hc : s.canonical) : (State.regWrite s path off wide v).canonical := by
  simp (maxDischargeDepth := 60) +contextual [State.regWrite, *]

@[simp] theorem State.canonical_regReadBy {s : State} (path : Path) (off : Nat) (wide : Bool) (hc : s.canonical) : (State.regReadBy s path off wide).canonical := by
  simp (maxDischargeDepth := 60) +contextual [State.regReadBy, *]

@[simp] theorem State.canonical_emuDrop {s : State} (e : Nat × Nat × Nat × Bool) (hc : s.canonical) : (State.emuDrop s e).canonical := by
  simp (maxDischargeDepth := 60) +contextual [State.emuDrop, *]

@[simp] theorem State.canonical_emuAnswer {s : State} (e : Nat × Nat × Nat × Bool) (v : Nat) (hc : s.canonical) : (State.emuAnswer s e v).canonical := by
  simp (maxDischargeDepth := 60) +contextual [State.emuAnswer, *]

@[simp] theorem State.canonical_installLink {s : State} (n : Nat) (gen : Nat) (key : Nat) (hc : s.canonical) : (State.installLink s n gen key).canonical := by
  simp (maxDischargeDepth := 60) +contextual [State.installLink, *]

@[simp] theorem State.canonical_retireLink {s : State} (n : Nat) (gen : Nat) (hc : s.canonical) : (State.retireLink s n gen).canonical := by
  simp (maxDischargeDepth := 60) +contextual [State.retireLink, *]

@[simp] theorem State.canonical_sendKey {s : State} (m : Nat) (what : Nat) (slot : Nat) (gen : Nat) (carried : Nat) (hc : s.canonical) : (State.sendKey s m what slot gen carried).canonical := by
  simp (maxDischargeDepth := 60) +contextual [State.sendKey, *]

@[simp] theorem State.canonical_linkJobEnd {s : State} (j : KeyJob) (status : Nat) (hc : s.canonical) : (State.linkJobEnd s j status).canonical := by
  simp (maxDischargeDepth := 60) +contextual [State.linkJobEnd, *]

@[simp] theorem State.canonical_linkStart {s : State} (c : Cmd) (gen : Nat) (carried : Nat) (hc : s.canonical) : (State.linkStart s c gen carried).canonical := by
  simp (maxDischargeDepth := 60) +contextual [State.linkStart, *]

@[simp] theorem State.canonical_kbLinkAct {s : State} (c : Cmd) (hc : s.canonical) : (State.kbLinkAct s c).canonical := by
  unfold State.kbLinkAct
  split <;> simp (maxDischargeDepth := 60) +contextual [*]

@[simp] theorem State.canonical_keyAnswer {s : State} (src : Nat) (slot : Nat) (gen : Nat) (ok : Bool) (hc : s.canonical) : (State.keyAnswer s src slot gen ok).canonical := by
  unfold State.keyAnswer
  split <;> simp (maxDischargeDepth := 60) +contextual [*]

@[simp] theorem State.canonical_keyFlit {s : State} (h : Hdr) (pay : List Byte) (hc : s.canonical) : (State.keyFlit s h pay).canonical := by
  unfold State.keyFlit
  split <;> simp (maxDischargeDepth := 60) +contextual [*]

@[simp] theorem State.canonical_spdmFlit {s : State} (p : Nat) (h : Hdr) (pay : List Byte) (hc : s.canonical) : (State.spdmFlit s p h pay).canonical := by
  unfold State.spdmFlit
  repeat' (first | (simp (maxDischargeDepth := 60) +contextual [*]; done) | split)

@[simp] theorem State.canonical_flitIn {s : State} (p : LinkId) (nonce : BitVec 96) (f : Flit) (t : Nat) (act : Local) (ha : ∀ a b c s, s.canonical → (act a b c s).canonical) (hc : s.canonical) : (State.flitIn s p nonce f t act).canonical := by
  simp (maxDischargeDepth := 60) +contextual [State.flitIn, *]

@[simp] theorem State.canonical_routeIn {s : State} (h : Hdr) (pay : List Byte) (hc : s.canonical) : (State.routeIn s h pay).canonical := by
  simp (maxDischargeDepth := 60) +contextual [State.routeIn, *]

@[simp] theorem State.canonical_heartbeatIn {s : State} (h : Hdr) (hc : s.canonical) : (State.heartbeatIn s h).canonical := by
  simp (maxDischargeDepth := 60) +contextual [State.heartbeatIn, *]

@[simp] theorem State.canonical_hbAckIn {s : State} (hc : s.canonical) : (State.hbAckIn s).canonical := by
  simp (maxDischargeDepth := 60) +contextual [State.hbAckIn, *]

@[simp] theorem State.canonical_regReqIn {s : State} (h : Hdr) (pay : List Byte) (hc : s.canonical) : (State.regReqIn s h pay).canonical := by
  unfold State.regReqIn
  try dsimp only
  repeat' (first
    | (simp (maxDischargeDepth := 60) +contextual [*]; done)
    | refine State.canonical_forN _ _ (fun i s h => ?_) ?_ <;> try dsimp only
    | refine State.canonical_forL _ _ (fun i s h => ?_) ?_ <;> try dsimp only
    | (split <;> (try (rename_i heq; (first
        | have he := congrArg (fun p => State.canonical (Prod.snd p)) heq
        | have he := congrArg KvR.canonical heq
        | have he := congrArg (exceptCanonical (fun p => State.canonical (Prod.snd p))) heq
        | have he := congrArg (exceptCanonical (fun p => State.canonical (Prod.fst p))) heq
        | have he := congrArg (exceptCanonical (fun _ => True)) heq
        | have he := congrArg (fun p => State.canonical (Prod.fst p)) heq); clear heq; simp (maxDischargeDepth := 60) +contextual [*] at he))))

@[simp] theorem State.canonical_regRspIn {s : State} (p : Nat) (h : Hdr) (pay : List Byte) (hc : s.canonical) : (State.regRspIn s p h pay).canonical := by
  unfold State.regRspIn
  split <;> simp (maxDischargeDepth := 60) +contextual [*]

@[simp] theorem State.canonical_doorbellIn {s : State} (pay : List Byte) (hc : s.canonical) : (State.doorbellIn s pay).canonical := by
  simp (maxDischargeDepth := 60) +contextual [State.doorbellIn, *]

@[simp] theorem State.canonical_irqIn {s : State} (h : Hdr) (hc : s.canonical) : (State.irqIn s h).canonical := by
  simp (maxDischargeDepth := 60) +contextual [State.irqIn, *]

@[simp] theorem State.canonical_flockBind {s : State} (c : Cmd) (hc : s.canonical) : (State.flockBind s c).canonical := by
  unfold State.flockBind
  try dsimp only
  repeat' (first
    | (simp (maxDischargeDepth := 60) +contextual [*]; done)
    | refine State.canonical_forN _ _ (fun i s h => ?_) ?_ <;> try dsimp only
    | refine State.canonical_forL _ _ (fun i s h => ?_) ?_ <;> try dsimp only
    | (split <;> (try (rename_i heq; (first
        | have he := congrArg (fun p => State.canonical (Prod.snd p)) heq
        | have he := congrArg KvR.canonical heq
        | have he := congrArg (exceptCanonical (fun p => State.canonical (Prod.snd p))) heq
        | have he := congrArg (exceptCanonical (fun p => State.canonical (Prod.fst p))) heq
        | have he := congrArg (exceptCanonical (fun _ => True)) heq
        | have he := congrArg (fun p => State.canonical (Prod.fst p)) heq); clear heq; simp (maxDischargeDepth := 60) +contextual [*] at he))))

@[simp] theorem State.canonical_flockUnbind {s : State} (c : Cmd) (hc : s.canonical) : (State.flockUnbind s c).canonical := by
  simp (maxDischargeDepth := 60) +contextual [State.flockUnbind, *]

@[simp] theorem State.canonical_installSlot {s : State} (n : Nat) (kind : Nat) (key : Nat) (hc : s.canonical) : (State.installSlot s n kind key).canonical := by
  simp (maxDischargeDepth := 60) +contextual [State.installSlot, *]

@[simp] theorem State.canonical_memoryKey {s : State} (n : Nat) (kind : Nat) (hc : s.canonical) : (State.memoryKey s n kind).2.canonical := by
  simp (maxDischargeDepth := 60) +contextual [State.memoryKey, *]

@[simp] theorem State.canonical_keyBindAct {s : State} (c : Cmd) (hc : s.canonical) : (State.keyBindAct s c).canonical := by
  unfold State.keyBindAct
  split <;> simp (maxDischargeDepth := 60) +contextual [*]

@[simp] theorem State.canonical_deferred {s : State} (hc : s.canonical) : (State.deferred s).canonical := by
  simp (maxDischargeDepth := 60) +contextual [State.deferred, *]

@[simp] theorem State.canonical_tryResume {s : State} (hc : s.canonical) : (State.tryResume s).canonical := by
  simp (maxDischargeDepth := 60) +contextual [State.tryResume, *]

@[simp] theorem State.canonical_calAdd {s : State} (l : List Nat) (hc : s.canonical) : (State.calAdd s l).canonical := by
  simp (maxDischargeDepth := 60) +contextual [State.calAdd, *]

@[simp] theorem State.canonical_calEntry {s : State} (c : Nat) (l : Nat) (v : Nat) (hc : s.canonical) : (State.calEntry s c l v).canonical := by
  simp (maxDischargeDepth := 60) +contextual [State.calEntry, *]

@[simp] theorem State.canonical_recalDone {s : State} (hc : s.canonical) : (State.recalDone s).canonical := by
  simp (maxDischargeDepth := 60) +contextual [State.recalDone, *]

@[simp] theorem State.canonical_calWrite {s : State} (c : Nat) (v : Nat) (hc : s.canonical) : (State.calWrite s c v).canonical := by
  simp (maxDischargeDepth := 60) +contextual [State.calWrite, *]

@[simp] theorem State.canonical_calRetire {s : State} (c : Nat) (hc : s.canonical) : (State.calRetire s c).canonical := by
  simp (maxDischargeDepth := 60) +contextual [State.calRetire, *]

@[simp] theorem State.canonical_capEnd {s : State} (st : Nat) (uf : Nat) (hc : s.canonical) : (State.capEnd s st uf).canonical := by
  simp (maxDischargeDepth := 60) +contextual [State.capEnd, *]

@[simp] theorem State.canonical_capCheckAct {s : State} (c : Cmd) (hc : s.canonical) : (State.capCheckAct s c).canonical := by
  simp (maxDischargeDepth := 60) +contextual [State.capCheckAct, *]

@[simp] theorem State.canonical_pgCtrlSet {s : State} (path : Path) (off : Nat) (bitNo : Nat) (v : Bool) (hc : s.canonical) : (State.pgCtrlSet s path off bitNo v).canonical := by
  simp (maxDischargeDepth := 60) +contextual [State.pgCtrlSet, *]

@[simp] theorem State.canonical_serve {s : State} (c : Cmd) (hc : s.canonical) : (State.serve s c).canonical := by
  unfold State.serve
  split <;> simp (maxDischargeDepth := 60) +contextual [*]

@[simp] theorem State.canonical_coreTick {s : State} (noProg : Nat) (beats : Nat) (n : Nat) (hc : s.canonical) : (State.coreTick s noProg beats n).canonical := by
  simp (maxDischargeDepth := 60) +contextual [State.coreTick, *]

@[simp] theorem State.canonical_queueTick {s : State} (q : Nat) (hc : s.canonical) : (State.queueTick s q).canonical := by
  simp (maxDischargeDepth := 60) +contextual [State.queueTick, *]

@[simp] theorem State.canonical_firmTick {s : State} (hc : s.canonical) : (State.firmTick s).canonical := by
  simp (maxDischargeDepth := 60) +contextual [State.firmTick, *]

@[simp] theorem State.canonical_grazeTick {s : State} (hc : s.canonical) : (State.grazeTick s).canonical := by
  simp (maxDischargeDepth := 60) +contextual [State.grazeTick, *]

@[simp] theorem State.canonical_monitorTick {s : State} (beats : Nat) (tj : Nat) (hc : s.canonical) : (State.monitorTick s beats tj).canonical := by
  simp (maxDischargeDepth := 60) +contextual [State.monitorTick, *]

@[simp] theorem State.canonical_rampDown {s : State} (n : Nat) (l : Nat) (hc : s.canonical) : (State.rampDown s n l).canonical := by
  simp (maxDischargeDepth := 60) +contextual [State.rampDown, *]

@[simp] theorem State.canonical_rampUp {s : State} (n : Nat) (l : Nat) (hc : s.canonical) : (State.rampUp s n l).canonical := by
  simp (maxDischargeDepth := 60) +contextual [State.rampUp, *]

@[simp] theorem State.canonical_popIrq {s : State} (hc : s.canonical) : (State.popIrq s).canonical := by
  simp (maxDischargeDepth := 60) +contextual [State.popIrq, *]

@[simp] theorem State.canonical_withFetchWord {s : State} (nbits : Nat) (w : Nat) (hc : s.canonical) : (State.withFetchWord s nbits w).canonical := by
  unfold State.withFetchWord
  split <;> simp (maxDischargeDepth := 60) +contextual [*]

end Sys2Proof.Machine
end

