-- ==== Sys2Proof/Laws/Resets.lean ====
section
/-! SUPPORT. What an instance reset leaves. -/

namespace Sys2Proof.Machine

/-- A register that P00 holds survives the power cycle. -/
theorem tblFind_filter {V : Type} (t : List (Nat × V)) (p : Nat → Bool) (k : Nat) (h : p k = true) :
    tblFind (t.filter (fun e => p e.1)) k = tblFind t k := by
  induction t with
  | nil => rfl
  | cons e t ih =>
    obtain ⟨k', v⟩ := e
    simp only [List.filter]
    split
    · simp only [tblFind, ih]
    · rename_i hk
      by_cases e : k' = k
      · subst e
        simp [h] at hk
      · simp [tblFind, e, ih]

theorem State.powerCycleAll_reg (s : State) (o : Nat) (h : inP00 o = true) : s.powerCycleAll.reg o = s.reg o := by
  simp only [State.reg, State.powerCycleAll, State.resetP02Up]
  rw [tblFind_filter _ inP00 _ h]

theorem State.powerCycleAll_rf (s : State) (f : Fld) (h : inP00 f.off = true) : s.powerCycleAll.rf f = s.rf f := by
  simp only [State.rf, State.powerCycleAll_reg _ _ h]

theorem State.dropKeys_field {β : Type} (g : State → β) (s : State)
    (h : ∀ (s : State) (r : List (Nat × W64)) (k : List (Nat × Nat)), g { s with regs := r, keys := k } = g s) :
    g s.dropKeys = g s := by
  have hw : ∀ (f : Fld) (v : Nat) (s : State), g (s.wf f v) = g s := fun f v s => h s _ s.keys
  simp only [State.dropKeys]
  exact (h _ _ _).trans (forN_field g 62 _ (fun i s => hw _ _ s) s)

theorem State.coresReset_field {β : Type} (g : State → β) (s : State)
    (h : ∀ (s : State) (r : List (Nat × W64)) (k : List (Nat × Nat)), g { s with regs := r, keys := k } = g s) :
    g s.coresReset = g s := by
  have hw : ∀ (o : Nat) (v : W64) (s : State), g (s.setReg o v) = g s := fun o v s => h s _ s.keys
  simp only [State.coresReset]
  exact forN_field g 16 _ (fun i s => (hw _ _ _).trans (hw _ _ s)) s

theorem State.trayRequest_after (s : State) (cause : Nat) (h : s.boot.rst = true) (hc : s.rf F.resetCause = cause % 16) :
    s.trayRequest.afterReset cause := by
  refine ⟨rfl, rfl, rfl, rfl, rfl, rfl, rfl, rfl, rfl, rfl, rfl, rfl, rfl, rfl, ?_, .inr ?_, ?_, ?_⟩
  · simpa [State.trayRequest, State.powerCycleAll] using h
  · simp [State.trayRequest, State.powerCycleAll]
  · simp only [State.trayRequest]
    rw [State.rf_wf_apart _ _ _ _ (by decide) (by decide), State.powerCycleAll_rf _ _ (by decide)]
    exact hc
  · simp only [State.trayRequest]
    rw [State.rf_wf_same _ _ _ (by decide)]
    decide

theorem State.resetTake_after (s : State) (cause : Nat) : (s.resetTake cause).afterReset cause := by
  have key : ∀ (x : Boot), x.rst = true → x.phase = .resetting →
      State.afterReset (((({ s.powerCycleAll.dropKeys.coresReset with boot := x } : State).wf F.domains 1).wf F.resetCause cause).inc F.resetCount 1) cause := by
    intro x h1 h2
    have hk : ∀ {β : Type} (g : State → β), (∀ (s : State) (r : List (Nat × W64)) (k : List (Nat × Nat)),
        g { s with regs := r, keys := k } = g s) → g s.powerCycleAll.dropKeys.coresReset = g s.powerCycleAll :=
      fun g h => (State.coresReset_field g _ h).trans (State.dropKeys_field g _ h)
    refine ⟨?_, ?_, ?_, ?_, ?_, ?_, ?_, ?_, ?_, ?_, ?_, ?_, ?_, ?_, ?_, .inl ?_, ?_, ?_⟩
    · simp only [State.inc_cmds, State.wf_cmds]
      exact (hk State.cmds (fun _ _ _ => rfl)).trans rfl
    · simp only [State.inc_txns, State.wf_txns]
      exact (hk State.txns (fun _ _ _ => rfl)).trans rfl
    · simp only [State.inc_waiting, State.wf_waiting]
      exact (hk State.waiting (fun _ _ _ => rfl)).trans rfl
    · simp only [State.inc_sigs, State.wf_sigs]
      exact (hk State.sigs (fun _ _ _ => rfl)).trans rfl
    · simp only [State.inc_cores, State.wf_cores]
      exact (hk State.cores (fun _ _ _ => rfl)).trans rfl
    · simp only [State.inc_clusters, State.wf_clusters]
      exact (hk State.clusters (fun _ _ _ => rfl)).trans rfl
    · simp only [State.inc_queues, State.wf_queues]
      exact (hk State.queues (fun _ _ _ => rfl)).trans rfl
    · simp only [State.inc_links, State.wf_links]
      exact (hk State.links (fun _ _ _ => rfl)).trans rfl
    · simp only [State.inc_inlets, State.wf_inlets]
      exact (hk State.inlets (fun _ _ _ => rfl)).trans rfl
    · simp only [State.inc_csb, State.wf_csb]
      exact (hk State.csb (fun _ _ _ => rfl)).trans rfl
    · simp only [State.inc_csbPoison, State.wf_csbPoison]
      exact (hk State.csbPoison (fun _ _ _ => rfl)).trans rfl
    · simp only [State.inc_csbMap, State.wf_csbMap]
      exact (hk State.csbMap (fun _ _ _ => rfl)).trans rfl
    · simp only [State.inc_drovers, State.wf_drovers]
      exact (hk State.drovers (fun _ _ _ => rfl)).trans rfl
    · simp only [State.inc_closing, State.wf_closing]
      exact (hk State.closing (fun _ _ _ => rfl)).trans rfl
    · simpa using h1
    · simpa using h2
    · rw [State.rf_inc_apart _ _ _ _ (by decide) (by decide), State.rf_wf_same _ _ _ (by decide)]
      rfl
    · rw [State.rf_inc_apart _ _ _ _ (by decide) (by decide), State.rf_wf_apart _ _ _ _ (by decide) (by decide),
        State.rf_wf_same _ _ _ (by decide)]
      rfl
  simp only [State.resetTake]
  split
  · refine State.trayRequest_after _ _ ?_ ?_
    · exact (key _ rfl rfl).rst
    · exact (key _ rfl rfl).cause
  · exact key _ rfl rfl

theorem State.instanceReset_after (s : State) (cause : Nat) (b : Bool) : (s.instanceReset cause b).afterReset cause :=
  State.resetTake_after _ _

end Sys2Proof.Machine
end

