-- ==== Sys2Proof/Tests/Slice0.lean ====
section
/-! SUPPORT. Tests and witnesses. Each theorem shows one small state and operands that meet the hypotheses of a clause of an
obligation, and what one command does there; expected results come from the rules that the obligation cites. Every term of Instr is
well formed, so no ill-formed term exists that a check could refuse. -/

namespace Sys2Proof.Tests
open Sys2Proof Sys2Proof.Machine

set_option Elab.async false

/-! Helpers. -/

/-- The state after a command. -/
def go (i : Instr) (s : State) : State :=
  match exec i s with
  | .next t => t
  | .fault _ => State.reset
  | .refused _ => State.reset

/-- Write fields. -/
def put (l : List (Fld × Nat)) (s : State) : State := l.foldl (fun s p => s.wf p.1 p.2) s

/-- Registers but the listed ones are equal. -/
def same (s t : State) (os : List Nat) : Bool :=
  s.regs.filter (fun e => !os.contains e.1) == t.regs.filter (fun e => !os.contains e.1)

/-- Memory but for `n` bytes from `a` is equal. -/
def memEq (s t : State) (a n : Nat) : Bool :=
  s.mem.filter (fun e => !(decide (a ≤ e.1) && decide (e.1 < a + n))) == t.mem.filter (fun e => !(decide (a ≤ e.1) && decide (e.1 < a + n)))

/-- A state with POR_N high and nothing else. -/
def up : State := { State.reset with pins := { Pins.init with porN := true } }

/-- A ready instance: every domain on, every Drover running. -/
def st : State := put [(F.domains, 2 ^ 30 - 1), (F.dvRunning 0, 1), (F.dvRunning 1, 1), (F.dvRunning 2, 1), (F.dvRunning 3, 1)]
  { up with boot := { Boot.init with phase := .ready, made := true } }

/-- A ready instance at EPOCH count `n`. -/
def at' (n : Nat) : State := put [(F.epochCount, n)] st

/-- Bytes of a command, a record or an image: `n` bytes, zero but for the listed fields (offset, width, value). -/
def bytesOf (n : Nat) (l : List (Nat × Nat × Nat)) : List Byte :=
  l.foldl (fun b f => splice b f.1 (natLe f.2.1 f.2.2)) (List.replicate n 0)

/-- A command of a queue in a phase. -/
def cm (q slot phase : Nat) (l : List (Nat × Nat × Nat)) : Cmd := { newCmd q slot (bytesOf 128 l) 1 with phase := phase }

/-- A state with commands in flight. -/
def has (s : State) (l : List Cmd) : State := { s with cmds := l }

/-- What holds of a state and of the state after a command. -/
def chk (s : State) (i : Instr) (f : State → State → Bool) : Bool := f s (go i s)

/-- A command of a queue has ended its phase 4 with a status, and only the commands changed. -/
def ends (s t : State) (c : Cmd) (st : Nat) : Bool := t.cmds == (s.setCmd (c.done st)).cmds

/-- Only the commands changed. -/
def only (s t : State) : Bool := t == { s with cmds := t.cmds }


/-! The queue of commands, reset, the crossings and the test port. -/

theorem test_step_front : (match step { up with pending := [.taQuery, .tapExtest] } with
    | .next t => t.pending == [.tapExtest] && t.pins.taRsp == [] && t.pins.taHeld.length == 1
    | _ => false) = true := by decide +kernel
theorem test_step_idle : (match step State.reset with | .next t => t == State.reset | _ => false) = true := by decide +kernel
theorem test_reset_canonical : State.canonical State.reset := ⟨by decide, by decide, by decide⟩
theorem test_canonical_state : State.canonical st := ⟨by decide +kernel, by decide +kernel, by decide +kernel⟩

theorem test_clockStop : chk st (.clockStop .hrp) (fun s t => s.xing .hrp && !t.xing .hrp && t.pins.stopped == [.hrp]) = true := by
    decide +kernel
theorem test_clockReturn : chk { st with pins := { st.pins with stopped := [.hrp, .ta] } } (.clockReturn .hrp) (fun s t =>
    s.pins.taHeld.isEmpty && !s.shep.stopping && t.pins.stopped == [.ta] && t.xing .hrp) = true := by decide +kernel
theorem test_crossingReset : chk st (.crossingReset (.mp 7)) (fun _ t => t.pins.resync == [.mp 7] && !t.xing (.mp 7) && t.xing (.mp 6))
    = true := by decide +kernel
theorem test_crossingResyncDone : chk { st with pins := { st.pins with resync := [.lk 3] } } (.crossingResyncDone (.lk 3)) (fun s t =>
    !s.pins.stopped.contains (.lk 3) && s.pins.taHeld.isEmpty && !s.shep.stopping && t.pins.resync.isEmpty && t.xing (.lk 3)) = true :=
    by decide +kernel
theorem test_tapExtest : chk st .tapExtest (fun s t => s.pins.porN && t.pins.extest && !t.xing .ta) = true := by decide +kernel
theorem test_tapLeavesExtest : chk { st with pins := { st.pins with extest := true } } .tapLeavesExtest (fun s t =>
    s.pins.taHeld.isEmpty && !s.shep.stopping && !t.pins.extest && t.xing .ta) = true := by decide +kernel
theorem test_tapReset : chk { st with pins := { st.pins with selfTest := true, extest := true } } .tapReset (fun s t =>
    s.pins.taHeld.isEmpty && !s.shep.stopping && !t.pins.extest && !t.pins.selfTest) = true := by decide +kernel
theorem test_tapSelfTest : chk up .tapSelfTest (fun s t => s.pins.porN && !(s.boot.phase == .ready) && t.pins.selfTest) = true := by
    decide +kernel
theorem test_selfTest_blocks_ready : chk { up with pins := { up.pins with selfTest := true } } (.instanceResetReady true) (fun s t =>
    s.pins.selfTest && t == s) = true := by decide +kernel
theorem test_selfTestDone : chk
    { up with pins := { up.pins with selfTest := true }, boot := { up.boot with rst := true }, csb := [(5, 1)] } .selfTestDone (fun s t
    => s.pins.selfTest && s.boot.rst && t.csb.isEmpty && !t.pins.selfTest) = true := by decide +kernel

/-! Boot and reset. -/

theorem test_porNRelease : (fun s : State => !s.pins.porN && !s.shep.stopping) State.reset = true := by decide +kernel
theorem test_porNRelease_bad_strap : (fun s : State => !s.pins.porN && !s.shep.stopping) State.reset = true := by decide +kernel
theorem test_bootFetchTimeout : (fun s : State => s.elapsed .bootFetch == some 0 && s.pins.taHeld.isEmpty && !s.shep.stopping)
    (State.startT { up with boot := { up.boot with phase := .booting } } .bootFetch) = true := by decide +kernel
theorem test_coldBootReady : (fun s : State => s.boot.phase == .loaded && !s.boot.rst && s.pwr.cap == 0)
    { up with boot := { up.boot with phase := .loaded } } = true := by decide +kernel
theorem test_instanceResetReady : (fun s : State => s.boot.rst && !s.pins.selfTest && s.pins.taHeld.isEmpty && !s.shep.stopping)
    { up with boot := { up.boot with phase := .loaded, rst := true } } = true := by decide +kernel
theorem test_porNAssert : chk (put [(F.saves, 5), (F.tdpCap, 99)] st) .porNAssert (fun s t => s.pins.porN && s.rf F.holdState == 0 &&
    t.rf F.saves == 5 && t.rf F.tdpCap == 240 && t.regs.length == 1 && !t.pins.porN && t.boot == Boot.init) = true := by decide +kernel
theorem test_porNAssert_deferred : chk (put [(F.holdState, 3)] st) .porNAssert (fun s t => s.pins.porN && s.rf F.holdState == 3 &&
    t.boot.porDeferred && t.regs == s.regs) = true := by decide +kernel

/-- What an instance reset leaves, as a Bool. -/
def resetBy (t : State) (cause : Nat) : Bool :=
  t.cmds.isEmpty && t.txns.isEmpty && t.cores.isEmpty && t.clusters.isEmpty && t.queues.isEmpty && t.links.isEmpty && t.inlets.isEmpty &&
  t.csb.isEmpty && t.csbPoison.isEmpty && t.csbMap.isEmpty && t.drovers.isEmpty && t.closing.isEmpty && t.boot.rst &&
  (t.boot.phase == .resetting || t.boot.phase == .tray) && t.rf F.resetCause == cause && t.rf F.domains == 1

theorem test_wrstNAssert : chk (has st [cm 0 0 4 []]) .wrstNAssert (fun s t => s.pins.porN && s.boot.phase == .ready && s.rf F.holdState
    == 0 && resetBy t 8) = true := by decide +kernel
theorem test_wrstNAssert_deferred : chk (put [(F.holdState, 5)] st) .wrstNAssert (fun s t => s.pins.porN && s.rf F.holdState == 5 && t
    == { s with boot := { s.boot with wrstDeferred := true } }) = true := by decide +kernel

/-- A write outstanding on port 2. -/
def txW : Txn := ⟨2, 1024, 1, 0x200, 5, false, 3, .command 40 7, 0, false, [], []⟩

theorem test_mpRstN_outstanding : chk { st with txns := [txW] } (.mpRstNAssert 2) (fun s t => s.boot.phase == .ready && s.txns.any (fun
    x => x.port == 2) && resetBy t 3) = true := by decide +kernel
theorem test_mpRstN_idle : chk { st with boot := { st.boot with discard := [(1, 4), (2, 5)] } } (.mpRstNAssert 1) (fun s t =>
    !s.txns.any (fun x => x.port == 1) && t.boot.discard == [(2, 5)]) = true := by decide +kernel

/-- A context reset of context 9 that waits for its drain. -/
def closing9 : Closing := ⟨9, none, 1, 2, none⟩

theorem test_contextDrainLimit : chk (put [(F.epochCount, 10000)] (State.startT { st with closing := [closing9] } (.ctxDrain 9)))
    (.contextDrainLimit 9) (fun s t => s.closing == [closing9] && s.reached (.ctxDrain 9) (s.toEpochs 10000000) && resetBy t 6) = true
    := by decide +kernel
theorem test_contextDrainLimit_early : chk (put [(F.epochCount, 9999)] (State.startT { st with closing := [closing9] } (.ctxDrain 9)))
    (.contextDrainLimit 9) (fun s t => !s.reached (.ctxDrain 9) (s.toEpochs 10000000) && t == s) = true := by decide +kernel
theorem test_instanceResetLimit : chk (put [(F.epochCount, 100000)]
    { up with boot := { up.boot with phase := .resetting, rst := true } }) .instanceResetLimit (fun s t => s.boot.rst && decide
    (s.toEpochs 100000000 ≤ s.now - s.boot.rstStart) && t.pins.trayReq && t.boot.phase == .tray && t.rf F.domains == 1) = true := by
    decide +kernel


/-! Power: hold-up, temperature, gating, calibration, the capacitor check, POWER_STAGE. -/

/-- A power-warning quiesce is asked of every core. -/
def quiet (s : State) : State := forN 16 (fun n s => s.modCore n (fun c => { c with quiesceReq := 2 })) s
/-- A save in the capture buffer. -/
def sv : Save := st.makeSave false

theorem test_pwrWarnAssert : chk (put [(F.armed, 1)] st) .pwrWarnAssert (fun s t => s.pins.porN && !s.boot.rst && s.boot.phase == .ready
    && s.rf F.holdState == 0 && s.hsa.capture.isNone && t.pins.pwrWarn && t.rf F.holdState == 1 && bit (t.core 15).quiesceReq 1) = true
    := by decide +kernel
theorem test_pwrWarnAssert_unarmed : chk st .pwrWarnAssert (fun s t => s.pins.porN && !s.boot.rst && s.boot.phase == .ready && s.rf
    F.holdState == 0 && s.hsa.capture.isNone && t.rf F.holdState == 0 && bit (t.core 0).quiesceReq 1) = true := by decide +kernel
theorem test_pwrWarnClear_idle : chk (quiet { st with pins := { st.pins with pwrWarn := true } }) .pwrWarnClear (fun s t => s.pins.porN
    && s.rf F.holdState == 0 && decide (s.rf F.hostState < 2) && !t.pins.pwrWarn && !bit (t.core 3).quiesceReq 1) = true := by
    decide +kernel
theorem test_pwrWarnClear_sealed : chk (put [(F.holdState, 4), (F.vhold, 850)]
    { st with hsa := { st.hsa with capture := some sv }, pins := { st.pins with pwrWarn := true } }) .pwrWarnClear (fun s t =>
    s.pins.porN && s.rf F.holdState == 4 && s.hsa.capture.isSome && decide (850 ≤ s.rf F.vhold) && t.rf F.holdState == 5 &&
    !t.pins.pwrWarn) = true := by decide +kernel
theorem test_vholdRecharged : chk (put [(F.holdState, 4)] { st with hsa := { st.hsa with capture := some sv } }) (.vholdRecharged 850)
    (fun s t => s.pins.porN && t.rf F.vhold == 850 && t.rf F.holdState == 5) = true := by decide +kernel
theorem test_vholdRecharged_warned : chk (put [(F.holdState, 4)]
    { st with hsa := { st.hsa with capture := some sv }, pins := { st.pins with pwrWarn := true } }) (.vholdRecharged 1000) (fun s t =>
    s.pins.porN && t.rf F.vhold == 1000 && t.rf F.holdState == 4) = true := by decide +kernel
theorem test_holdupSealed : chk (put [(F.holdState, 1)] (has st [cm 8 0 4 []])) (.holdupSealed 600) (fun s t => s.rf F.holdState == 1 &&
    s.noTiles && s.rf F.hostState != 2 && !s.boot.porDeferred && !s.boot.wrstDeferred && t.rf F.holdState == 4 && t.cmds.isEmpty && t.rf
    F.domains == 0x1E01 && t.rf F.vhold == 600 && t.hsa.capture == some (s.makeSave false)) = true := by decide +kernel
theorem test_holdupResumeDone : (fun s : State => s.rf F.holdState == 5 && s.hsa.capture == some sv && !s.boot.porDeferred &&
    !s.boot.wrstDeferred && s.pins.taHeld.isEmpty && !s.shep.stopping) (put [(F.holdState, 5)]
    { st with hsa := { st.hsa with capture := some sv } }) = true := by decide +kernel
theorem test_csbRetentionLoss : chk (put [(F.holdState, 1), (F.csbRetainedAll, 15)] st) (.csbRetentionLoss 2) (fun s t => decide (1 ≤
    s.rf F.holdState) && decide (s.rf F.holdState ≤ 4) && t.rf F.csbRetainedAll == 11 && t.rf F.holdState == 1) = true := by
    decide +kernel
theorem test_csbRetentionLoss_sealed : chk (put [(F.holdState, 4), (F.csbRetainedAll, 15)] st) (.csbRetentionLoss 0) (fun s t => decide
    (1 ≤ s.rf F.holdState) && decide (s.rf F.holdState ≤ 4) && t.rf F.csbRetainedAll == 14) = true := by decide +kernel

/-- A tile on a core, of queue 8 of context 1, slot 0, index 0. -/
def tile0 (kind : Nat) : Tile :=
  { qn := 8, slot := 0, index := 0, kind := kind, ctx := 1, part := 0, entry := bytesOf 256 [], reads := 4, cspKib := 0, csbKib := 0,
    kv := [], beats := 100, staged := [], waits := [], ready := false, pins := [], blocks := [], poison := false, aborting := false,
    skipEn := false, half := 0, seed := 0, fin := none }
/-- The tile on core `n`. -/
def withTile (n : Nat) (t : Tile) (s : State) : State := s.modCore n (fun c => { c with tile := some t, served := some t.ctx, serving := [(t.qn, t.slot)] })

theorem test_vddNeTileStop : chk (put [(F.holdState, 1)] (withTile 4 (tile0 3) (has st [cm 8 0 4 []]))) (.vddNeTileStop 4) (fun s t =>
    (s.core 4).tile == some (tile0 3) && s.rf F.holdState == 1 && (t.core 4).tile.isNone) = true := by decide +kernel
theorem test_thermalLimitEnter : chk st (.thermalLimitEnter 3 211) (fun s t => s.pins.porN && t.rb (F.thermal 3) && t.rf (F.level 3) ==
    0 && t.rf (F.monTj 3) == 211 && t.rf (F.level 2) == 15 && bit (t.rf (F.evRaw pgPwr)) 4) = true := by decide +kernel
theorem test_thermalLimitExit : chk (put [(F.thermal 3, 1), (F.level 3, 0)] st) (.thermalLimitExit 3 200) (fun s t => s.pins.porN &&
    !t.rb (F.thermal 3) && t.rf (F.monTj 3) == 200 && t.rf (F.level 3) == t.effLevel 3 % 16) = true := by decide +kernel
theorem test_tdpWindowEnd_over : chk (at' (2 ^ 14)) (.tdpWindowEnd 60001 1 2) (fun s t => s.isReady && s.rb (F.dvRunning 3) && decide (2
    ^ s.rf F.tdpWin ≤ s.now - s.pwr.tdpStart) && s.rf F.tdpCap == 240 && (t.lvl 1).allowed == 14 && t.rf F.tdpAvg == 60001 &&
    t.pwr.tdpStart == 16384 && (t.lvl 2).allowed == 15 && bit (t.rf (F.evRaw pgPwr)) 3) = true := by decide +kernel
theorem test_tdpWindowEnd_at_cap : chk (at' (2 ^ 14)) (.tdpWindowEnd 60000 1 2) (fun s t => s.isReady && s.rb (F.dvRunning 3) && decide
    (2 ^ s.rf F.tdpWin ≤ s.now - s.pwr.tdpStart) && t.pwr.levels == s.pwr.levels) = true := by decide +kernel
theorem test_tdpWindowEnd_under : chk ((at' (2 ^ 14)).setLvl 2 { Lvl.init with allowed := 3 }) (.tdpWindowEnd 53999 1 2) (fun s t =>
    s.isReady && s.rb (F.dvRunning 3) && decide (2 ^ s.rf F.tdpWin ≤ s.now - s.pwr.tdpStart) && (t.lvl 2).allowed == 4 && (t.lvl
    1).allowed == 15) = true := by decide +kernel
theorem test_idleGateExpiry : chk (put [(F.gateEn, 1), (F.gateEpochs, 5)] (st.modCore 6 (fun c => { c with idle := 5 })))
    (.idleGateExpiry 6) (fun s t => s.rb F.gateEn && s.domOn (coreDom 6) && (s.core 6).tile.isNone && !(s.core 6).powering && decide
    (s.rf F.gateEpochs ≤ (s.core 6).idle) && !t.domOn (coreDom 6) && t.rb (F.gated 6)) = true := by decide +kernel
theorem test_corePowerOnDone : chk (put [(F.domain (coreDom 6), 0), (F.gated 6, 1)] (st.modCore 6 (fun c =>
    { c with powering := true }))) (.corePowerOnDone 6) (fun s t => (s.core 6).powering && !s.domOn (coreDom 6) && !(s.core
    6).retirePend && t.domOn (coreDom 6) && !t.rb (F.gated 6) && !(t.core 6).powering) = true := by decide +kernel
theorem test_calibrationPeriod : chk (put [(F.calPeriod, 7), (F.epochCount, 7)] (st.startT .calPeriod)) .calibrationPeriod (fun s t =>
    s.isReady && s.rf F.calPeriod != 0 && s.reached .calPeriod (s.rf F.calPeriod) && s.pwr.calQ.isEmpty && (List.range 4).all (fun c =>
    !s.rb (F.calBusy c)) && t.rb (F.calBusy 0) && (List.range 4).all (fun c => t.pwr.calQ.contains c)) = true := by decide +kernel

/-- Cluster 1 calibrates, with its cores quiesced. -/
def calib : State := put [(F.calBusy 1, 1), (F.tsqQuiesced 4, 1), (F.tsqQuiesced 5, 1), (F.tsqQuiesced 6, 1), (F.tsqQuiesced 7, 1)] { (forN 4 (fun i s => s.modCore (4 + i) (fun c => { c with quiesceReq := 4 })) st) with pwr := { st.pwr with calQ := [1] } }

theorem test_calibrationDone : chk calib (.calibrationDone (300 + 310 * 2 ^ 10)) (fun s t => s.rb (F.calBusy 1) && !s.rb (F.calBusy 0)
    && s.allQuiesced [4, 5, 6, 7] && s.rf (F.target 0) != 0 && !t.rb (F.calBusy 1) && t.rf (F.entVolt 1 0) == 300 && t.rf (F.entVolt 1
    1) == 310 && t.rb (F.entValid 1 1) && !t.rb (F.entValid 1 2) && t.rf (F.entTarget 1 1) == 550) = true := by decide +kernel
theorem test_capCharged : chk (put [(F.epochCount, 12)] { st with pwr := { st.pwr with cap := 1, capStart := 2 } }) .capCharged (fun s t
    => s.pwr.cap == 1 && t.pwr.cap == 2 && t.rf F.vhold == 900 && t.pwr.capTime == 10000) = true := by decide +kernel
theorem test_capDroopCheckEnd_ok : (fun s : State => s.pwr.cap == 2 && s.pins.taHeld.isEmpty && !s.shep.stopping)
    { st with pwr := { st.pwr with cap := 2, capTime := 6000000 } } = true := by decide +kernel
theorem test_capDroopCheckEnd_short : (fun s : State => s.pwr.cap == 2 && s.pins.taHeld.isEmpty && !s.shep.stopping)
    { st with pwr := { st.pwr with cap := 2, capTime := 599999 } } = true := by decide +kernel
theorem test_capDroopCheckEnd_low : (fun s : State => s.pwr.cap == 2 && s.pins.taHeld.isEmpty && !s.shep.stopping)
    { st with pwr := { st.pwr with cap := 2, capTime := 600000 } } = true := by decide +kernel
theorem test_capDroopCheckEnd_leaky : (fun s : State => s.pwr.cap == 2 && s.pins.taHeld.isEmpty && !s.shep.stopping)
    { st with pwr := { st.pwr with cap := 2, capTime := 6000000 } } = true := by decide +kernel
theorem test_capCheckTimeout_noEpoch : (fun s : State => s.pwr.cap == 1 && s.now == s.pwr.capStart && s.pins.taHeld.isEmpty &&
    !s.shep.stopping) { st with pwr := { st.pwr with cap := 1 } } = true := by decide +kernel
theorem test_capCheckTimeout_low : (fun s : State => s.pwr.cap == 1 && s.now - s.pwr.capStart != 0 && decide (12000000 ≤ s.epochsNs
    (s.now - s.pwr.capStart)) && s.pins.taHeld.isEmpty && !s.shep.stopping) (put [(F.epochCount, 12000)]
    { st with pwr := { st.pwr with cap := 1 } }) = true := by decide +kernel

/-- A POWER_STAGE command on the steward queue of context 0 (Table 17.3): OP, CLUSTERS, LEVEL, CORE, CAP, WINDOW. -/
def psCmd (op clusters level core cap win : Nat) : Cmd :=
  cm 0 0 4 [(0, 1, 0x88), (50, 1, op), (51, 1, clusters), (52, 1, level), (53, 1, core), (54, 2, cap), (56, 1, win)]

theorem test_powerStage_setLevel : chk (has (put [(F.entTarget 0 5, 950), (F.entVolt 0 5, 300), (F.entValid 0 5, 1)] st) [psCmd 0 1 5 0
    0 0]) (.powerStageSetLevel 0) (fun s t => s.phase4 0 0x88 == some (psCmd 0 1 5 0 0 0) && (psCmd 0 1 5 0 0 0).clusters == [0] &&
    !(psCmd 0 1 5 0 0 0).powerBad && s.rb (F.dvRunning 3) && (s.validAt 0 5).isSome && ends s t (psCmd 0 1 5 0 0 0) 0 && (t.lvl
    0).requested == 5) = true := by decide +kernel
theorem test_powerStage_setLevel_invalid : chk (has st [psCmd 0 1 5 0 0 0]) (.powerStageSetLevel 0) (fun s t => s.phase4 0 0x88 == some
    (psCmd 0 1 5 0 0 0) && (s.validAt 0 5).isNone && ends s t (psCmd 0 1 5 0 0 0) 0x11 && only s t) = true := by decide +kernel
theorem test_powerStage_setLevel_none : chk (has st [psCmd 0 0 5 0 0 0]) (.powerStageSetLevel 0) (fun s t => s.phase4 0 0x88 == some
    (psCmd 0 0 5 0 0 0) && (psCmd 0 0 5 0 0 0).clusters.isEmpty && !(psCmd 0 0 5 0 0 0).powerBad && ends s t (psCmd 0 0 5 0 0 0) 0x01 &&
    only s t) = true := by decide +kernel
theorem test_powerStage_waits : chk (has (put [(F.dvRunning 3, 0)] st) [psCmd 0 1 5 0 0 0]) (.powerStageSetLevel 0) (fun s t => s.phase4
    0 0x88 == some (psCmd 0 1 5 0 0 0) && !s.rb (F.dvRunning 3) && only s t && t.cmds.all (fun d => d.svc && !d.acted)) = true := by
    decide +kernel
theorem test_powerStage_setTdp_low : chk (has st [psCmd 1 0 0 0 16 8]) (.powerStageSetTdp 0) (fun s t => s.phase4 0 0x88 == some (psCmd
    1 0 0 0 16 8) && s.rb (F.dvRunning 3) && !(psCmd 1 0 0 0 16 8).powerBad && ends s t (psCmd 1 0 0 0 16 8) 0 && t.rf F.tdpCap == 16 &&
    t.rf F.tdpWin == 8) = true := by decide +kernel
theorem test_powerStage_setTdp_high : chk (has st [psCmd 1 0 0 0 240 20]) (.powerStageSetTdp 0) (fun s t => s.phase4 0 0x88 == some
    (psCmd 1 0 0 0 240 20) && s.rb (F.dvRunning 3) && !(psCmd 1 0 0 0 240 20).powerBad && ends s t (psCmd 1 0 0 0 240 20) 0 && t.rf
    F.tdpCap == 240 && t.rf F.tdpWin == 20) = true := by decide +kernel
theorem test_powerStage_setTdp_zero : chk (has st [psCmd 1 0 0 0 0 8]) (.powerStageSetTdp 0) (fun s t => s.phase4 0 0x88 == some (psCmd
    1 0 0 0 0 8) && s.rb (F.dvRunning 3) && !(psCmd 1 0 0 0 0 8).powerBad && ends s t (psCmd 1 0 0 0 0 8) 16 && only s t) = true := by
    decide +kernel
theorem test_powerStage_setTdp_small : chk (has st [psCmd 1 0 0 0 15 8]) (.powerStageSetTdp 0) (fun s t => s.phase4 0 0x88 == some
    (psCmd 1 0 0 0 15 8) && s.rb (F.dvRunning 3) && !(psCmd 1 0 0 0 15 8).powerBad && ends s t (psCmd 1 0 0 0 15 8) 17 && only s t) =
    true := by decide +kernel
theorem test_powerStage_setTdp_big : chk (has st [psCmd 1 0 0 0 241 8]) (.powerStageSetTdp 0) (fun s t => s.phase4 0 0x88 == some (psCmd
    1 0 0 0 241 8) && s.rb (F.dvRunning 3) && !(psCmd 1 0 0 0 241 8).powerBad && ends s t (psCmd 1 0 0 0 241 8) 17 && only s t) = true
    := by decide +kernel
theorem test_powerStage_setTdp_win : chk (has st [psCmd 1 0 0 0 100 7]) (.powerStageSetTdp 0) (fun s t => s.phase4 0 0x88 == some (psCmd
    1 0 0 0 100 7) && s.rb (F.dvRunning 3) && !(psCmd 1 0 0 0 100 7).powerBad && ends s t (psCmd 1 0 0 0 100 7) 17 && only s t) = true
    := by decide +kernel
theorem test_powerStage_setTdp_win2 : chk (has st [psCmd 1 0 0 0 100 21]) (.powerStageSetTdp 0) (fun s t => s.phase4 0 0x88 == some
    (psCmd 1 0 0 0 100 21) && s.rb (F.dvRunning 3) && !(psCmd 1 0 0 0 100 21).powerBad && ends s t (psCmd 1 0 0 0 100 21) 17 && only s
    t) = true := by decide +kernel
theorem test_powerStage_reserved_op : chk (has st [psCmd 6 1 0 0 0 0]) (.powerStageRecal 0) (fun s t => s.phase4 0 0x88 == some (psCmd 6
    1 0 0 0 0) && s.rb (F.dvRunning 3) && ends s t (psCmd 6 1 0 0 0 0) 0x11) = true := by decide +kernel
theorem test_powerStage_retire : chk (has st [psCmd 3 0 0 15 0 0]) (.powerStageRetire 0) (fun s t => s.phase4 0 0x88 == some (psCmd 3 0
    0 15 0 0) && s.rb (F.dvRunning 3) && !(psCmd 3 0 0 15 0 0).powerBad && !bit s.hsa.retired 15 && (s.core 15).tile.isNone && bit
    t.hsa.retired 15 && !t.domOn (coreDom 15) && t.cmds.contains ((psCmd 3 0 0 15 0 0).done 0) && bit (t.rf (F.evRaw pgPwr)) 2) = true
    := by decide +kernel
theorem test_powerStage_retire_again : chk (has { st with hsa := { st.hsa with retired := 0x8000 } } [psCmd 3 0 0 15 0 0])
    (.powerStageRetire 0) (fun s t => bit s.hsa.retired 15 && ends s t (psCmd 3 0 0 15 0 0) 0x01 && only s t) = true := by
    decide +kernel
theorem test_powerStage_retire_last : chk (has { st with hsa := { st.hsa with retired := 0x7FFF } } [psCmd 3 0 0 15 0 0])
    (.powerStageRetire 0) (fun s t => !bit s.hsa.retired 15 && setBits s.hsa.retired 15 1 1 % 2 ^ 16 == 0xFFFF && ends s t (psCmd 3 0 0
    15 0 0) 0x11 && only s t) = true := by decide +kernel
theorem test_powerStage_retire_busy : chk (withTile 15 (tile0 3) (has st [psCmd 3 0 0 15 0 0, cm 8 0 4 []])) (.powerStageRetire 0) (fun
    s t => (s.core 15).tile.isSome && (t.core 15).retirePend && t.hsa == s.hsa && t.regs == s.regs) = true := by decide +kernel
theorem test_powerStage_unretire : chk (has (put [(F.domain (coreDom 2), 0)] { st with hsa := { st.hsa with retired := 4 } }) [psCmd 4 0
    0 2 0 0]) (.powerStageUnretire 0) (fun s t => s.phase4 0 0x88 == some (psCmd 4 0 0 2 0 0) && bit s.hsa.retired 2 && !(psCmd 4 0 0 2
    0 0).powerBad && ends s t (psCmd 4 0 0 2 0 0) 0 && !bit t.hsa.retired 2 && t.domOn (coreDom 2)) = true := by decide +kernel
theorem test_powerStage_unretire_not : chk (has st [psCmd 4 0 0 2 0 0]) (.powerStageUnretire 0) (fun s t => !bit s.hsa.retired 2 && ends
    s t (psCmd 4 0 0 2 0 0) 0x01 && only s t) = true := by decide +kernel
theorem test_powerStage_recal : chk (has st [psCmd 2 6 0 0 0 0]) (.powerStageRecal 0) (fun s t => s.phase4 0 0x88 == some (psCmd 2 6 0 0
    0 0) && !(psCmd 2 6 0 0 0 0).powerBad && (psCmd 2 6 0 0 0 0).clusters == [1, 2] && t.pwr.calQ.contains 1 && t.pwr.calQ.contains 2) =
    true := by decide +kernel
theorem test_powerStage_recal_none : chk (has st [psCmd 2 0 0 0 0 0]) (.powerStageRecal 0) (fun s t => (psCmd 2 0 0 0 0
    0).clusters.isEmpty && ends s t (psCmd 2 0 0 0 0 0) 0x01 && only s t) = true := by decide +kernel
theorem test_powerStage_capCheck : chk (has (at' 9) [psCmd 5 0 0 0 0 0]) (.powerStageCapCheck 0) (fun s t => s.phase4 0 0x88 == some
    (psCmd 5 0 0 0 0 0) && s.shepUp && !(psCmd 5 0 0 0 0 0).powerBad && s.rf F.holdState == 0 && t.pwr.cap == 1 && t.pwr.capStart == 9
    && t.regs == s.regs) = true := by decide +kernel
theorem test_powerStage_capCheck_save : chk (has (put [(F.holdState, 4)] st) [psCmd 5 0 0 0 0 0]) (.powerStageCapCheck 0) (fun s t =>
    s.shepUp && s.rf F.holdState == 4 && ends s t (psCmd 5 0 0 0 0 0) 0x11 && only s t) = true := by decide +kernel


/-! Registers, doorbells and restarts. -/

/-- Whether the register of an offset begins there and is 64 bits wide. -/
def wideAt (o : Nat) : Bool := match regAt o with
  | some r => r.row.wide && r.off == o
  | none => false

theorem test_registerWrite_wide_misaligned : chk st (.registerWrite .host 0x4C true 5) (fun s t => s.hostOk && t ==
    { s with pins := { s.pins with rerr := true } }) = true := by decide +kernel
theorem test_registerWrite_misaligned : chk st (.registerWrite .host 0x11062 false 5) (fun s t => s.hostOk && t ==
    { s with pins := { s.pins with rerr := true } }) = true := by decide +kernel
theorem test_registerWrite_wide_of_narrow : chk st (.registerWrite .host 0x11060 true 5) (fun s t => s.hostOk && (regAt 0x11060).isSome
    && !wideAt 0x11060 && t.pins.rerr && t.regs == s.regs) = true := by decide +kernel
theorem test_registerWrite_no_register : chk { st with pins := { st.pins with rerr := true } } (.registerWrite .host 0x3F00 false 5)
    (fun s t => s.hostOk && (regAt 0x3F00).isNone && t == { s with pins := { s.pins with rerr := false } }) = true := by decide +kernel
theorem test_registerWrite_host : chk st (.registerWrite .host 0x11060 false 0x1FFFFFF) (fun s t => s.takes .host 0x11060 && t.rf
    F.provFirst == 0xFFFFFF && same s t [0x11060]) = true := by decide +kernel
theorem test_registerWrite_drover : chk st (.registerWrite (.drover 2) 0x11060 false 0x1FFFFFF) (fun s t => s.takes (.drover 2) 0x11060
    && t.rf F.provFirst == 0xFFFFFF && same s t [0x11060]) = true := by decide +kernel
theorem test_registerWrite_remote : chk st (.registerWrite .remote 0x11060 false 0x1FFFFFF) (fun s t => s.takes .remote 0x11060 && t.rf
    F.provFirst == 0xFFFFFF && same s t [0x11060]) = true := by decide +kernel
theorem test_registerWrite_drover_of_another_page : chk st (.registerWrite (.drover 1) 0x11060 false 7) (fun s t => !s.takes (.drover 1)
    0x11060 && t.regs == s.regs) = true := by decide +kernel
theorem test_regLowHalfWrite : chk st (.regLowHalfWrite .host 0x20130 9) (fun s t => wideAt 0x20130 && s.takes .host 0x20130 && t.wlatch
    == [(0x20130, 9)] && t.regs == s.regs) = true := by decide +kernel
theorem test_registerWrite_high_half : chk (go (.regLowHalfWrite .host 0x20130 9) st) (.registerWrite .host 0x20134 false 7) (fun s t =>
    s.takes .host 0x20134 && tblFind s.wlatch 0x20130 == some 9 && t.rf F.rraData == 9 + 7 * 2 ^ 32 && t.wlatch.isEmpty) = true := by
    decide +kernel
theorem test_registerWrite_high_half_alone : chk (put [(F.rraData, 5 + 3 * 2 ^ 32)] st) (.registerWrite .host 0x20134 false 7) (fun s t
    => s.takes .host 0x20134 && (tblFind s.wlatch 0x20130).isNone && t.rf F.rraData == 5 + 7 * 2 ^ 32) = true := by decide +kernel
theorem test_regLowHalfRead : chk (put [(F.rraData, 5 + 3 * 2 ^ 32)] st) (.regLowHalfRead .host 0x20130) (fun s t => s.hostOk && wideAt
    0x20130 && t.pins.rdata == 5 && !t.pins.rerr && tblFind t.rlatch 0x20130 == some 3) = true := by decide +kernel
theorem test_evRawClear : chk (put [(F.evRaw pgKvd, 7)] st) (.evRawClear .host 0x11018 0xFFFFFFFD) (fun s t => s.takes .host 0x11018 &&
    t.rf (F.evRaw pgKvd) == 2 && same s t [0x11018]) = true := by decide +kernel
theorem test_evEnWrite : chk (put [(F.evRaw pgKvd, 1), (F.evVector pgKvd, 9), (F.evMsgEn pgKvd, 1), (F.vecAddr 9, 0x1000)] st)
    (.evEnWrite .host 0x1101C 1) (fun s t => s.takes .host 0x1101C && s.evPend pgKvd == 0 && t.rf (F.evEn pgKvd) == 1 && t.pins.irqQ ==
    [⟨some 9, 0x1000, 0, none⟩]) = true := by decide +kernel
theorem test_evEnWrite_no_message : chk (put [(F.evRaw pgKvd, 1), (F.evVector pgKvd, 9)] st) (.evEnWrite .host 0x1101C 1) (fun s t =>
    s.takes .host 0x1101C && t.rf (F.evEn pgKvd) == 1 && t.pins.irqQ.isEmpty) = true := by decide +kernel
theorem test_pageQuiesceReq : chk st (.pageQuiesceReq .host (BitVec.ofNat 26 (pgTsq 15 + 0x0C))) (fun s t => regsOk s.regs && s.takes
    .host (pgTsq 15 + 0x0C) && !s.rb (F.pgQuiesceReq (pgTsq 15)) && t.rb (F.pgQuiesceReq (pgTsq 15)) && bit (t.core 15).quiesceReq 0) =
    true := by decide +kernel
theorem test_pageQuiesceRelease : chk (go (.pageQuiesceReq .host (BitVec.ofNat 26 (pgTsq 15 + 0x0C))) st) (.pageQuiesceRelease .host
    (BitVec.ofNat 26 (pgTsq 15 + 0x0C))) (fun s t => regsOk s.regs && s.takes .host (pgTsq 15 + 0x0C) && s.rb (F.pgQuiesceReq (pgTsq
    15)) && !t.rb (F.pgQuiesceReq (pgTsq 15)) && !bit (t.core 15).quiesceReq 0 && !t.rb (F.pgQuiesced (pgTsq 15))) = true := by
    decide +kernel
theorem test_pageResetReq : chk st (.pageResetReq .host (BitVec.ofNat 26 (pgMxe 15 + 0x0C))) (fun s t => s.takes .host (pgMxe 15 + 0x0C)
    && s.domOn (coreDom 15) && !(s.cluster 3).resetting && s.rf F.holdState != 1 && t.rb (F.pgResetReq (pgMxe 15)) && bit (t.core
    15).engRst 0 && t.rb (F.shdEngRst 15)) = true := by decide +kernel
theorem test_pageEnable_kvd : chk st (.pageEnable .host 0x1100C) (fun s t => s.takes .host 0x1100C && !s.pageLocked ⟨.kvd, 0, 0x11000⟩
    && t.rb (F.pgEn pgKvd) && same s t [0x1100C]) = true := by decide +kernel
theorem test_pageEnable_mp : chk st (.pageEnable .host 0x1200C) (fun s t => s.takes .host 0x1200C && !s.pageLocked ⟨.mp, 0, 0x12000⟩ &&
    t.rb (F.pgEn (pgMp 0))) = true := by decide +kernel
theorem test_mxeRampWrite : chk st (.mxeRampWrite .host 15 4111) (fun s t => s.takes .host (pgMxe 15 + 0x44) && !s.pageLocked ⟨.mxe, 15,
    pgMxe 15⟩ && t.rf (F.rampBeats 15) == 4096) = true := by decide +kernel
theorem test_mxeRampWrite_small : chk st (.mxeRampWrite .host 0 255) (fun s t => s.takes .host (pgMxe 0 + 0x44) && !s.pageLocked ⟨.mxe,
    0, pgMxe 0⟩ && t.rf (F.rampBeats 0) == 256 && bit (t.rf (F.evRaw (pgMxe 0))) 1) = true := by decide +kernel
theorem test_ateCtrlWrite : chk st (.ateCtrlWrite .host 2 (1 + 2 * 8)) (fun s t => s.takes .host (pgAte 2 + 0x40) && !s.pageLocked
    ⟨.ate, 2, pgAte 2⟩ && t.rb (F.skipEn 2) && t.rf (F.kvAhead 2) == 8 && !bit (t.rf (F.evRaw (pgAte 2))) 1) = true := by decide +kernel
theorem test_ateCtrlWrite_clamped : chk st (.ateCtrlWrite .host 2 (2 * 9)) (fun s t => s.takes .host (pgAte 2 + 0x40) && t.rf (F.kvAhead
    2) == 8 && bit (t.rf (F.evRaw (pgAte 2))) 1) = true := by decide +kernel
theorem test_epochNsWrite : chk st (.epochNsWrite .host 100) (fun s t => s.takes .host 0x40 && !s.pageLocked ⟨.glb, 0, 0⟩ && t.rf
    F.epochNs == 100) = true := by decide +kernel
theorem test_epochNsWrite_out_of_range : chk st (.epochNsWrite .host 10001) (fun s t => s.takes .host 0x40 && !s.pageLocked ⟨.glb, 0, 0⟩
    && t.rf F.epochNs == 1000) = true := by decide +kernel
theorem test_xltFltCfgWrite : chk (put [(F.fltTail, 9), (F.fltFull, 1)] st) (.xltFltCfgWrite .host 0x80000003) (fun s t => s.takes .host
    0x10048 && !s.pageLocked ⟨.xlt, 0, 0x10000⟩ && !s.rb F.fltEn && t.rb F.fltEn && t.rf F.fltLog2 == 4 && t.rf F.fltTail == 0 && !t.rb
    F.fltFull) = true := by decide +kernel
theorem test_xltFltHeadWrite : chk (put [(F.fltTail, 5)] st) (.xltFltHeadWrite .host 5) (fun s t => s.takes .host 0x10050 && cqHeadOk 5
    0 4 5 && t.rf F.fltHead == 5) = true := by decide +kernel
theorem test_xltFltHeadWrite_refused : chk (put [(F.fltTail, 5)] st) (.xltFltHeadWrite .host 6) (fun s t => s.takes .host 0x10050 &&
    !cqHeadOk 5 0 4 6 && t.rf F.fltHead == 0) = true := by decide +kernel
theorem test_grzCsbInletWrite : chk st (.grzCsbInletWrite .host 0x41) (fun s t => s.takes .host 0x4058 && !s.pageLocked ⟨.grz, 0,
    0x4000⟩ && t.rf (F.csbInlet 0) == 64 && t.rf (F.csbInlet 1) == 0) = true := by decide +kernel
theorem test_grzCsbInletWrite_in_use : chk { st with csbMap := [(63, 65)] } (.grzCsbInletWrite .host 1) (fun s t => s.takes .host 0x4058
    && !s.pageLocked ⟨.grz, 0, 0x4000⟩ && t.rf (F.csbInlet 0) == 0) = true := by decide +kernel
theorem test_kvdProvGo_zero : chk st (.kvdProvGo .host) (fun s t => s.takes .host 0x11068 && s.rf F.provCount == 0 && bit (t.rf (F.evRaw
    pgKvd)) 0 && t.kvd == s.kvd) = true := by decide +kernel
theorem test_kvdProvGo_first_zero : chk (put [(F.provCount, 1)] st) (.kvdProvGo .host) (fun s t => s.takes .host 0x11068 && s.rf
    F.provCount != 0 && s.rf F.provFirst == 0 && t.rf (F.errInfo pgKvd) % 16 == 3 && t.kvd == s.kvd) = true := by decide +kernel
theorem test_emulatedRead : chk st (.emulatedRead 3 0x40 false) (fun s t => s.hostOk && (regAt (emuOff 3 0x40)).isSome && t.emu == [(0,
    0x43040, 0, false)]) = true := by decide +kernel
theorem test_emulatedWrite : chk st (.emulatedWrite .host 3 0x4C 77) (fun s t => s.takes .host (emuOff 3 0x4C) && (regAt (emuOff 3
    0x4C)).isSome && t.emu == [(0, 0x4304C, 77, true)] && t.regs == s.regs) = true := by decide +kernel
theorem test_emulatedWrite_full : chk { st with emu := List.replicate 16 (0, 0x4304C, 1, true) } (.emulatedWrite .host 3 0x4C 77) (fun s
    t => s.takes .host (emuOff 3 0x4C) && t.emu == s.emu && t.rb (F.pgEmuTimeout (pgDv 3))) = true := by decide +kernel
theorem test_emulatedWriteApply : chk { st with emu := [(0, 0x4304C, 0, true)] } (.emulatedWriteApply 3) (fun s t => s.rb (F.dvRunning
    0) && s.emuOf 3 == [(0, pgDv 3 + 0x4C, 0, true)] && t.rf (F.dvSvc 3) == 1 && t.emu.isEmpty) = true := by decide +kernel
theorem test_emuReadAnswer : chk (put [(F.pgEmuTimeout (pgDv 3), 1), (F.dvSvc 3, 55)] { st with emu := [(0, 0x4304C, 0, false)] })
    (.emuReadAnswer 3) (fun s t => s.rb (F.dvRunning 0) && s.emuOf 3 == [(0, 0x4304C, 0, false)] && (regAt 0x4304C).isSome && !wideAt
    0x4304C && t.pins.rdata == 55 && !t.rb (F.pgEmuTimeout (pgDv 3)) && t.emu.isEmpty) = true := by decide +kernel
theorem test_emuReadTimeout : chk { st with emu := [(0, 0x43050, 1, false)] } (.emuReadTimeout 3) (fun s t => (s.emuOf 3).find? (fun e
    => !e.2.2.2) == some (0, 0x43050, 1, false) && t.pins.rdata == 2 ^ 64 - 1 && t.rb (F.pgEmuTimeout (pgDv 3)) && t.emu.isEmpty) = true
    := by decide +kernel

/-- Context 1 active in partition 0, its queue 1 (number 9) enabled with 16 slots. -/
def ctx1 : State := put [(F.ctxState 1, 1), (F.inPart 1, 1), (F.ctxPart 1, 0), (F.qEn 8, 1), (F.qLog2 8, 4), (F.cqLog2 8, 4), (F.qEn 9, 1), (F.qLog2 9, 4), (F.cqLog2 9, 4)] st

theorem test_doorbell : chk ctx1 (.doorbell 9 16) (fun s t => s.hostOk && s.ctxLive 1 && (s.driver 9).isNone && t.rf (F.qTail 9) == 16
    && same s t [(F.qTail 9).off]) = true := by decide +kernel
theorem test_doorbell_too_far : chk ctx1 (.doorbell 9 17) (fun s t => s.hostOk && s.ctxLive 1 && (s.driver 9).isNone && t.rf (F.qTail 9)
    == 0 && t.rb (F.qDbReject 9)) = true := by decide +kernel
theorem test_doorbell_same : chk (put [(F.qTail 9, 4)] ctx1) (.doorbell 9 4) (fun s t => s.hostOk && s.ctxLive 1 && (s.driver 9).isNone
    && t == s) = true := by decide +kernel
theorem test_doorbell_same_at_head : chk (put [(F.qTail 9, 0)] ctx1) (.doorbell 9 0) (fun s t => s.hostOk && s.ctxLive 1 && s.rf
    (F.qTail 9) == s.rf (F.qHead 9) && t == s) = true := by decide +kernel
theorem test_doorbell_inlet : chk (put [(F.siEn 31, 1), (F.siCtx 31, 1), (F.siQueue 31, 1)] ctx1) (.doorbell 9 4) (fun s t => s.hostOk
    && s.ctxLive 1 && s.driver 9 == some 31 && bit (t.rf (F.evRaw (pgSi 31))) 3 && same s t [pgSi 31 + 0x18]) = true := by
    decide +kernel
theorem test_doorbell_free_context : chk st (.doorbell 9 4) (fun s t => !s.ctxLive 1 && t == s) = true := by decide +kernel
theorem test_cqHeadWrite : chk (put [(F.cqTail 9, 3)] ctx1) (.cqHeadWrite 9 3) (fun s t => s.hostOk && s.rf (F.ctxState 1) != 0 && t.rf
    (F.cqHead 9) == 3 && !t.rb (F.qDbReject 9)) = true := by decide +kernel
theorem test_cqHeadWrite_refused : chk (put [(F.cqTail 9, 3)] ctx1) (.cqHeadWrite 9 4) (fun s t => s.hostOk && s.rf (F.ctxState 1) != 0
    && t.rf (F.cqHead 9) == 0 && t.rb (F.qDbReject 9)) = true := by decide +kernel
theorem test_cqHeadWrite_free_context : chk st (.cqHeadWrite 9 3) (fun s t => s.rf (F.ctxState 1) == 0 && t == s) = true := by
    decide +kernel
theorem test_qRestart : chk (put [(F.qHalted 9, 1), (F.qReason 9, 0x14), (F.qHead 9, 2), (F.qTail 9, 5)] ctx1) (.qRestart 9) (fun s t =>
    s.hostOk && s.rb (F.qHalted 9) && s.rb (F.qEn 9) && (s.cmdsOf 9).isEmpty && !t.rb (F.qHalted 9) && t.rf (F.qReason 9) == 0 &&
    (t.queue 9).fetch == 2 && t.rf (F.qTail 9) == 5) = true := by decide +kernel
theorem test_qRestartDiscard : chk (put [(F.qHalted 9, 1), (F.qReason 9, 0x14), (F.qHead 9, 2), (F.qTail 9, 5)] ctx1) (.qRestartDiscard
    9) (fun s t => s.hostOk && s.rb (F.qHalted 9) && s.rb (F.qEn 9) && (s.cmdsOf 9).isEmpty && !t.rb (F.qHalted 9) && (t.queue 9).fetch
    == 2 && t.rf (F.qTail 9) == 2) = true := by decide +kernel
theorem test_qRestart_pending : chk (has (put [(F.qHalted 9, 1)] ctx1) [cm 9 0 4 []]) (.qRestart 9) (fun s t => s.rb (F.qHalted 9) &&
    !(s.cmdsOf 9).isEmpty && t == s) = true := by decide +kernel
theorem test_slotFetch_halted : chk (put [(F.qHalted 9, 1), (F.qTail 9, 5)] ctx1) (.slotFetch 9) (fun s t => s.rb (F.qHalted 9) && t ==
    s) = true := by decide +kernel


/-! Fetch, start, waits, completion, memory responses. -/

/-- Context `c` reads and writes DRAM from `h` through its segment 0, under the PLAIN slot 3. -/
def mapped (c h : Nat) (s : State) : State :=
  let s : State := put [(F.segLimit c 0, 512), (F.segRights c 0, 7), (F.keyBound c, 1), (F.keySlot c, 3), (F.slState 3, 1)] s
  { s with xlt := { s.xlt with tlb := ⟨c, s.rf (F.ctxPart c), 0, 2 ^ 30, h, h, 7, 7, 1, 1⟩ :: s.xlt.tlb } }
/-- Put bytes into DRAM. -/
def poke (a : Nat) (bs : List Byte) (s : State) : State := { s with mem := memPut s.mem a bs }
/-- Context 1 with its DRAM at 1 GiB, and queue 9's slot 0 at offset 0, completion records at offset 0x1000. -/
def c1 : State := put [(F.cqBase 9, 0x1000), (F.qTail 9, 1)] (mapped 1 (2 ^ 30) ctx1)
/-- A NOP slot with SEQ. -/
def nopSlot (seq : Nat) : List Byte := bytesOf 128 [(2, 2, seq), (4, 1, 1)]
/-- The first slot of queue 9 fails its SEQ test. -/
def stale (n e : Nat) : State := put [(F.qRefetches 9, n), (F.epochCount, e)] ((poke (2 ^ 30) (nopSlot 5) c1).modQueue 9 (fun q => { q with refetch := some (0, 0, []) }))
/-- What a read through a context gives, if it succeeds. -/
def reads (r : Except Nat (List Byte) × State) (bs : List Byte) : Bool := match r.1 with
  | .ok b => b == bs
  | .error _ => false

theorem test_slotFetch_full : chk (put [(F.cqTail 9, 16)] (poke (2 ^ 30) (nopSlot 0) c1)) (.slotFetch 9) (fun s t => s.mayFetch 9 &&
    (s.queue 9).refetch.isNone && (s.queue 9).fetch != s.rf (F.qTail 9) && !s.cqRoom 9 && t.rb (F.qCqFull 9) && t.cmds.isEmpty) = true
    := by decide +kernel
theorem test_slotFetch : chk (poke (2 ^ 30) (nopSlot 0) c1) (.slotFetch 9) (fun s t => s.mayFetch 9 && (s.queue 9).refetch.isNone &&
    (s.queue 9).fetch != s.rf (F.qTail 9) && s.cqRoom 9 && reads ((s.wb (F.qCqFull 9) false).readSlot 9 0) (nopSlot 0) && t.cmds ==
    [newCmd 9 0 (nopSlot 0) 1] && (t.queue 9).fetch == 1 && (t.queue 9).reserved == 1) = true := by decide +kernel
theorem test_slotFetch_stale : chk (poke (2 ^ 30) (nopSlot 1) c1) (.slotFetch 9) (fun s t => s.mayFetch 9 && s.cqRoom 9 && reads ((s.wb
    (F.qCqFull 9) false).readSlot 9 0) (nopSlot 1) && t.cmds.isEmpty && (t.queue 9).refetch == some (0, 0, [])) = true := by
    decide +kernel
theorem test_seqRefetch_early : chk (stale 0 0) (.seqRefetch 9) (fun s t => (s.queue 9).refetch == some (0, 0, []) && s.ctxLive 1 &&
    decide (s.now - 0 < s.rf (F.qRefetches 9) / 2 + 1) && t == s) = true := by decide +kernel
theorem test_seqRefetch : chk (stale 6 4) (.seqRefetch 9) (fun s t => (s.queue 9).refetch == some (0, 0, []) && s.ctxLive 1 && decide
    (s.rf (F.qRefetches 9) / 2 + 1 ≤ s.now - 0) && reads (s.readSlot 9 0) (nopSlot 5) && t.rf (F.qRefetches 9) == 7 && t.cmds.isEmpty &&
    (t.queue 9).refetch == some (0, 0, [])) = true := by decide +kernel
theorem test_seqRefetch_last : chk (stale 7 4) (.seqRefetch 9) (fun s t => (s.queue 9).refetch == some (0, 0, []) && s.ctxLive 1 &&
    decide (s.rf (F.qRefetches 9) / 2 + 1 ≤ s.now - 0) && reads (s.readSlot 9 0) (nopSlot 5) && t.rf (F.qRefetches 9) == 8 && t.cmds ==
    [staleCmd 9 0] && (t.queue 9).refetch.isNone) = true := by decide +kernel
theorem test_commandStart : chk (has c1 [cm 9 0 5 [], cm 9 1 0 []]) (.commandStart 9) (fun s t => (match splitStart [] (s.cmdsOf 9)
    with | some (e, c) => e == [cm 9 0 5 []] && c == cm 9 1 0 [] && mayStart e c | none => false) && s.ctxLive 1 && !(cm 9 1 0 []).flag
    1 6 && !(cm 9 1 0 []).flag 1 5 && t.cmds == [cm 9 0 5 [], ({ cm 9 1 4 [] with reached := true } : Cmd)] && t.regs == s.regs) = true
    := by decide +kernel
theorem test_commandStart_fence : chk (has c1 [cm 9 0 5 [], cm 9 1 0 [(1, 1, 16)]]) (.commandStart 9) (fun s t => !mayStart [cm 9 0 5
    []] (cm 9 1 0 [(1, 1, 16)]) && t == s) = true := by decide +kernel

/-- A command that waits until the counter at offset 0x2000 is at least `v`. -/
def waiting (v : Nat) : Cmd := cm 9 0 2 [(1, 1, 32), (24, 8, 0x2000), (32, 8, v)]

theorem test_signalReread_met : chk (has (poke (2 ^ 30 + 0x2000) (natLe 8 7) c1) [waiting 7]) (.signalReread 9) (fun s t => (s.cmdsOf
    9).find? (fun d => d.phase == 2) == some (waiting 7) && reads (s.ctxRead 1 0x2000 8) (natLe 8 7) && t.cmds ==
    [({ waiting 7 with phase := 4, reached := true } : Cmd)]) = true := by decide +kernel
theorem test_signalReread_unmet : chk (has (poke (2 ^ 30 + 0x2000) (natLe 8 7) c1) [waiting 8]) (.signalReread 9) (fun s t => (s.cmdsOf
    9).find? (fun d => d.phase == 2) == some (waiting 8) && t.cmds == [waiting 8]) = true := by decide +kernel
theorem test_nop : chk (has c1 [cm 9 0 4 []]) (.nop 9) (fun s t => s.phase4 9 0 == some (cm 9 0 4 []) && ends s t (cm 9 0 4 []) 0 &&
    only s t) = true := by decide +kernel
theorem test_tiles_empty : chk (has c1 [cm 9 0 4 [(0, 1, 1)]]) (.tiles 9) (fun s t => s.phase4 9 1 == some (cm 9 0 4 [(0, 1, 1)]) &&
    ends s t (cm 9 0 4 [(0, 1, 1)]) 1 && only s t) = true := by decide +kernel
theorem test_tiles : chk (has c1 [cm 9 0 4 [(0, 1, 1), (56, 4, 3)]]) (.tiles 9) (fun s t => (s.phase4 9 1).isSome && t.cmds ==
    [({ cm 9 0 4 [(0, 1, 1), (56, 4, 3)] with tiles := 3, acted := true } : Cmd)]) = true := by decide +kernel

/-- A NOP whose phases have ended with a status. -/
def done (st : Nat) : Cmd := (cm 9 0 4 []).done st

theorem test_commandComplete : chk (has c1 [done 0]) (.commandComplete 9) (fun s t => s.cmdsOf 9 == [done 0] && (done 0).phase == 5 &&
    (done 0).faulted.isNone && !s.hasTile 9 0 && !s.pointersBreak (done 0) && !(done 0).flag 1 1 && (s.putRecord (done 0)).1 == 0 &&
    !(done 0).flag 1 6 && t.cmds.isEmpty && t.rf (F.cqTail 9) == 1 && t.rf (F.qHead 9) == 1 && !t.rb (F.qHalted 9) && leNat (t.rawBytes
    (2 ^ 30 + 0x1000 + 2) 1) == 0) = true := by decide +kernel
theorem test_commandComplete_halts : chk (has c1 [done 0x14]) (.commandComplete 9) (fun s t => s.cmdsOf 9 == [done 0x14] &&
    !s.pointersBreak (done 0x14) && (s.putRecord (done 0x14)).1 == 0 && (done 0x14).haltsQueue && t.rb (F.qHalted 9) && t.rf (F.qReason
    9) == 0x14 && leNat (t.rawBytes (2 ^ 30 + 0x1000 + 2) 1) == 0x14) = true := by decide +kernel
theorem test_commandComplete_stale : chk (has c1 [staleCmd 9 0]) (.commandComplete 9) (fun s t => s.cmdsOf 9 == [staleCmd 9 0] &&
    !s.pointersBreak (staleCmd 9 0) && (staleCmd 9 0).phase == 5 && (s.putRecord (staleCmd 9 0)).1 == 0 && t.rf (F.qHead 9) == 0 && t.rf
    (F.qReason 9) == 0x40) = true := by decide +kernel
theorem test_commandComplete_breaks : chk (put [(F.qTail 9, 0)] (has c1 [done 0])) (.commandComplete 9) (fun s t => s.cmdsOf 9 == [done
    0] && s.pointersBreak (done 0) && resetBy t 3) = true := by decide +kernel

/-- A read of core 2's tile, outstanding on port 0. -/
def txR : Txn := ⟨0, 3, 0, 0x240, 1, false, 3, .tile 2 ⟨false, 0, 0x240, 1⟩, 0, false, [], []⟩
/-- An atomic add of 5 for a SIGNAL of queue 9. -/
def txA : Txn := ⟨0, 1024, 2, 0x240, 1, false, 3, .signal 9 0, 5, false, [], []⟩
/-- Context 1 with one transaction outstanding. -/
def outs (x : Txn) : State := put [(F.mpReads 0, 1), (F.mpWrites 0, 1), (F.slInflight x.slot, 1)] { c1 with txns := [x] }

theorem test_mpReadResponse : chk (outs txR) (.mpReadResponse 0 3 0x0201 true false) (fun s t => s.rf (F.slInflight 3) != 0 && s.txn 0 3
    == some txR && decide (txR.slot < 64) && (t.txn 0 3).isNone && t.rf (F.mpReads 0) == 0 && leNat (t.rawBytes 0x240 2) == 0x0201 &&
    t.rf (F.mpFabErr 0) == 0) = true := by decide +kernel
theorem test_mpReadResponse_failed : chk (outs txR) (.mpReadResponse 0 3 0x0201 false false) (fun s t => s.rf (F.slInflight 3) != 0 &&
    s.txn 0 3 == some txR && t.mem == s.mem && t.rf (F.mpFabErr 0) == 1 && bit (t.rf (F.evRaw (pgMp 0))) 0 && t.rf (F.errCode (pgMp 0))
    == 0x30) = true := by decide +kernel
theorem test_mpReadResponse_poisoned : chk (outs txR) (.mpReadResponse 0 3 0x0201 true true) (fun s t => s.rf (F.slInflight 3) != 0 &&
    s.txn 0 3 == some txR && t.linePoison 0x240 && t.rf (F.mpFabErr 0) == 1) = true := by decide +kernel
theorem test_mpWriteResponse : chk (outs { txW with port := 0, ctx := 1 }) (.mpWriteResponse 0 1024 true) (fun s t => (s.txn 0 1024).any
    (fun x => s.rf (F.slInflight x.slot) != 0) && (t.txn 0 1024).isNone && t.rf (F.mpWrites 0) == 0 && t.mem == s.mem && t.rf
    (F.mpFabErr 0) == 0) = true := by decide +kernel
theorem test_mpWriteResponse_failed : chk (has (outs { txW with port := 0, client := .command 9 0 }) [cm 9 0 4 []]) (.mpWriteResponse 0
    1024 false) (fun s t => (s.txn 0 1024).any (fun x => s.rf (F.slInflight x.slot) != 0) && t.rf (F.mpFabErr 0) == 1 && t.cmds == [(cm
    9 0 4 []).fail 0x30 0xFFFFFFFF]) = true := by decide +kernel
theorem test_mpAtomicResponse : chk (poke 0x240 (natLe 8 (2 ^ 64 - 2)) (outs txA)) (.mpAtomicResponse 0 1024 true) (fun s t => s.rf
    (F.slInflight 3) != 0 && s.txn 0 1024 == some txA && !s.linePoison 0x240 && leNat (t.rawBytes 0x240 8) == 3 && (t.txn 0
    1024).isNone) = true := by decide +kernel
theorem test_mpAtomicResponse_failed : chk (poke 0x240 (natLe 8 7) (outs txA)) (.mpAtomicResponse 0 1024 false) (fun s t => s.rf
    (F.slInflight 3) != 0 && s.txn 0 1024 == some txA && !s.linePoison 0x240 && leNat (t.rawBytes 0x240 8) == 7 && t.rb (F.qHalted 9) &&
    t.rf (F.qReason 9) == 0x30 && bit (t.rf (F.evRaw (pgMp 0))) 4) = true := by decide +kernel
theorem test_response_breaks : chk (put [(F.slInflight 3, 0)] (outs txR)) (.mpReadResponse 0 3 0x0201 true false) (fun s t => s.rf
    (F.slInflight 3) == 0 && s.txn 0 3 == some txR && resetBy t 3) = true := by decide +kernel
theorem test_response_owed : chk { c1 with boot := { c1.boot with discard := [(0, 3)] } } (.mpWriteResponse 0 3 true) (fun s t => (s.txn
    0 3).isNone && t.boot.discard.isEmpty) = true := by decide +kernel

/-! The patrol scrubber. -/

theorem test_patrolScrub_off : chk (put [(F.scrubEn, 0)] st) (.patrolScrubVisit .corrected) (fun s t => !s.rb F.scrubEn && t == s) =
    true := by decide +kernel
theorem test_patrolScrub_clean : chk st (.patrolScrubVisit .clean) (fun s t => s.isReady && s.rb F.scrubEn && t == s) = true := by
    decide +kernel
theorem test_patrolScrub_corrected : chk st (.patrolScrubVisit .corrected) (fun s t => s.isReady && s.rb F.scrubEn && t.rf F.sramCe == 1
    && bit (t.rf (F.evRaw (pgMp 0))) 2) = true := by decide +kernel
theorem test_patrolScrub_cbs : chk (put [(F.cbsValid 15 1, 1)] st) (.patrolScrubVisit (.cbsHalf 15 1 7)) (fun s t => s.isReady && s.rb
    F.scrubEn && (s.core 15).tile.isNone && !t.rb (F.cbsValid 15 1) && t.rf F.sramUe == 1 && bit (t.rf (F.evRaw (pgMp 0))) 3 && bit
    (t.rf (F.evRaw (pgWdu 15))) 1) = true := by decide +kernel
theorem test_patrolScrub_csb : chk st (.patrolScrubVisit (.csb 3 5)) (fun s t => s.isReady && s.rb F.scrubEn && t.csbPoison == [3 * 2 ^
    18 + 5] && t.rf F.sramUe == 1) = true := by decide +kernel
theorem test_patrolScrub_shared : chk st (.patrolScrubVisit (.shared false)) (fun s t => s.isReady && s.rb F.scrubEn && resetBy t 2) =
    true := by decide +kernel

/-! Stream inlets. -/

/-- Inlet 1 enabled for context 1's queue 1: frames of 4 x 2 bytes, slots of 64 bytes, ring at offset 0x4000, frame records at 0x8000,
templates at 0x9000. -/
def si1 : State := put [(F.siEn 1, 1), (F.siCtx 1, 1), (F.siQueue 1, 1), (F.siW 1, 4), (F.siH 1, 2), (F.siCh 1, 1), (F.siRing 1, 0x4000), (F.siSlots 1, 4),
  (F.siSlotBytes 1, 64), (F.siFrec 1, 0x8000), (F.siTmpl 1, 0x9000), (F.siRel 1, 0xA000), (F.siState 1, 1), (F.qTail 9, 0)]
  (poke (2 ^ 30 + 0x9000) (nopSlot 0) c1)
/-- A frame is open on inlet 1, with `n` bytes received. -/
def frame1 (n : Nat) : State := put [(F.siState 1, 2)] (si1.setInlet 1 { Inlet.init with inFrame := true, got := n, bytes := n })

theorem test_siFrameStart : chk si1 (.siFrameStart 1 0xAA 2 false true false) (fun s t => s.siOpen 1 && !(s.inlet 1).inFrame && s.rf
    (F.siState 1) == 1 && !s.siQuiet && decide (s.rf (F.siFrame 1) < (s.inlet 1).release + s.rf (F.siSlots 1)) && decide (sub32 (s.rf
    (F.qTail 9)) (s.rf (F.qHead 9)) < 2 ^ s.rf (F.qLog2 9)) && decide (2 < s.siFrameBytes 1) && decide (2 ≤ s.rf (F.siSlotBytes 1)) &&
    t.rf (F.siState 1) == 2 && (t.inlet 1).inFrame && (t.inlet 1).got == 2 && (t.inlet 1).units == 1) = true := by decide +kernel
theorem test_siFrameStart_quiet : chk (put [(F.pgQuiesceReq 0, 1)] si1) (.siFrameStart 1 0xAA 2 false true false) (fun s t => s.siOpen 1
    && s.siQuiet && s.rf (F.siState 1) == 1 && t.rf (F.siDropped 1) == 1 && bit (t.rf (F.evRaw (pgSi 1))) 1 && t.inlets == s.inlets) =
    true := by decide +kernel
theorem test_siDataWord : chk (frame1 0) (.siDataWord 1 0x04030201 4 false false) (fun s t => s.siOpen 1 && (s.inlet 1).inFrame &&
    decide ((s.inlet 1).got + 4 < s.siFrameBytes 1) && decide ((s.inlet 1).bytes + 4 ≤ s.rf (F.siSlotBytes 1)) && decide ((s.inlet
    1).bytes % 64 + 4 < 64) && (t.inlet 1).got == 4 && (t.inlet 1).part == [1, 2, 3, 4]) = true := by decide +kernel
theorem test_siFrameEnd : chk (frame1 0) (.siFrameEnd 1 0 0 false false) (fun s t => s.siOpen 1 && (s.inlet 1).inFrame && (s.inlet
    1).part.isEmpty && decide ((s.inlet 1).got < s.siFrameBytes 1) && t.rf (F.siFrame 1) == 1 && t.rf (F.siState 1) == 1 && !(t.inlet
    1).inFrame && t.rf (F.qTail 9) == 1) = true := by decide +kernel
theorem test_siRstNAssert : chk (frame1 3) (.siRstNAssert 1) (fun s t => (s.inlet 1).inFrame && t.pins.resync.contains (.si 1) && t.rf
    (F.siDropped 1) == 1 && !(t.inlet 1).inFrame && t.rf (F.siState 1) == 1) = true := by decide +kernel
theorem test_siRstNAssert_idle : chk si1 (.siRstNAssert 1) (fun s t => !(s.inlet 1).inFrame && t.regs == s.regs &&
    t.pins.resync.contains (.si 1)) = true := by decide +kernel
theorem test_siFrameTimeout : chk (put [(F.siTimeout 1, 10), (F.epochCount, 10)] (frame1 0)) (.siFrameTimeout 1) (fun s t => s.isReady
    && (s.inlet 1).inFrame && s.rf (F.siTimeout 1) != 0 && decide (s.rf (F.siTimeout 1) ≤ s.now - (s.inlet 1).last) && (s.inlet
    1).part.isEmpty && t.rf (F.siFrame 1) == 1 && bit (t.rf (F.evRaw (pgSi 1))) 2 && t.rf (F.siState 1) == 1) = true := by
    decide +kernel
theorem test_siEnable : chk (put [(F.siEn 1, 0), (F.siState 1, 0), (F.siFrame 1, 9)] si1) (.siEnable .host 1 0) (fun s t => s.takes
    .host (pgSi 1 + 0x40) && !s.pageLocked ⟨.si, 1, pgSi 1⟩ && !s.rb (F.siEn 1) && (s.wf (F.siFormat 1) 0).siRefuse 1 == 0 && t.rb
    (F.siEn 1) && t.rf (F.siFrame 1) == 0 && t.rf (F.siState 1) == 1 && t.driver 9 == some 1) = true := by decide +kernel
theorem test_siEnable_zero : chk (put [(F.siEn 1, 0), (F.siW 1, 0)] si1) (.siEnable .host 1 0) (fun s t => !s.rb (F.siEn 1) && s.rf
    (F.siW 1) == 0 && (s.wf (F.siFormat 1) 0).siRefuse 1 == 0x10 && !t.rb (F.siEn 1) && bit (t.rf (F.evRaw (pgSi 1))) 4 && t.rf
    (F.errCode (pgSi 1)) == 0x10) = true := by decide +kernel
theorem test_siEnable_format : chk (put [(F.siEn 1, 0)] si1) (.siEnable .host 1 9) (fun s t => !s.rb (F.siEn 1) && (s.wf (F.siFormat 1)
    9).siRefuse 1 == 0x11 && !t.rb (F.siEn 1) && t.rf (F.errCode (pgSi 1)) == 0x11) = true := by decide +kernel
theorem test_siEnable_steward : chk (put [(F.siEn 1, 0), (F.siQueue 1, 0)] si1) (.siEnable .host 1 0) (fun s t => (s.wf (F.siFormat 1)
    0).siRefuse 1 == 0x11 && !t.rb (F.siEn 1)) = true := by decide +kernel
theorem test_siDisable : chk (frame1 3) (.siDisable .host 1 0) (fun s t => s.takes .host (pgSi 1 + 0x40) && !s.pageLocked ⟨.si, 1, pgSi
    1⟩ && s.rb (F.siEn 1) && !t.rb (F.siEn 1) && t.rf (F.siState 1) == 0 && t.rf (F.siDropped 1) == 1 && (t.driver 9).isNone) = true :=
    by decide +kernel


/-! Coachway ports, flits and the flock. -/

/-- Port 1 is UP under a session key of zero, this member is number 0. -/
def lk1 : State := put [(F.lkEn 1, 1), (F.lkState 1, 3), (F.route 0, 4), (F.pgEn (pgLk 1), 1)]
  (st.setLink 1 { Link.init with cred := [64, 64, 32, 32, 16, 16] })
/-- Port 1 UP on the Bellwether. -/
def bw1 : State := put [(F.flkBw, 1)] lk1
/-- A header with the fields that the tests vary. -/
def hd (typ cls len opId group ctx : Nat) : Hdr :=
  { dst := 0, cls := cls, src := 5, dl := 0, typ := typ, flock := 0, ctx := ctx, key := 127, gen := 0, len := len, step := 0, opId := opId, group := group }
/-- The flit that port 1's peer sends under the count 0. -/
def fl (h : Hdr) (pay : List Byte) : Flit := (lk1.sealFlit 1 h pay 0 7 0).1
/-- The nonce of that flit. -/
def nc : BitVec 96 := 256
/-- A flit held for resend, resent `n` times. -/
def held (n : Nat) : Held := ⟨n, 127, 4, 0⟩
/-- Nothing but the flit's own effect follows it on port 1. -/
def quiet1 (s : State) : Bool := s.isReady && s.xing (.lk 1) && s.flock.colls.isEmpty && s.flock.due.isNone && (s.link 1).waitQ.isEmpty &&
  (s.link 1).held.all (fun e => decide (e.key < 128))
/-- The flit passes the checks of R453 with a payload. -/
def taken (s : State) (f : Flit) (pay : List Byte) : Bool := flitLseq f.toNat == (s.link 1).rxSeq && (hdrOf f.toNat).key == 127 &&
  (match openFlit (s.flitKey 1 127) (natL 12 nc.toNat) f with | some b => pay == b.take (min 224 (hdrOf f.toNat).len) | none => false)
/-- The flit ends at this member. -/
def endsHere (s : State) (f : Flit) (pay : List Byte) : Bool := quiet1 s && s.rf (F.lkState 1) == 3 && taken s f pay &&
  typeClass (hdrOf f.toNat).typ == some (hdrOf f.toNat).cls && (hdrOf f.toNat).flock == s.rf F.flockId && s.routeTo (hdrOf f.toNat).dst == 4 &&
  (decide (2 ≤ (hdrOf f.toNat).cls) || s.ctxLive (hdrOf f.toNat).ctx)
/-! The flits of these tests, sealed once with `fl` (the kernel is slow at sealing). -/
/-- `fl (hd 0 2 0 0 0 0) []`. -/
def fl00 : Flit :=
  0x229a19dd7e1c75e688c3ed3ca5b15f9c0fdf9c551d2b75a1231e5201696f1d78f0d2cebb91d70be7f0c17926f0a1667903e536244e50bd659cfb4bd35beb9893#512 ++
  0x86ec9c7d12487e5dffc1931c1e3418b20516a3fafdfd7d912fd56ab8fbbc37cf5a5bde990c5156e4576c07a5ab5bc192b7150aad9a11f884de8bff3b2848bf13#512 ++
  0x69bbfc6291c1a6647f5c14f46939fe4ef730d394098591ef522a530c1b5e3648849667d17bf01e2664e4b4deb29a335f758571874a0a98efce13a801ce4e1abc#512 ++
  0x5f33476d713c9aa9778076c917274a873e4cbc530b2b6a5b3eab38f0de2aa1bcdd05452bbd41fd014b7ae079da8089e90000000007000000007f000000000580#512
/-- `fl (hd 1 2 0 0 0 0) []`. -/
def fl01 : Flit :=
  0xb9f089f92e4869c749d6fb79cde5f4400fdf9c551d2b75a1231e5201696f1d78f0d2cebb91d70be7f0c17926f0a1667903e536244e50bd659cfb4bd35beb9893#512 ++
  0x86ec9c7d12487e5dffc1931c1e3418b20516a3fafdfd7d912fd56ab8fbbc37cf5a5bde990c5156e4576c07a5ab5bc192b7150aad9a11f884de8bff3b2848bf13#512 ++
  0x69bbfc6291c1a6647f5c14f46939fe4ef730d394098591ef522a530c1b5e3648849667d17bf01e2664e4b4deb29a335f758571874a0a98efce13a801ce4e1abc#512 ++
  0x5f33476d713c9aa9778076c917274a873e4cbc530b2b6a5b3eab38f0de2aa1bcdd05452bbd41fd014b7ae079da8089e90000000007000000007f000000010580#512
/-- `fl (hd 6 2 0 0 0 0) []`. -/
def fl02 : Flit :=
  0x7be578069ee53c200ebf99a2d448a4110fdf9c551d2b75a1231e5201696f1d78f0d2cebb91d70be7f0c17926f0a1667903e536244e50bd659cfb4bd35beb9893#512 ++
  0x86ec9c7d12487e5dffc1931c1e3418b20516a3fafdfd7d912fd56ab8fbbc37cf5a5bde990c5156e4576c07a5ab5bc192b7150aad9a11f884de8bff3b2848bf13#512 ++
  0x69bbfc6291c1a6647f5c14f46939fe4ef730d394098591ef522a530c1b5e3648849667d17bf01e2664e4b4deb29a335f758571874a0a98efce13a801ce4e1abc#512 ++
  0x5f33476d713c9aa9778076c917274a873e4cbc530b2b6a5b3eab38f0de2aa1bcdd05452bbd41fd014b7ae079da8089e90000000007000000007f000000060580#512
/-- `fl { hd 6 2 0 0 0 0 with key := 9 } []`. -/
def fl03 : Flit :=
  0x94c76bb5660d6e08e29768088c92b82e0fdf9c551d2b75a1231e5201696f1d78f0d2cebb91d70be7f0c17926f0a1667903e536244e50bd659cfb4bd35beb9893#512 ++
  0x86ec9c7d12487e5dffc1931c1e3418b20516a3fafdfd7d912fd56ab8fbbc37cf5a5bde990c5156e4576c07a5ab5bc192b7150aad9a11f884de8bff3b2848bf13#512 ++
  0x69bbfc6291c1a6647f5c14f46939fe4ef730d394098591ef522a530c1b5e3648849667d17bf01e2664e4b4deb29a335f758571874a0a98efce13a801ce4e1abc#512 ++
  0x5f33476d713c9aa9778076c917274a873e4cbc530b2b6a5b3eab38f0de2aa1bcdd05452bbd41fd014b7ae079da8089e900000000070000000009000000060580#512
/-- `fl (hd 6 1 0 0 0 0) []`. -/
def fl04 : Flit :=
  0x4cea42edb189271c317641325b8697110fdf9c551d2b75a1231e5201696f1d78f0d2cebb91d70be7f0c17926f0a1667903e536244e50bd659cfb4bd35beb9893#512 ++
  0x86ec9c7d12487e5dffc1931c1e3418b20516a3fafdfd7d912fd56ab8fbbc37cf5a5bde990c5156e4576c07a5ab5bc192b7150aad9a11f884de8bff3b2848bf13#512 ++
  0x69bbfc6291c1a6647f5c14f46939fe4ef730d394098591ef522a530c1b5e3648849667d17bf01e2664e4b4deb29a335f758571874a0a98efce13a801ce4e1abc#512 ++
  0x5f33476d713c9aa9778076c917274a873e4cbc530b2b6a5b3eab38f0de2aa1bcdd05452bbd41fd014b7ae079da8089e90000000007000000007f000000060540#512
/-- `fl { hd 6 2 0 0 0 0 with flock := 3 } []`. -/
def fl05 : Flit :=
  0xc45515f662c15f633085561a28b55bc10fdf9c551d2b75a1231e5201696f1d78f0d2cebb91d70be7f0c17926f0a1667903e536244e50bd659cfb4bd35beb9893#512 ++
  0x86ec9c7d12487e5dffc1931c1e3418b20516a3fafdfd7d912fd56ab8fbbc37cf5a5bde990c5156e4576c07a5ab5bc192b7150aad9a11f884de8bff3b2848bf13#512 ++
  0x69bbfc6291c1a6647f5c14f46939fe4ef730d394098591ef522a530c1b5e3648849667d17bf01e2664e4b4deb29a335f758571874a0a98efce13a801ce4e1abc#512 ++
  0x5f33476d713c9aa9778076c917274a873e4cbc530b2b6a5b3eab38f0de2aa1bcdd05452bbd41fd014b7ae079da8089e90000000007000000007f000003060580#512
/-- `fl (hd 2 2 10 0 0 0) (discBody 1 0 1 0)`. -/
def fl06 : Flit :=
  0xe177a7ba6145f137ab1b45323fb739c30fdf9c551d2b75a1231e5201696f1d78f0d2cebb91d70be7f0c17926f0a1667903e536244e50bd659cfb4bd35beb9893#512 ++
  0x86ec9c7d12487e5dffc1931c1e3418b20516a3fafdfd7d912fd56ab8fbbc37cf5a5bde990c5156e4576c07a5ab5bc192b7150aad9a11f884de8bff3b2848bf13#512 ++
  0x69bbfc6291c1a6647f5c14f46939fe4ef730d394098591ef522a530c1b5e3648849667d17bf01e2664e4b4deb29a335f758571874a0a98efce13a801ce4e1abc#512 ++
  0x5f33476d713c9aa9778076c917274a873e4cbc530b2b6a5b3eab38f0de2aa1bcdd05452bbd41fd014b7ae079da8189e80000000a07000000007f000000020580#512
/-- `fl (hd 3 2 72 0 0 0) replyPay`. -/
def fl07 : Flit :=
  0x701acf3bbad9f06b866541cb29d787eb0fdf9c551d2b75a1231e5201696f1d78f0d2cebb91d70be7f0c17926f0a1667903e536244e50bd659cfb4bd35beb9893#512 ++
  0x86ec9c7d12487e5dffc1931c1e3418b20516a3fafdfd7d912fd56ab8fbbc37cf5a5bde990c5156e4576c07a5ab5bc192b7150aad9a11f884de8bff3b2848bf13#512 ++
  0x69bbfc6291c1a6647f5c14f46939fe4ef730d394098591ef522a530c1b5e3648849667d17bf01e2664e4b4deb29a335f758571874a0a98efce13a801ce4e1abc#512 ++
  0x5f33476d713c9aa9778076c917274a873e4cbc790b2b68583eab38f0de2aa1dfdd05452bbd41fd014b7ae079da8189e80000004807000000007f000000030580#512
/-- `fl { hd 4 2 80 0 0 0 with flock := 9 } routePay`. -/
def fl08 : Flit :=
  0xbe1e5e3a6d6e039542f181bebe4c7f990fdf9c551d2b75a1231e5201696f1d78f0d2cebb91d70be7f0c17926f0a1667903e536244e50bd659cfb4bd35beb9893#512 ++
  0x86ec9c7d12487e5dffc1931c1e3418b20516a3fafdfd7d912fd56ab8fbbc37cf5a5bde990c5156e4576c07a5ab5bc192b7150aad9a11f884de8bff3b2848bf13#512 ++
  0x69bbfc6291c1a6647f5c14f46939fe4ef730d394098591ef522a530c1b5e3648849667d17bf01e2664e4b4deb29a335f758571874a0a98efce13a801ce4e1abc#512 ++
  0x5f33476d713c9aa9778076c917274a873e4cbc530b2b6a5b3eab38f0de2aa1bcdd05452bbd41fd014b7ee47bd88288ea0000005007000000007f000009040580#512
/-- `fl (hd 5 2 0 0 0 0) []`. -/
def fl09 : Flit :=
  0xd75ac86b6e1918434d81a36d6cb459b60fdf9c551d2b75a1231e5201696f1d78f0d2cebb91d70be7f0c17926f0a1667903e536244e50bd659cfb4bd35beb9893#512 ++
  0x86ec9c7d12487e5dffc1931c1e3418b20516a3fafdfd7d912fd56ab8fbbc37cf5a5bde990c5156e4576c07a5ab5bc192b7150aad9a11f884de8bff3b2848bf13#512 ++
  0x69bbfc6291c1a6647f5c14f46939fe4ef730d394098591ef522a530c1b5e3648849667d17bf01e2664e4b4deb29a335f758571874a0a98efce13a801ce4e1abc#512 ++
  0x5f33476d713c9aa9778076c917274a873e4cbc530b2b6a5b3eab38f0de2aa1bcdd05452bbd41fd014b7ae079da8089e90000000007000000007f000000050580#512
/-- `fl (hd 7 0 13 0 0 0) reqPay`. -/
def fl10 : Flit :=
  0x2845a89f4951e933f7440d3255d50e980fdf9c551d2b75a1231e5201696f1d78f0d2cebb91d70be7f0c17926f0a1667903e536244e50bd659cfb4bd35beb9893#512 ++
  0x86ec9c7d12487e5dffc1931c1e3418b20516a3fafdfd7d912fd56ab8fbbc37cf5a5bde990c5156e4576c07a5ab5bc192b7150aad9a11f884de8bff3b2848bf13#512 ++
  0x69bbfc6291c1a6647f5c14f46939fe4ef730d394098591ef522a530c1b5e3648849667d17bf01e2664e4b4deb29a335f758571874a0a98efce13a801ce4e1abc#512 ++
  0x5f33476d713c9aa9778076c917274a873e4cbc530b2b6a5b3eab38f0de2aa1bcdd05452bbd41fd014b7aad78da8199890000000d07000000007f000000070500#512
/-- `fl (hd 8 1 8 6 0 0) (natLe 8 1234)`. -/
def fl11 : Flit :=
  0xe7a5b3f5d2725230cb93b2194ea33b4d0fdf9c551d2b75a1231e5201696f1d78f0d2cebb91d70be7f0c17926f0a1667903e536244e50bd659cfb4bd35beb9893#512 ++
  0x86ec9c7d12487e5dffc1931c1e3418b20516a3fafdfd7d912fd56ab8fbbc37cf5a5bde990c5156e4576c07a5ab5bc192b7150aad9a11f884de8bff3b2848bf13#512 ++
  0x69bbfc6291c1a6647f5c14f46939fe4ef730d394098591ef522a530c1b5e3648849667d17bf01e2664e4b4deb29a335f758571874a0a98efce13a801ce4e1abc#512 ++
  0x5f33476d713c9aa9778076c917274a873e4cbc530b2b6a5b3eab38f0de2aa1bcdd05452bbd41fd014b7ae079da808d3b0006000807000000007f000000080540#512
/-- `fl (hd 9 0 7 0 0 1) (bytesOf 7 [(0, 2, 9), (3, 4, 5)])`. -/
def fl12 : Flit :=
  0x348074716d7213f3bc020c2fd86928600fdf9c551d2b75a1231e5201696f1d78f0d2cebb91d70be7f0c17926f0a1667903e536244e50bd659cfb4bd35beb9893#512 ++
  0x86ec9c7d12487e5dffc1931c1e3418b20516a3fafdfd7d912fd56ab8fbbc37cf5a5bde990c5156e4576c07a5ab5bc192b7150aad9a11f884de8bff3b2848bf13#512 ++
  0x69bbfc6291c1a6647f5c14f46939fe4ef730d394098591ef522a530c1b5e3648849667d17bf01e2664e4b4deb29a335f758571874a0a98efce13a801ce4e1abc#512 ++
  0x5f33476d713c9aa9778076c917274a873e4cbc530b2b6a5b3eab38f0de2aa1bcdd05452bbd41fd014b7ae079df8089e00000000707000000007f000100090500#512
/-- `fl (hd 10 0 3 0 0 0) (bytesOf 3 [])`. -/
def fl13 : Flit :=
  0x2821d10197a1532af668ac8a84bdffe60fdf9c551d2b75a1231e5201696f1d78f0d2cebb91d70be7f0c17926f0a1667903e536244e50bd659cfb4bd35beb9893#512 ++
  0x86ec9c7d12487e5dffc1931c1e3418b20516a3fafdfd7d912fd56ab8fbbc37cf5a5bde990c5156e4576c07a5ab5bc192b7150aad9a11f884de8bff3b2848bf13#512 ++
  0x69bbfc6291c1a6647f5c14f46939fe4ef730d394098591ef522a530c1b5e3648849667d17bf01e2664e4b4deb29a335f758571874a0a98efce13a801ce4e1abc#512 ++
  0x5f33476d713c9aa9778076c917274a873e4cbc530b2b6a5b3eab38f0de2aa1bcdd05452bbd41fd014b7ae079da8089e90000000307000000007f0000000a0500#512
/-- `fl (hd 11 1 0 4 2 1) []`. -/
def fl14 : Flit :=
  0xf651b8ac873241fe672a562221c616390fdf9c551d2b75a1231e5201696f1d78f0d2cebb91d70be7f0c17926f0a1667903e536244e50bd659cfb4bd35beb9893#512 ++
  0x86ec9c7d12487e5dffc1931c1e3418b20516a3fafdfd7d912fd56ab8fbbc37cf5a5bde990c5156e4576c07a5ab5bc192b7150aad9a11f884de8bff3b2848bf13#512 ++
  0x69bbfc6291c1a6647f5c14f46939fe4ef730d394098591ef522a530c1b5e3648849667d17bf01e2664e4b4deb29a335f758571874a0a98efce13a801ce4e1abc#512 ++
  0x5f33476d713c9aa9778076c917274a873e4cbc530b2b6a5b3eab38f0de2aa1bcdd05452bbd41fd014b7ae079da8089e90804000007000000007f0001000b0540#512
/-- `fl (hd 12 0 32 3 2 1) (List.replicate 32 9)`. -/
def fl15 : Flit :=
  0xea4dda3184e5e60c16dcd5a52e5cf8380fdf9c551d2b75a1231e5201696f1d78f0d2cebb91d70be7f0c17926f0a1667903e536244e50bd659cfb4bd35beb9893#512 ++
  0x86ec9c7d12487e5dffc1931c1e3418b20516a3fafdfd7d912fd56ab8fbbc37cf5a5bde990c5156e4576c07a5ab5bc192b7150aad9a11f884de8bff3b2848bf13#512 ++
  0x69bbfc6291c1a6647f5c14f46939fe4ef730d394098591ef522a530c1b5e3648849667d17bf01e2664e4b4deb29a335f758571874a0a98efce13a801ce4e1abc#512 ++
  0x5f33476d713c9aa9778076c917274a873745b55a0222635237a231f9d723a8b5d40c4c22b448f4084273e970d38980e00803002007000000007f0001000c0500#512
/-- `fl (hd 13 2 36 0 0 0) (keyBody 1 63 8 5)`. -/
def fl16 : Flit :=
  0xa0fc9fbbc7bfe18859c59206083c8e160fdf9c551d2b75a1231e5201696f1d78f0d2cebb91d70be7f0c17926f0a1667903e536244e50bd659cfb4bd35beb9893#512 ++
  0x86ec9c7d12487e5dffc1931c1e3418b20516a3fafdfd7d912fd56ab8fbbc37cf5a5bde990c5156e4576c07a5ab5bc192b7150aad9a11f884de8bff3b2848bf13#512 ++
  0x69bbfc6291c1a6647f5c14f46939fe4ef730d394098591ef522a530c1b5e3648849667d17bf01e2664e4b4deb29a335f758571874a0a98efce13a801ce4e1abc#512 ++
  0x5f33476d713c9aa9778076c912274a873e4cbc530b2b6a5b3eab38f0de2aa1bcdd05452bbd41fd014b7ae079da88b6e80000002407000000007f0000000d0580#512
/-- `fl (hd 13 2 36 0 0 0) (keyBody 4 63 8 0)`. -/
def fl17 : Flit :=
  0x05a84edb0dc393a41e1d5ec7a93402b30fdf9c551d2b75a1231e5201696f1d78f0d2cebb91d70be7f0c17926f0a1667903e536244e50bd659cfb4bd35beb9893#512 ++
  0x86ec9c7d12487e5dffc1931c1e3418b20516a3fafdfd7d912fd56ab8fbbc37cf5a5bde990c5156e4576c07a5ab5bc192b7150aad9a11f884de8bff3b2848bf13#512 ++
  0x69bbfc6291c1a6647f5c14f46939fe4ef730d394098591ef522a530c1b5e3648849667d17bf01e2664e4b4deb29a335f758571874a0a98efce13a801ce4e1abc#512 ++
  0x5f33476d713c9aa9778076c917274a873e4cbc530b2b6a5b3eab38f0de2aa1bcdd05452bbd41fd014b7ae079da88b6ed0000002407000000007f0000000d0580#512
/-- `fl (hd 13 2 8 0 0 0) (List.replicate 8 1)`. -/
def fl18 : Flit :=
  0x0a9b8f6fa6ddec10e558a759d5324f360fdf9c551d2b75a1231e5201696f1d78f0d2cebb91d70be7f0c17926f0a1667903e536244e50bd659cfb4bd35beb9893#512 ++
  0x86ec9c7d12487e5dffc1931c1e3418b20516a3fafdfd7d912fd56ab8fbbc37cf5a5bde990c5156e4576c07a5ab5bc192b7150aad9a11f884de8bff3b2848bf13#512 ++
  0x69bbfc6291c1a6647f5c14f46939fe4ef730d394098591ef522a530c1b5e3648849667d17bf01e2664e4b4deb29a335f758571874a0a98efce13a801ce4e1abc#512 ++
  0x5f33476d713c9aa9778076c917274a873e4cbc530b2b6a5b3eab38f0de2aa1bcdd05452bbd41fd014a7be178db8188e80000000807000000007f0000000d0580#512

theorem test_lkPhyLoss_up : chk lk1 (.lkPhyLoss 1 false) (fun s t => s.isReady && s.flock.due.isNone && s.rf (F.lkState 1) == 3 && t.rf
    (F.lkState 1) == 6 && bit (t.rf (F.evRaw (pgLk 1))) 0) = true := by decide +kernel
theorem test_lkPhyLoss_training : chk (put [(F.lkState 1, 1)] lk1) (.lkPhyLoss 1 false) (fun s t => s.isReady && s.flock.due.isNone &&
    s.rf (F.lkState 1) == 1 && t.rf (F.lkState 1) == 0) = true := by decide +kernel
theorem test_lkTrainDone_odd : chk (put [(F.lkState 1, 1)] lk1) (.lkTrainDone 1) (fun s t => s.isReady && s.rf (F.lkState 1) == 1 &&
    t.rf (F.lkState 1) == 2 && (t.link 1).cred == [64, 64, 32, 32, 16, 16] && (t.link 1).rxSeq == 0) = true := by decide +kernel
theorem test_lkTrainDone_even : (fun s : State => s.isReady && s.rf (F.lkState 2) == 1) (put [(F.lkState 2, 1)] lk1) = true := by
    decide +kernel
theorem test_lkSessionKeyed : (fun s : State => s.isReady && s.shepUp && s.rf (F.lkState 1) == 2 && s.flock.due.isNone) (put [(F.lkState
    1, 2)] lk1) = true := by decide +kernel
theorem test_linkAckTimeout : chk (put [(F.epochCount, 8)] (lk1.setLink 1 { lk1.link 1 with held := [held 3] })) (.linkAckTimeout 1)
    (fun s t => s.flock.due.isNone && (s.link 1).held == [held 3] && decide (8 ≤ s.now - (s.link 1).ackStart) && s.rf (F.lkState 1) == 3
    && (t.link 1).held == [held 4] && t.rf (F.lkRetries 1) == 1 && (t.link 1).sent == [0] && t.rf (F.lkState 1) == 3) = true := by
    decide +kernel
theorem test_linkAckTimeout_last : chk (put [(F.epochCount, 8)] (lk1.setLink 1 { lk1.link 1 with held := [held 4] })) (.linkAckTimeout
    1) (fun s t => (s.link 1).held == [held 4] && decide (8 ≤ s.now - (s.link 1).ackStart) && t.rf (F.lkState 1) == 6 && (t.link
    1).held.isEmpty) = true := by decide +kernel
theorem test_linkSilenceExpiry : chk (put [(F.epochCount, 64)] lk1) (.linkSilenceExpiry 1) (fun s t => s.flock.due.isNone && s.rf
    (F.lkState 1) == 3 && decide (64 ≤ s.now - (s.link 1).lastRx) && t.rf (F.lkState 1) == 6 && bit (t.rf (F.evRaw (pgLk 1))) 0) = true
    := by decide +kernel
theorem test_flkTrainExpiry : chk (put [(F.lkState 1, 1), (F.epochCount, 2 ^ 32)] lk1) (.flkTrainExpiry 1) (fun s t =>
    s.flock.due.isNone && s.rf (F.lkState 1) == 1 && decide (s.rf F.flkTrain ≤ s.now - (s.link 1).start) && t.rf (F.lkState 1) == 0) =
    true := by decide +kernel
theorem test_flkSilentExpiry : chk (put [(F.lkState 1, 2), (F.epochCount, 2 ^ 32)] lk1) (.flkSilentExpiry 1) (fun s t =>
    s.flock.due.isNone && s.rf (F.lkState 1) == 2 && decide (s.rf F.flkSilent ≤ s.now - (s.link 1).start) && t.rf (F.lkState 1) == 4) =
    true := by decide +kernel
theorem test_lkEnable : chk (put [(F.lkEn 1, 0), (F.lkState 1, 0)] { lk1 with pins := { lk1.pins with phyReady := 2 } }) (.lkEnable
    .host 1) (fun s t => s.takes .host (pgLk 1 + 0x40) && !s.pageLocked ⟨.lk, 1, pgLk 1⟩ && !s.rb (F.lkEn 1) && t.rb (F.lkEn 1) && t.rf
    (F.lkState 1) == 1) = true := by decide +kernel
theorem test_lkDisable : chk lk1 (.lkDisable .host 1) (fun s t => s.takes .host (pgLk 1 + 0x40) && !s.pageLocked ⟨.lk, 1, pgLk 1⟩ &&
    s.flock.due.isNone && s.rb (F.lkEn 1) && !t.rb (F.lkEn 1) && t.rf (F.lkState 1) == 0) = true := by decide +kernel
theorem test_flit_port_down : chk (put [(F.lkState 1, 6)] lk1) (.idleFlit 1 nc 0) (fun s t => quiet1 s && s.rf (F.lkState 1) == 6 && t
    == s) = true := by decide +kernel
theorem test_idleFlit : chk lk1 (.idleFlit 1 nc fl00) (fun s t => quiet1 s && (openFlit (s.flitKey 1 127) (natL 12 nc.toNat)
    fl00).isSome && t.rf (F.lkRx 1) == 1 && (t.link 1).rxSeq == 0) = true := by decide +kernel
theorem test_idleFlit_bad_tag : chk lk1 (.idleFlit 1 nc (fl00 ^^^ (1#2048 <<< 2000))) (fun s t => (openFlit (s.flitKey 1 127) (natL 12
    nc.toNat) (fl00 ^^^ (1#2048 <<< 2000))).isNone && t == s) = true := by decide +kernel
theorem test_nak : chk (lk1.setLink 1 { lk1.link 1 with held := [held 3] }) (.nak 1 nc fl01) (fun s t => quiet1 s && (s.link 1).held.all
    (fun e => decide (e.resent < 4)) && t.rf (F.lkRx 1) == 1) = true := by decide +kernel
theorem test_flit_wrong_lseq : chk (lk1.setLink 1 { lk1.link 1 with rxSeq := 1 }) (.hbAck 1 nc fl02) (fun s t => quiet1 s && s.takesKey
    1 fl02 && flitLseq fl02.toNat == 0 && t == s) = true := by decide +kernel
theorem test_flit_stale_key : chk lk1 (.hbAck 1 nc fl03) (fun s t => quiet1 s && s.rf (F.slState 9) == 0 && (hdrOf fl03.toNat).key == 9
    && t.rf (F.lkStale 1) == 1 && bit (t.rf (F.evRaw (pgLk 1))) 1 && (t.link 1).rxSeq == 1) = true := by decide +kernel
theorem test_flit_bad_tag : chk lk1 (.hbAck 1 nc (fl02 ^^^ (1#2048 <<< 2000))) (fun s t => quiet1 s && (s.link 1).rejects == 0 &&
    (openFlit (s.flitKey 1 127) (natL 12 nc.toNat) (fl02 ^^^ (1#2048 <<< 2000))).isNone && (t.link 1).rejects == 1 && t.rf (F.lkTx 1) ==
    1 && t.rf (F.lkState 1) == 3) = true := by decide +kernel
theorem test_flit_bad_tag_last : chk (lk1.setLink 1 { lk1.link 1 with rejects := 4 }) (.hbAck 1 nc (fl02 ^^^ (1#2048 <<< 2000))) (fun s
    t => quiet1 s && (s.link 1).rejects == 4 && t.rf (F.lkState 1) == 6) = true := by decide +kernel
theorem test_flit_wrong_class : chk lk1 (.hbAck 1 nc fl04) (fun s t => quiet1 s && taken s fl04 [] && t.rf (F.lkDrops 1) == 1 && t.rf
    (F.lkRx 1) == 1 && t.flock == s.flock) = true := by decide +kernel
theorem test_flit_wrong_flock : chk lk1 (.hbAck 1 nc fl05) (fun s t => quiet1 s && s.rf F.flockId == 0 && t.rf (F.lkDrops 1) == 1 &&
    t.flock == s.flock) = true := by decide +kernel
theorem test_discover_bellwether : chk bw1 (.discover 1 nc fl06) (fun s t => quiet1 s && s.rb F.flkBw && taken s fl06 (discBody 1 0 1 0)
    && t.rf (F.lkState 1) == 5) = true := by decide +kernel
theorem test_discover_unsettled : chk (put [(F.lkState 2, 1)] lk1) (.discover 1 nc fl06) (fun s t => quiet1 s && !s.rb F.flkBw &&
    !s.settled && t.flock.due == some (1, discBody 1 1 1 (setBits 0 0 2 1))) = true := by decide +kernel

/-- A DISCOVER_REPLY's payload: the answer of the member behind port 1. -/
def replyPay : List Byte := bytesOf 72 [(0, 1, 1), (1, 1, 0), (2, 4, 1), (16, 8, 99), (24, 1, 3), (28, 8, 42), (25, 1, 2)]
/-- The Bellwether discovers, having asked over port 1. -/
def disc1 : State := put [(F.flkState, 2)] { bw1 with flock := { bw1.flock with asked := [([1], 7), ([2], 8)] } }

theorem test_discoverReply : chk disc1 (.discoverReply 1 nc fl07) (fun s t => quiet1 s && s.rb F.flkBw && s.rf F.flkState == 2 &&
    s.flock.rejoin.isNone && taken s fl07 replyPay && t.flock.nodes == [nodeOf replyPay] && t.flock.asked == [([2], 8)]) = true := by
    decide +kernel

/-- A ROUTE payload for member 3 at (1, 2) of 4. -/
def routePay : List Byte := bytesOf 80 [(0, 1, 3), (1, 1, 1), (2, 1, 2), (3, 1, 2), (4, 1, 2), (5, 1, 4), (6, 1, 4)]

theorem test_routeFlit : (fun s : State => quiet1 s && !s.rb F.flkBw && !s.flock.joined) lk1 = true := by decide +kernel
theorem test_heartbeatFlit : chk (put [(F.epochCount, 70)] bw1) (.heartbeatFlit 1 nc fl09) (fun s t => endsHere s fl09 [] && s.rb
    F.flkBw && !s.flock.lost.contains 5 && tblFind t.flock.hb 5 == some 70) = true := by decide +kernel
theorem test_heartbeatFlit_lost : chk { bw1 with flock := { bw1.flock with lost := [5] } } (.heartbeatFlit 1 nc fl09) (fun s t => s.rb
    F.flkBw && s.flock.lost.contains 5 && t.flock == s.flock) = true := by decide +kernel
theorem test_hbAck : chk (put [(F.epochCount, 70)] { lk1 with flock := { lk1.flock with bwLost := true } }) (.hbAck 1 nc fl02) (fun s t
    => endsHere s fl02 [] && t.flock.hbAck == 70 && !t.flock.bwLost) = true := by decide +kernel

/-- A REG_REQ that writes KVD_PROV_FIRST. -/
def reqPay : List Byte := bytesOf 13 [(0, 4, 0x11060), (4, 1, 1), (5, 8, 77)]
/-- Port 1 UP, context 1 active with queue 9. -/
def lkc : State := put [(F.ctxState 1, 1), (F.inPart 1, 1), (F.qEn 9, 1), (F.qLog2 9, 4)] lk1

theorem test_regReq : chk (put [(F.ctxState 0, 1)] lk1) (.regReq 1 nc fl10) (fun s t => endsHere s fl10 reqPay && t.rf F.provFirst ==
    77) = true := by decide +kernel
theorem test_regRsp : chk (put [(F.ctxState 0, 1), (F.rraBusy, 1)] { bw1 with flock := { bw1.flock with rra := some (3, 6) } }) (.regRsp
    1 nc fl11) (fun s t => endsHere s fl11 (natLe 8 1234) && t.rf F.rraData == 1234 && !t.rb F.rraBusy && t.flock.rra.isNone && bit
    (t.rf (F.evRaw (pgLk 0))) 5) = true := by decide +kernel
theorem test_doorbellFlit : chk lkc (.doorbellFlit 1 nc fl12) (fun s t => endsHere s fl12 (bytesOf 7 [(0, 2, 9), (3, 4, 5)]) && tailOk 0
    0 4 5 && t.rf (F.qTail 9) == 5) = true := by decide +kernel
theorem test_irqFlit : chk (put [(F.ctxState 0, 1), (F.fwdVector, 7)] bw1) (.irqFlit 1 nc fl13) (fun s t => endsHere s fl13 (bytesOf 3
    []) && s.rb F.flkBw && bit (t.rf F.fwdIrqPend) 5 && t.pins.irqQ == [⟨some 7, 0, 0, none⟩]) = true := by decide +kernel

/-- Group 2 of context 1: this member is rank 0 of two, the other member 5. -/
def grp (n : Nat) : Group := ⟨2, 1, [(0, 1), (5, 1)], 0, 127, n, []⟩
/-- A COLLECTIVE of queue 9: OP, COUNT, TIMEOUT; FP32 from offset 0x100 to offset 0x200. -/
def co (op count tmo : Nat) : Cmd := cm 9 0 4 [(0, 1, 7), (48, 1, 2), (49, 1, op), (52, 4, count), (56, 8, 0x100), (64, 8, 0x200), (72, 4, tmo)]
/-- Context 1 in the group, with port 1 UP and the way to member 5 over it. -/
def lkg (l : List Cmd) : State := put [(F.route 5, 1)] (mapped 1 (2 ^ 30) (has { lkc with flock := { lkc.flock with groups := [grp 4] } } l))
/-- An all-gather that awaits its last flit. -/
def gath : Coll := ⟨9, 0, 1, 0, 2, 3, false, 0, 0, [], 0⟩

theorem test_collReady : chk (lkg []) (.collReady 1 nc fl14) (fun s t => endsHere s fl14 [] && s.group 2 1 == some (grp 4) && t.group 2
    1 == some { grp 4 with early := [5] }) = true := by decide +kernel
theorem test_collData : chk { lkg [{ co 1 8 100 with acted := true }] with flock := { (lkg []).flock with colls := [gath] } } (.collData
    1 nc fl15) (fun s t => endsHere { s with flock := { s.flock with colls := [] } } fl15 (List.replicate 32 9) && (s.group gath.group
    gath.ctx).any (fun g => !s.collCut (co 1 8 100) g) && s.flock.colls == [gath] && decide (gath.got < allSteps 1 2 * (co 1 8
    100).coFlits) && (State.collWrite (s.tookFlit 1 fl15) (co 1 8 100) 2 (recvChunk false 1 2 0 0 * 32) (List.replicate 32 9)).1 == 0 &&
    (match t.flock.colls with | [k] => k.got == 1 | _ => false) && t.rawBytes (2 ^ 30 + 0x200 + 32) 32 == List.replicate 32 9) = true :=
    by decide +kernel
theorem test_groupLinkKeyFlit : (fun s : State => endsHere s fl16 (keyBody 1 63 8 5) && s.shepUp && s.linkSlotFree 63) lk1 = true := by
    decide +kernel
theorem test_groupLinkKeyFlit_retire : chk (put [(F.slState 63, 1), (F.slKind 63, 2), (F.slGen 63, 8)] lk1) (.groupLinkKeyFlit 1 nc
    fl17) (fun s t => endsHere s fl17 (keyBody 4 63 8 0) && s.shepUp && t.rf (F.slState 63) == 2 && t.keys == s.keys) = true := by
    decide +kernel
theorem test_spdmFlit : (fun s : State => quiet1 s && s.rf (F.lkState 1) == 2 && taken s fl18 (List.replicate 8 1) && s.shepUp) (put
    [(F.lkState 1, 2)] lk1) = true := by decide +kernel
theorem test_flockDiscovery : (fun s : State => s.isReady && s.rb F.flkBw && s.rf F.flkState == 1 && s.settled && s.rb (F.dvRunning 0))
    (put [(F.flkState, 1)] bw1) = true := by decide +kernel

/-- A joined member 3 whose way to the Bellwether is port 1. -/
def mem3 : State := put [(F.route 0, 1), (F.flkMember, 3)] { lk1 with flock := { lk1.flock with joined := true } }

theorem test_heartbeatPeriod : chk (put [(F.epochCount, 65535)] mem3) .heartbeatPeriod (fun s t => s.isReady && s.flock.joined && !s.rb
    F.flkBw && s.rb (F.dvRunning 0) && decide (s.rf F.hbPeriod ≤ s.now - s.flock.hbSent) && s.routeTo 0 == 1 && decide (0 < (s.link
    1).cred.getD 4 0) && t.flock.hbSent == 65535 && (t.link 1).held.length == 1 && t.rf (F.lkTx 1) == 1) = true := by decide +kernel
theorem test_memberLost : chk (put [(F.epochCount, 65535), (F.flkMembers, 0x21)]
    { bw1 with flock := { bw1.flock with hb := [(5, 0)] } }) (.memberLost 5) (fun s t => tblFind s.flock.hb 5 == some 0 && s.rb F.flkBw
    && s.rb (F.dvRunning 0) && decide (s.rf F.hbLoss ≤ s.now - 0) && t.rf F.flkLost == 0x20 && t.rf F.flkMembers == 1 && t.flock.lost ==
    [5] && bit (t.rf (F.evRaw (pgLk 0))) 3) = true := by decide +kernel
theorem test_bellwetherLost : chk (put [(F.epochCount, 65535)] mem3) .bellwetherLost (fun s t => s.isReady && s.flock.joined && !s.rb
    F.flkBw && !s.flock.bwLost && decide (s.rf F.hbLoss ≤ s.now - s.flock.hbAck) && bit (t.rf (F.evRaw (pgLk 0))) 4 && t.flock.bwLost) =
    true := by decide +kernel
theorem test_bellwetherLost_again : chk { mem3 with flock := { mem3.flock with bwLost := true } } .bellwetherLost (fun s t =>
    s.flock.bwLost && t == s) = true := by decide +kernel
theorem test_rraTimeout : chk (put [(F.epochCount, 65535), (F.rraBusy, 1)] { bw1 with flock := { bw1.flock with rra := some (0, 1) } })
    .rraTimeout (fun s t => s.flock.rra == some (0, 1) && decide (s.rf F.rraTimeout ≤ s.now - 0) && !t.rb F.rraBusy && t.rf F.rraStatus
    == 0x61 && t.rf F.rraData == 2 ^ 64 - 1) = true := by decide +kernel
theorem test_flkRraGo_unreachable : chk (put [(F.route 6, 7), (F.rraMember, 6)] bw1) (.flkRraGo .host 50) (fun s t => s.takes .host
    0x20138 && !s.rb F.rraBusy && s.routeTo (s.rf F.rraMember) == 7 && t.rf F.rraStatus == 0x61 && t.rf F.rraTimeout == 50) = true := by
    decide +kernel
theorem test_flkRraGo : chk (put [(F.route 6, 1), (F.rraMember, 6)] bw1) (.flkRraGo .host 50) (fun s t => s.takes .host 0x20138 && !s.rb
    F.rraBusy && decide (s.routeTo (s.rf F.rraMember) < 4) && t.rb F.rraBusy && t.flock.rra == some (0, 1)) = true := by decide +kernel
theorem test_flkRraGo_busy : chk (put [(F.rraBusy, 1)] bw1) (.flkRraGo .host 50) (fun s t => s.takes .host 0x20138 && s.rb F.rraBusy &&
    t.rf F.rraTimeout == 50 && t.rb F.rraBusy && t.flock == s.flock) = true := by decide +kernel
theorem test_fwdDb : chk { lkc with wlatch := [(0x20140, 5)] } (.fwdDb .host 9) (fun s t => s.takes .host 0x20144 && tblFind s.wlatch
    0x20140 == some 5 && s.routeTo (bits 9 16 6) == 4 && s.ctxLive 1 && (s.driver 9).isNone && tailOk 0 0 4 5 && t.rf (F.qTail 9) == 5)
    = true := by decide +kernel
theorem test_flkRejoin : chk { bw1 with flock := { bw1.flock with lost := [5], plans := [⟨5, [1], []⟩] } } (.flkRejoin .host 5) (fun s t
    => s.takes .host 0x20150 && s.flock.lost.contains 5 && t.flock == { s.flock with rejoin := some 5 }) = true := by decide +kernel
theorem test_flkRejoin_not_lost : chk bw1 (.flkRejoin .host 5) (fun s t => s.takes .host 0x20150 && !s.flock.lost.contains 5 && t.flock
    == s.flock && t.regs == s.regs) = true := by decide +kernel

/-- FLOCK_BIND of group 2 for context 1 on context 0's steward queue: RANKS, RANK. -/
def fb (ranks rank : Nat) : Cmd := cm 0 0 4 [(0, 1, 0x8A), (48, 2, 1), (50, 1, 2), (51, 1, ranks), (52, 1, rank), (53, 1, 3), (56, 8, 0x3000)]
/-- Context 0's DRAM begins at 2 GiB and holds a member table at offset 0x3000: this member's context 1, then member 5's. -/
def lkb (c : Cmd) : State := poke (2 ^ 31 + 0x3000) (natLe 4 (2 ^ 16) ++ natLe 4 (5 + 2 ^ 16)) (mapped 0 (2 ^ 31) (has (put [(F.route 5, 1)] lkc) [c]))

theorem test_flockBind : chk (lkb (fb 2 0)) (.flockBind 0) (fun s t => s.flockCmd 0 false == some (fb 2 0) && s.rb (F.dvRunning 0) &&
    reads (s.ctxRead 0 0x3000 8) (natLe 4 (2 ^ 16) ++ natLe 4 (5 + 2 ^ 16)) && s.rf (F.ctxState 1) != 0 && t.flock.groups == [⟨2, 1,
    [(0, 1), (5, 1)], 0, 3, 0, []⟩] && t.cmds == [(fb 2 0).done 0]) = true := by decide +kernel
theorem test_flockBind_wrong_rank : chk (lkb (fb 2 1)) (.flockBind 0) (fun s t => s.flockCmd 0 false == some (fb 2 1) && t.flock ==
    s.flock && t.cmds == [(fb 2 1).done 0x11]) = true := by decide +kernel
theorem test_flockBind_unreachable : chk (put [(F.route 5, 7)] (lkb (fb 2 0))) (.flockBind 0) (fun s t => s.routeTo 5 == 7 && t.cmds ==
    [(fb 2 0).done 0x11]) = true := by decide +kernel
theorem test_flockBind_no_ranks : chk (lkb (fb 0 0)) (.flockBind 0) (fun s t => s.flockCmd 0 false == some (fb 0 0) && s.rb (F.dvRunning
    0) && ends s t (fb 0 0) 0x10 && only s t) = true := by decide +kernel
theorem test_flockBind_ranks : chk (lkb (fb 65 0)) (.flockBind 0) (fun s t => s.flockCmd 0 false == some (fb 65 0) && s.rb (F.dvRunning
    0) && ends s t (fb 65 0) 0x11 && only s t) = true := by decide +kernel
theorem test_flockBind_waits : chk (put [(F.dvRunning 0, 0)] (lkb (fb 2 0))) (.flockBind 0) (fun s t => s.flockCmd 0 false == some (fb 2
    0) && !s.rb (F.dvRunning 0) && only s t && t.cmds.all (fun d => d.svc)) = true := by decide +kernel

/-- FLOCK_UNBIND of group 2 of context 1. -/
def fu : Cmd := cm 0 0 4 [(0, 1, 0x8A), (48, 2, 1), (50, 1, 2 + 128)]

theorem test_flockUnbind : chk (has { lkc with flock := { lkc.flock with groups := [grp 0, { grp 0 with ctx := 2 }] } } [fu])
    (.flockUnbind 0) (fun s t => s.flockCmd 0 true == some fu && s.rb (F.dvRunning 0) && ends s t fu 0 && t.flock.groups ==
    [{ grp 0 with ctx := 2 }]) = true := by decide +kernel
theorem test_collective_no_group : chk (has lkc [co 2 8 100]) (.collectiveAllReduce 9) (fun s t => s.phase4 9 7 == some (co 2 8 100) &&
    (co 2 8 100).coOp == 2 && (s.group 2 1).isNone && ends s t (co 2 8 100) 0x11 && only s t) = true := by decide +kernel
theorem test_collective_reserved : chk (lkg [co 3 8 100]) (.collectiveAllGather 9) (fun s t => s.phase4 9 7 == some (co 3 8 100) && (co
    3 8 100).coOp == 3 && ends s t (co 3 8 100) 0x11 && only s t) = true := by decide +kernel
theorem test_collective_timeout_zero : chk (lkg [co 1 8 0]) (.collectiveAllGather 9) (fun s t => s.phase4 9 7 == some (co 1 8 0) && ends
    s t (co 1 8 0) 0x10 && only s t) = true := by decide +kernel
theorem test_collective_count_zero : chk (lkg [co 0 0 9]) (.collectiveReduceScatter 9) (fun s t => s.phase4 9 7 == some (co 0 0 9) &&
    ends s t (co 0 0 9) 1 && t.group 2 1 == some (grp 5)) = true := by decide +kernel
theorem test_collective_alone : chk
    { lkg [co 1 8 100] with flock := { (lkg []).flock with groups := [{ grp 4 with ranks := [(0, 1)] }] } } (.collectiveAllGather 9)
    (fun s t => s.phase4 9 7 == some (co 1 8 100) && s.rb (F.inPart 1) && s.poolGrants .reads 0 256 (9, 0, 0) && s.flock.colls.isEmpty
    && t.cmds == [(co 1 8 100).done 0]) = true := by decide +kernel
theorem test_collective_starts : chk (lkg [co 2 8 100]) (.collectiveAllReduce 9) (fun s t => s.phase4 9 7 == some (co 2 8 100) && s.rb
    (F.inPart 1) && s.poolGrants .reads 0 256 (9, 0, 0) && !(grp 4).early.contains 5 && s.routeTo 5 != 7 && decide (s.rf (F.pReads 0) <
    2 ^ 14 - 256) && t.flock.colls == [⟨9, 0, 1, 0, 2, 4, false, 0, 0, [], 0⟩] && t.rf (F.pReads 0) == 256) = true := by decide +kernel
theorem test_collectiveTimeout : chk (put [(F.epochCount, 100), (F.pReads 0, 256)]
    { lkg [{ co 1 8 100 with acted := true }] with flock := { (lkg []).flock with colls := [gath] } }) (.collectiveTimeout 9) (fun s t
    => (s.group gath.group gath.ctx).isSome && s.flock.colls.find? (fun x => x.qn == 9) == some gath && s.cmd 9 0 == some
    { co 1 8 100 with acted := true } && decide (100 ≤ s.now - gath.last) && t.rf (F.pReads 0) == 0 && t.flock.colls.isEmpty &&
    t.cmds.all (fun d => d.phase == 5 && (d.status == 0x60 || d.status == 0x61))) = true := by decide +kernel
theorem test_collectiveTimeout_early : chk (put [(F.epochCount, 99)]
    { lkg [{ co 1 8 100 with acted := true }] with flock := { (lkg []).flock with colls := [gath] } }) (.collectiveTimeout 9) (fun s t
    => decide (s.now - gath.last < 100) && t == s) = true := by decide +kernel

/-- KEY_BIND: OP, KIND, SLOT, TARGET, MEMBERS. -/
def kb (op kind slot target members : Nat) : Cmd := cm 0 0 4 [(0, 1, 0x84), (48, 2, target), (50, 1, op + 4 * kind), (51, 1, slot), (56, 8, members)]

theorem test_keyBindLink_slot : chk (has bw1 [kb 3 0 1 0 1]) (.keyBindLink 0) (fun s t => s.keyBindCmd 0 3 == some (kb 3 0 1 0 1) &&
    ends s t (kb 3 0 1 0 1) 0x11 && only s t) = true := by decide +kernel
theorem test_keyBindLink_none : chk (has bw1 [kb 3 0 2 0 0]) (.keyBindLink 0) (fun s t => s.keyBindCmd 0 3 == some (kb 3 0 2 0 0) && (kb
    3 0 2 0 0).kbMembers.isEmpty && ends s t (kb 3 0 2 0 0) 0x10 && only s t) = true := by decide +kernel
theorem test_keyBindLink_not_bellwether : chk (has lk1 [kb 3 0 2 0 1]) (.keyBindLink 0) (fun s t => !s.rb F.flkBw && ends s t (kb 3 0 2
    0 1) 0x11 && only s t) = true := by decide +kernel
theorem test_keyBindLink_alone : (fun s : State => s.keyBindCmd 0 3 == some (kb 3 0 63 0 1) && s.shepUp && s.rb (F.dvRunning 0) && s.rb
    F.flkBw && (kb 3 0 63 0 1).kbMembers == [s.rf F.flkMember] && s.linkSlotFree 63 && s.routeTo 0 != 7) (has bw1 [kb 3 0 63 0 1]) =
    true := by decide +kernel
theorem test_keyLinkTimeout : chk (has (put [(F.epochCount, 1000), (F.slState 63, 1), (F.slKind 63, 2), (F.slGen 63, 1)]
    { bw1 with flock := { bw1.flock with job := some ⟨0, 0, 63, 1, [5], [0], 0⟩ } }) [{ kb 3 0 63 0 33 with acted := true }])
    (.keyLinkTimeout 0) (fun s t => s.flock.job == some ⟨0, 0, 63, 1, [5], [0], 0⟩ && decide (1000 ≤ s.now) && s.rf F.flkMember == 0 &&
    t.flock.job.isNone && t.rf (F.slState 63) == 2 && t.cmds.all (fun d => d.status == 0x61)) = true := by decide +kernel
theorem test_keyLinkTimeout_early : chk { bw1 with flock := { bw1.flock with job := some ⟨0, 0, 63, 1, [5], [0], 0⟩ } } (.keyLinkTimeout
    0) (fun s t => decide (s.now - 0 < 1000) && t == s) = true := by decide +kernel


/-! Trust, keys and tenants. -/

/-- Context 7 is CONFIDENTIAL and active, bound to slot 5. -/
def conf7 : State := put [(F.ctxState 7, 1), (F.confid 7, 1), (F.keyBound 7, 1), (F.keySlot 7, 5), (F.slState 5, 1), (F.slBound 5, 1)] st

theorem test_taLock : (fun s : State => s.pins.porN && s.taOpen && s.pins.taHeld.isEmpty && s.rf F.trust == 0) st = true := by
    decide +kernel
theorem test_taStart : chk (put [(F.trust, 1)] st) .taStart (fun s t => s.pins.porN && s.taOpen && s.pins.taHeld.isEmpty && s.rf F.trust
    == 1 && t.rf F.trust == 2 && t.pins.taRsp == [0x102]) = true := by decide +kernel
theorem test_taStop : (fun s : State => s.pins.porN && s.taOpen && s.pins.taHeld.isEmpty && s.rf F.trust == 2 && s.confCtxs.isEmpty)
    (put [(F.trust, 2)] st) = true := by decide +kernel
theorem test_taStop_confidential : chk (put [(F.trust, 2)] conf7) .taStop (fun s t => s.pins.porN && s.taOpen && s.pins.taHeld.isEmpty
    && s.rf F.trust == 2 && s.confCtxs == [7] && t.shep.stopping && t.rf (F.ctxState 7) == 3 && t.pins.taRsp.isEmpty) = true := by
    decide +kernel
theorem test_taPermit : chk (put [(F.trust, 1)] st) (.taPermit 9) (fun s t => s.pins.porN && s.taOpen && s.pins.taHeld.isEmpty && s.rf
    F.trust == 1 && t.rb F.permit && t.shep.permit == some (9 * 2 ^ 376) && t.pins.taRsp == [0x101]) = true := by decide +kernel
theorem test_taQuery : chk (put [(F.trust, 3)] st) .taQuery (fun s t => s.pins.porN && s.taOpen && s.pins.taHeld.isEmpty && t.pins.taRsp
    == [0x103]) = true := by decide +kernel
theorem test_taReservedMessage : chk (put [(F.trust, 2)] st) .taReservedMessage (fun s t => s.pins.porN && s.taOpen &&
    s.pins.taHeld.isEmpty && t == { s with pins := { s.pins with taRsp := [2] } }) = true := by decide +kernel
theorem test_taStart_refused : chk st .taStart (fun s t => s.pins.porN && s.taOpen && s.pins.taHeld.isEmpty && s.rf F.trust == 0 &&
    t.pins.taRsp == [0] && t.regs == s.regs) = true := by decide +kernel
theorem test_taStop_held : chk (put [(F.holdState, 1)] st) .taStop (fun s t => s.pins.porN && !s.taOpen && t.pins.taHeld.length == 1 &&
    t.regs == s.regs) = true := by decide +kernel
theorem test_keySlotDrained : chk (put [(F.slState 5, 2), (F.slGen 5, 9)] { conf7 with keys := [(5, 3)] }) (.keySlotDrained 5) (fun s t
    => s.rf (F.slState 5) == 2 && s.rf (F.slInflight 5) == 0 && t.rf (F.slState 5) == 0 && t.rb (F.slQuar 5) && !t.rb (F.keyBound 7) &&
    t.rf (F.keySlot 7) == 5 && t.keys.isEmpty && t.rf (F.slGen 5) == 9 && t.rf (F.slBound 5) == 0) = true := by decide +kernel
theorem test_keySlotDrained_busy : chk (put [(F.slState 5, 2), (F.slInflight 5, 1)] st) (.keySlotDrained 5) (fun s t => s.rf
    (F.slInflight 5) == 1 && t == s) = true := by decide +kernel
theorem test_keyQuarantineEnd : chk (put [(F.slQuar 5, 1), (F.epochCount, 256)] { st with timers := [(0x205, 1)] }) (.keyQuarantineEnd
    5) (fun s t => s.rb (F.slQuar 5) && s.reached (.key 5) 256 && !t.rb (F.slQuar 5)) = true := by decide +kernel
theorem test_keyQuarantineEnd_early : chk (put [(F.slQuar 5, 1), (F.epochCount, 255)] { st with timers := [(0x205, 1)] })
    (.keyQuarantineEnd 5) (fun s t => !s.reached (.key 5) 256 && t == s) = true := by decide +kernel

/-- Context 1 active, slot 5 VALID and PLAIN, slot 6 EMPTY. -/
def ck : State := put [(F.ctxState 1, 1), (F.slState 5, 1), (F.slGen 5, 9)] st
/-- A KEY_BIND that fails with a status in `s`. -/
def kbFails (s : State) (c : Cmd) (op n : Nat) : Bool := s.keyBindCmd 0 op == some c && s.kbCheck c == n

theorem test_keyBind_bind_slot0 : chk (has ck [kb 0 0 0 1 0]) (.keyBindBind 0) (fun s t => kbFails s (kb 0 0 0 1 0) 0 17 && ends s t (kb
    0 0 0 1 0) 17 && only s t) = true := by decide +kernel
theorem test_keyBind_bind_empty : chk (has ck [kb 0 0 6 1 0]) (.keyBindBind 0) (fun s t => kbFails s (kb 0 0 6 1 0) 0 17 && ends s t (kb
    0 0 6 1 0) 17 && only s t) = true := by decide +kernel
theorem test_keyBind_create_valid : chk (has ck [kb 1 0 5 1 0]) (.keyBindCreate 0) (fun s t => kbFails s (kb 1 0 5 1 0) 1 17 && ends s t
    (kb 1 0 5 1 0) 17 && only s t) = true := by decide +kernel
theorem test_keyBind_create_kind : chk (has ck [kb 1 2 6 1 0]) (.keyBindCreate 0) (fun s t => kbFails s (kb 1 2 6 1 0) 1 17 && ends s t
    (kb 1 2 6 1 0) 17 && only s t) = true := by decide +kernel
theorem test_keyBind_retire_empty : chk (has ck [kb 2 0 6 1 0]) (.keyBindRetire 0) (fun s t => kbFails s (kb 2 0 6 1 0) 2 1 && ends s t
    (kb 2 0 6 1 0) 1 && only s t) = true := by decide +kernel
theorem test_keyBind_retire_slot0 : chk (has ck [kb 2 0 0 1 0]) (.keyBindRetire 0) (fun s t => kbFails s (kb 2 0 0 1 0) 2 17 && ends s t
    (kb 2 0 0 1 0) 17 && only s t) = true := by decide +kernel
theorem test_keyBindCreate_quarantine : chk (put [(F.slQuar 6, 1)] (has ck [kb 1 0 6 1 0])) (.keyBindCreate 0) (fun s t => kbFails s (kb
    1 0 6 1 0) 1 0x11 && ends s t (kb 1 0 6 1 0) 0x11) = true := by decide +kernel
theorem test_keyBindBind_waits : chk (has { ck with boot := { ck.boot with shepHalted := true } } [kb 0 0 5 1 0]) (.keyBindBind 0) (fun
    s t => kbFails s (kb 0 0 5 1 0) 0 0 && !s.shepUp && only s t && t.cmds.all (fun d => d.svc)) = true := by decide +kernel
theorem test_keyBindBind : chk (has ck [kb 0 0 5 1 0]) (.keyBindBind 0) (fun s t => kbFails s (kb 0 0 5 1 0) 0 0 && s.shepUp && !s.rb
    (F.keyBound 1) && ends s t (kb 0 0 5 1 0) 0 && t.rb (F.keyBound 1) && t.rf (F.keySlot 1) == 5 && t.rf (F.keyGen 1) == 9 && t.rf
    (F.slBound 5) == 1) = true := by decide +kernel
theorem test_keyBindCreate : chk (has ck [kb 1 0 6 1 0]) (.keyBindCreate 0) (fun s t => kbFails s (kb 1 0 6 1 0) 1 0 && s.shepUp &&
    !s.rb (F.keyBound 1) && ends s t (kb 1 0 6 1 0) 0 && t.rf (F.slState 6) == 1 && t.rf (F.slGen 6) == 1 && t.rf (F.keyGen 1) == 1 &&
    t.rf (F.keySlot 1) == 6) = true := by decide +kernel
theorem test_keyBindRetire : chk (has ck [kb 2 0 5 1 0]) (.keyBindRetire 0) (fun s t => kbFails s (kb 2 0 5 1 0) 2 0 && s.shepUp && ends
    s t (kb 2 0 5 1 0) 0 && t.rf (F.slState 5) == 2) = true := by decide +kernel

/-- TEARDOWN of a target. -/
def td (target : Nat) : Cmd := cm 0 0 4 [(0, 1, 0x85), (48, 2, target)]

theorem test_teardown : chk (has ctx1 [td 1, cm 9 0 1 [], cm 9 1 4 []]) (.teardown 0) (fun s t => s.phase4 0 0x85 == some (td 1) &&
    !s.teardownBad (td 1) && t.rf (F.ctxState 1) == 3 && t.closing.any (fun k => k.ctx == 1 && k.cmd == some (0, 0) && k.cause == 0)) =
    true := by decide +kernel
theorem test_teardown_zero : chk (has ctx1 [td 0]) (.teardown 0) (fun s t => s.phase4 0 0x85 == some (td 0) && ends s t (td 0) 0x11 &&
    only s t) = true := by decide +kernel
theorem test_teardown_free : chk (has ctx1 [td 2]) (.teardown 0) (fun s t => s.phase4 0 0x85 == some (td 2) && s.rf (F.ctxState 2) == 0
    && ends s t (td 2) 0x11 && only s t) = true := by decide +kernel
theorem test_teardownComplete : (fun s : State => s.isReady && s.drained 9 && !s.shep.stopping && s.pins.taHeld.isEmpty &&
    s.closing.find? (fun y => y.ctx == 9) == some closing9) (put [(F.ctxState 9, 3)] { st with closing := [closing9] }) = true := by
    decide +kernel
theorem test_teardownComplete_waits : chk (withTile 2 { tile0 3 with ctx := 9 } (put [(F.ctxState 9, 3)]
    { st with closing := [closing9] })) (.teardownComplete 9) (fun s t => !s.drained 9 && t == s) = true := by decide +kernel

/-! Contexts. -/

/-- CTX_SETUP of a target, block at offset 0x3000, key record to offset 0x5000, in context 0, whose DRAM begins at 2 GiB. -/
def su (target : Nat) : Cmd := cm 0 0 4 [(0, 1, 0x80), (48, 2, target), (56, 8, 0x3000), (64, 8, 0x5000)]
/-- A setup block whose queue 0 has its slots at 0x10000, its records at 0x20000 and CFG `cfg`. -/
def sb (cfg : Nat) : List Byte := bytesOf 256 [(0, 8, 0x10000), (8, 8, 0x20000), (16, 4, cfg)]
/-- Context 0 with that block. -/
def s0 (c : Cmd) (cfg : Nat) : State := poke (2 ^ 31 + 0x3000) (sb cfg) (mapped 0 (2 ^ 31) (has (put [(F.ctxState 1, 2), (F.ctxState 0, 1)] st) [c]))

theorem test_ctxSetup : (fun s : State => s.phase4 0 0x80 == some (su 5) && s.shepUp && reads (s.setupCheck (su 5)) (sb 0x80000505)) (s0
    (su 5) 0x80000505) = true := by decide +kernel
theorem test_ctxSetup_small : chk (s0 (su 5) 0x80000503) (.ctxSetup 0) (fun s t => s.phase4 0 0x80 == some (su 5) && (match
    (s.setupCheck (su 5)).1 with | .error e => e == 0x11 | .ok _ => false) && ends s t (su 5) 0x11) = true := by decide +kernel
theorem test_ctxSetup_live : chk (s0 (su 1) 0x80000505) (.ctxSetup 0) (fun s t => s.phase4 0 0x80 == some (su 1) && reads (s.ctxRead 0
    0x3000 256) (sb 0x80000505) && s.rf (F.ctxState 1) == 2 && ends s t (su 1) 0x11) = true := by decide +kernel

/-- CTX_RESUME of a target. -/
def cr (target : Nat) : Cmd := cm 0 0 4 [(0, 1, 0x40), (48, 2, target)]

theorem test_ctxResume : chk (put [(F.faults 1, 3)] (s0 (cr 1) 0)) (.ctxResume 0) (fun s t => s.phase4 0 0x40 == some (cr 1) && s.rf
    (F.ctxState 1) == 2 && !s.ctxRuns 1 && t.rf (F.ctxState 1) == 1 && t.rf (F.faults 1) == 0 && ends s t (cr 1) 0) = true := by
    decide +kernel
theorem test_ctxResume_runs : chk (withTile 2 (tile0 3) (s0 (cr 1) 0)) (.ctxResume 0) (fun s t => s.ctxRuns 1 && t == s) = true := by
    decide +kernel
theorem test_ctxResume_active : chk (put [(F.ctxState 1, 1)] (s0 (cr 1) 0)) (.ctxResume 0) (fun s t => s.rf (F.ctxState 1) == 1 && ends
    s t (cr 1) 1 && only s t) = true := by decide +kernel

/-- A report of context 1, and a fault queue of 16 reports at 3 GiB. -/
def rep : Report := ⟨0x200000, 0, 0, 1, 2, 1, 1, false, 1, 8, 0, 77⟩
def flt (head : Nat) : State := put [(F.fltEn, 1), (F.fltBase, 3 * 2 ^ 30), (F.fltLog2, 4), (F.fltTail, 16), (F.fltHead, head)]
  { st with xlt := { st.xlt with reports := [rep] } }

theorem test_faultReportPost : chk (flt 1) .faultReportPost (fun s t => s.xlt.reports == [rep] && s.isReady && s.rb (F.dvRunning 1) &&
    !s.encrypts 1 && s.fltRoom && t.xlt.reports.isEmpty && t.rf F.fltTail == 17 && t.rf F.xltReports == 1 && t.rawBytes (3 * 2 ^ 30) 32
    == rep.bytes (recPhase 16 4)) = true := by decide +kernel
theorem test_faultReportPost_full : chk (flt 0) .faultReportPost (fun s t => s.xlt.reports == [rep] && !s.fltRoom && t.rb F.fltFull &&
    t.xlt == s.xlt && bit (t.rf (F.evRaw pgXlt)) 1) = true := by decide +kernel

/-- SEG_SET, XLT_ROOT and XLT_INVALIDATE of context 1; the image of 16 segments lies at offset 0x3000. -/
def sg (mask : Nat) : Cmd := cm 0 0 4 [(0, 1, 0x81), (48, 2, 1), (50, 2, mask), (56, 8, 0x3000)]
def xr (target mode : Nat) : Cmd := cm 0 0 4 [(0, 1, 0x82), (48, 2, target), (50, 1, mode), (52, 2, 9), (56, 8, 0x7000), (64, 8, 0x8000)]
def xi (scope n : Nat) : Cmd := cm 0 0 4 [(0, 1, 0x83), (48, 2, 1), (50, 1, scope), (52, 2, 9), (56, 8, 2 ^ 21), (64, 4, n)]
/-- An image that gives segment 3 its base, limit and rights. -/
def im : List Byte := bytesOf 256 [(48, 8, 2 ^ 22), (56, 4, 6), (60, 1, 5)]
/-- Context 1 active with a cached translation, context 0 with the image. -/
def x1 (c : Cmd) : State := poke (2 ^ 31 + 0x3000) im (mapped 1 (2 ^ 30) (mapped 0 (2 ^ 31) (has (put [(F.ctxState 1, 1), (F.vmid 1, 9)] st) [c])))

theorem test_segSet : chk (x1 (sg 8)) (.segSet 0) (fun s t => s.phase4 0 0x81 == some (sg 8) && s.rb (F.dvRunning 1) && s.rf (F.ctxState
    1) == 1 && reads (s.ctxRead 0 0x3000 256) im && !segBad im 3 && !s.ctxRuns 1 && t.rf (F.segBase 1 3) == 2 ^ 22 && t.rf (F.segLimit 1
    3) == 6 && t.rf (F.segRights 1 3) == 5 && t.rf (F.segLimit 1 0) == 512 && t.xlt.tlb.length == 1 && t.xlt.holds.contains (1, 0, 0)) =
    true := by decide +kernel
theorem test_segSet_none : chk (x1 (sg 0)) (.segSet 0) (fun s t => s.phase4 0 0x81 == some (sg 0) && ends s t (sg 0) 1 && only s t) =
    true := by decide +kernel
theorem test_segSet_free : chk (put [(F.ctxState 1, 0)] (x1 (sg 8))) (.segSet 0) (fun s t => s.rf (F.ctxState 1) == 0 && ends s t (sg 8)
    0x11 && only s t) = true := by decide +kernel
theorem test_xltRoot : chk (x1 (xr 1 2)) (.xltRoot 0) (fun s t => s.phase4 0 0x82 == some (xr 1 2) && s.rb (F.dvRunning 1) && s.rf
    (F.ctxState 1) == 1 && !s.ctxRuns 1 && t.rf (F.xltMode 1) == 2 && t.rf (F.vmid 1) == 9 && t.rf (F.s1Root 1) == 0x7000 && t.rf
    (F.s2Root 1) == 0x8000 && t.xlt.tlb.length == 1) = true := by decide +kernel
theorem test_xltRoot_free : chk (x1 (xr 4095 2)) (.xltRoot 0) (fun s t => s.phase4 0 0x82 == some (xr 4095 2) && s.rf (F.ctxState 4095)
    == 0 && ends s t (xr 4095 2) 0x11) = true := by decide +kernel
theorem test_xltInvalidate_0 : chk (x1 (xi 0 0)) (.xltInvalidate 0) (fun s t => s.phase4 0 0x83 == some (xi 0 0) && s.rb (F.dvRunning 1)
    && t.xlt.tlb.length == 1 && t.cmds.all (fun d => d.acted) && t.regs == s.regs) = true := by decide +kernel
theorem test_xltInvalidate_1 : chk (x1 (xi 1 1)) (.xltInvalidate 0) (fun s t => s.phase4 0 0x83 == some (xi 1 1) && s.rb (F.dvRunning 1)
    && t.xlt.tlb.length == 1 && t.cmds.all (fun d => d.acted) && t.regs == s.regs) = true := by decide +kernel
theorem test_xltInvalidate_2 : chk (x1 (xi 2 0)) (.xltInvalidate 0) (fun s t => s.phase4 0 0x83 == some (xi 2 0) && s.rb (F.dvRunning 1)
    && t.xlt.tlb.length == 1 && t.cmds.all (fun d => d.acted) && t.regs == s.regs) = true := by decide +kernel
theorem test_xltInvalidate_3 : chk (x1 (xi 3 1)) (.xltInvalidate 0) (fun s t => s.phase4 0 0x83 == some (xi 3 1) && s.rb (F.dvRunning 1)
    && t.xlt.tlb.length == 2 && t.cmds.all (fun d => d.acted) && t.regs == s.regs) = true := by decide +kernel
theorem test_xltInvalidate_4 : chk (x1 (xi 4 0)) (.xltInvalidate 0) (fun s t => s.phase4 0 0x83 == some (xi 4 0) && s.rb (F.dvRunning 1)
    && t.xlt.tlb.length == 0 && t.cmds.all (fun d => d.acted) && t.regs == s.regs) = true := by decide +kernel
theorem test_xltInvalidate_reserved : chk (x1 (xi 5 0)) (.xltInvalidate 0) (fun s t => s.phase4 0 0x83 == some (xi 5 0) && ends s t (xi
    5 0) 0x11) = true := by decide +kernel
theorem test_xltInvalidate_empty : chk (x1 (xi 1 0)) (.xltInvalidate 0) (fun s t => s.phase4 0 0x83 == some (xi 1 0) && ends s t (xi 1
    0) 1) = true := by decide +kernel
theorem test_xltInvalidate_context : chk (has (x1 (xi 1 0)) [{ xi 2 0 with qn := 9 }]) (.xltInvalidate 9) (fun s t => s.phase4 9 0x83 ==
    some { xi 2 0 with qn := 9 } && ends s t { xi 2 0 with qn := 9 } 0x13) = true := by decide +kernel

/-- An invalidation that drains: its command, its hold, the transactions awaited. -/
def drn (l : List (Nat × Nat)) : State := put [(F.cbsValid 4 1, 1), (F.cbsCtx 4 1, 1)]
  (let s : State := x1 { xr 1 2 with acted := true }; { s with xlt := { s.xlt with holds := [(1, 0, 0)], drains := [⟨0, 0, l⟩] } })

theorem test_invalidationDrainDone : chk (drn []) (.invalidationDrainDone 0) (fun s t => s.cmds == [({ xr 1 2 with acted := true } :
    Cmd)] && s.rb (F.dvRunning 1) && s.xlt.drains == [⟨0, 0, []⟩] && t.xlt.holds.isEmpty && t.cmds.all (fun d => d.phase == 5 &&
    d.status == 0) && !t.rb (F.cbsValid 4 1)) = true := by decide +kernel
theorem test_invalidationDrainDone_waits : chk (drn [(0, 7)]) (.invalidationDrainDone 0) (fun s t => s.xlt.drains == [⟨0, 0, [(0, 7)]⟩]
    && t == s) = true := by decide +kernel


/-! Partitions, grazing, SLOWDOWN. -/

/-- PARTITION_SET: flags (CONFIGURE, ASSIGN), PART, CLASS with BORROW and VALID, SLOWDOWN_K, READS; TARGET 1, PRIO 3, CSB 2. -/
def ps (fl part cls k reads : Nat) : Cmd := cm 0 0 4 [(0, 1, 0x87), (48, 2, 1), (50, 1, fl), (51, 1, part), (52, 1, cls), (53, 1, 3), (54, 1, 2),
  (55, 1, k), (56, 2, reads), (58, 2, 7), (60, 1, 1), (61, 1, 5), (62, 1, 6)]

theorem test_partitionSet_none : chk (has ck [ps 0 5 0 10 0]) (.partitionSet 0) (fun s t => s.phase4 0 0x87 == some (ps 0 5 0 10 0) &&
    !(ps 0 5 0 10 0).flag 50 0 && !(ps 0 5 0 10 0).flag 50 1 && ends s t (ps 0 5 0 10 0) 1 && only s t) = true := by decide +kernel
theorem test_partitionSet_configure : chk (has ck [ps 1 63 15 10 8192]) (.partitionSet 0) (fun s t => s.phase4 0 0x87 == some (ps 1 63
    15 10 8192) && !s.partBad (ps 1 63 15 10 8192) && ends s t (ps 1 63 15 10 8192) 0 && t.rf (F.pClass 63) == 3 && t.rb (F.pBorrow 63)
    && t.rb (F.pValid 63) && t.rf (F.pMinReads 63) == 8192 && t.rf (F.pMinKv 63) == 7 && t.rf (F.pMinCsb 63) == 1 && t.rf (F.pMinXlt 63)
    == 5 && t.rf (F.pMinDir 63) == 6) = true := by decide +kernel
theorem test_partitionSet_sum : chk (has ck [ps 1 63 15 10 8193]) (.partitionSet 0) (fun s t => s.phase4 0 0x87 == some (ps 1 63 15 10
    8193) && s.partBad (ps 1 63 15 10 8193) && ends s t (ps 1 63 15 10 8193) 0x11 && only s t) = true := by decide +kernel
theorem test_partitionSet_both : chk (has ck [ps 3 5 8 4 0]) (.partitionSet 0) (fun s t => s.phase4 0 0x87 == some (ps 3 5 8 4 0) &&
    !s.partBad (ps 3 5 8 4 0) && ends s t (ps 3 5 8 4 0) 0 && t.rf (F.ctxPart 1) == 5 && t.rb (F.inPart 1) && t.rf (F.prio 1) == 3 &&
    t.rf (F.csbGran 1) == 2 && t.rf (F.slowK 1) == 4) = true := by decide +kernel
theorem test_partitionSet_window : chk (has ck [ps 3 5 8 21 0]) (.partitionSet 0) (fun s t => s.phase4 0 0x87 == some (ps 3 5 8 21 0) &&
    s.partBad (ps 3 5 8 21 0) && ends s t (ps 3 5 8 21 0) 0x11 && only s t) = true := by decide +kernel
theorem test_partitionSet_invalid : chk (has ck [ps 2 5 0 10 0]) (.partitionSet 0) (fun s t => s.phase4 0 0x87 == some (ps 2 5 0 10 0)
    && s.partBad (ps 2 5 0 10 0) && ends s t (ps 2 5 0 10 0) 0x11 && only s t) = true := by decide +kernel

/-- GRAZE_UPDATE with COUNT slots at offset 0x3000, or, with DISABLE set, GRAZE_DISABLE, for a target. -/
def gu (target n dis : Nat) : Cmd := cm 0 0 4 [(0, 1, 0x86), (48, 2, target), (56, 8, 0x3000), (64, 2, n), (66, 1, dis)]
/-- An image of two slots of 10 and `d` EPOCHs, every core NONE. -/
def gi (d : Nat) : List Byte := bytesOf 64 [(0, 2, 10), (4, 16, 2 ^ 128 - 1), (32, 2, d), (36, 16, 2 ^ 128 - 1)]
/-- Context 0 with the image; the Grazing Table enabled or not. -/
def g0 (c : Cmd) (d en : Nat) : State := put [(F.grzEn, en)] (poke (2 ^ 31 + 0x3000) (gi d) (mapped 0 (2 ^ 31) (has (put [(F.ctxState 0, 1)] st) [c])))

theorem test_grazeUpdate_start : chk (g0 (gu 0 2 0) 20 0) (.grazeUpdate 0) (fun s t => s.phase4 0 0x86 == some (gu 0 2 0) && reads
    (s.ctxRead 0 0x3000 64) (gi 20) && s.imageBad 2 (gi 20) == 0 && !s.rb F.grzEn && t.rb F.grzEn && !t.rb F.grzPending && t.rf
    F.grzActive == 1 && t.rf F.grzSlot == 0 && t.rf F.grzLeft == 10 && t.grz.slots1 == 2) = true := by decide +kernel
theorem test_grazeUpdate_pending : chk (g0 (gu 0 2 0) 20 1) (.grazeUpdate 0) (fun s t => s.phase4 0 0x86 == some (gu 0 2 0) && reads
    (s.ctxRead 0 0x3000 64) (gi 20) && s.imageBad 2 (gi 20) == 0 && s.rb F.grzEn && t.rb F.grzPending && t.grz.pend == some (0, false)
    && t.rf F.grzActive == 0 && t.rf (F.grzWord 1 1 0) % 2 ^ 16 == 20) = true := by decide +kernel
theorem test_grazeUpdate_zero : chk (g0 (gu 0 2 0) 0 1) (.grazeUpdate 0) (fun s t => s.phase4 0 0x86 == some (gu 0 2 0) && reads
    (s.ctxRead 0 0x3000 64) (gi 0) && s.imageBad 2 (gi 0) == 0x10 && ends s t (gu 0 2 0) 0x10) = true := by decide +kernel
theorem test_grazeUpdate_target : chk (g0 (gu 1 2 0) 20 1) (.grazeUpdate 0) (fun s t => s.phase4 0 0x86 == some (gu 1 2 0) && ends s t
    (gu 1 2 0) 0x11) = true := by decide +kernel
theorem test_grazeUpdate_none : chk (g0 (gu 0 0 0) 20 1) (.grazeUpdate 0) (fun s t => s.phase4 0 0x86 == some (gu 0 0 0) && ends s t (gu
    0 0 0) 0x10) = true := by decide +kernel
theorem test_grazeUpdate_many : chk (g0 (gu 0 257 0) 20 1) (.grazeUpdate 0) (fun s t => s.phase4 0 0x86 == some (gu 0 257 0) && ends s t
    (gu 0 257 0) 0x11) = true := by decide +kernel
theorem test_grazeDisable_off : chk (g0 (gu 0 0 1) 20 0) (.grazeDisable 0) (fun s t => s.phase4 0 0x86 == some (gu 0 0 1) && !s.rb
    F.grzEn && ends s t (gu 0 0 1) 0 && t.regs == s.regs) = true := by decide +kernel
theorem test_grazeDisable : chk (g0 (gu 0 0 1) 20 1) (.grazeDisable 0) (fun s t => s.phase4 0 0x86 == some (gu 0 0 1) && s.rb F.grzEn &&
    t.grz.pend == some (0, true) && t.cmds.all (fun d => d.acted)) = true := by decide +kernel
theorem test_grazeDisable_target : chk (g0 (gu 1 0 1) 20 1) (.grazeDisable 0) (fun s t => s.phase4 0 0x86 == some (gu 1 0 1) && ends s t
    (gu 1 0 1) 0x11) = true := by decide +kernel

/-- The table runs, in slot `i` of two of 10 EPOCHs, with something pending. -/
def gz (i count : Nat) (p : Option (Nat × Bool)) : State :=
  put [(F.grzEn, 1), (F.grzSlot, i), (F.grzWord 0 0 0, 10), (F.grzWord 0 1 0, 10), (F.grzPending, 1)] { st with grz := { st.grz with pend := p, count := count, slots0 := 2 } }

theorem test_grazingSlotEnd : chk (gz 0 10 none) .grazingSlotEnd (fun s t => s.isReady && s.rb F.grzEn && decide (bits (s.rf (F.grzWord
    (s.rf F.grzActive) (s.rf F.grzSlot) 0)) 0 16 ≤ s.grz.count) && decide (s.rf F.grzSlot + 1 < s.slotsOf 0) && t.rf F.grzSlot == 1 &&
    t.grz.count == 0 && t.rf F.grzLeft == 10) = true := by decide +kernel
theorem test_grazingSlotEnd_early : chk (gz 0 9 none) .grazingSlotEnd (fun s t => s.grz.count == 9 && t.rf F.grzSlot == 0 && t.grz.count
    == 9) = true := by decide +kernel
theorem test_grazingSlotEnd_cycle : chk (gz 1 10 none) .grazingSlotEnd (fun s t => s.isReady && s.rb F.grzEn && decide (bits (s.rf
    (F.grzWord (s.rf F.grzActive) (s.rf F.grzSlot) 0)) 0 16 ≤ s.grz.count) && s.rf F.grzSlot + 1 == s.slotsOf 0 && t.rf F.grzSlot == 0
    && t.rf F.grzCycles == 1 && t.rf F.grzActive == 0 && t.rb F.grzEn) = true := by decide +kernel
theorem test_grazingSlotEnd_switch : chk (gz 1 10 (some (0, false))) .grazingSlotEnd (fun s t => s.isReady && s.rb F.grzEn && decide
    (bits (s.rf (F.grzWord (s.rf F.grzActive) (s.rf F.grzSlot) 0)) 0 16 ≤ s.grz.count) && s.rf F.grzSlot + 1 == s.slotsOf 0 && t.rf
    F.grzSlot == 0 && t.rf F.grzActive == 1 && !t.rb F.grzPending && t.grz.pend.isNone) = true := by decide +kernel
theorem test_grazingSlotEnd_disable : chk (gz 1 10 (some (0, true))) .grazingSlotEnd (fun s t => s.isReady && s.rb F.grzEn && decide
    (bits (s.rf (F.grzWord (s.rf F.grzActive) (s.rf F.grzSlot) 0)) 0 16 ≤ s.grz.count) && s.rf F.grzSlot + 1 == s.slotsOf 0 && !t.rb
    F.grzEn && t.grz.pend.isNone) = true := by decide +kernel

/-- Context 1 has 2^10 EPOCHs in its window, with its counts. -/
def sl (e a b : Nat) : State := put [(F.epochCount, e), (F.slowK 1, 10)] (ctx1.setSlow 1 ⟨a, b, 0⟩)

theorem test_slowdownWindowClose : chk (sl 1024 300 100) (.slowdownWindowClose 1) (fun s t => s.isReady && s.rf (F.ctxState 1) != 0 &&
    s.now % 2 ^ s.rf (F.slowK 1) == 0 && (s.slowOf 1).since != s.now && t.rf (F.slowVal 1) == 1365 && t.rf (F.slowWin 1) == 10 &&
    t.slowOf 1 == ⟨0, 0, 1024⟩) = true := by decide +kernel
theorem test_slowdownWindowClose_idle : chk (sl 1024 0 0) (.slowdownWindowClose 1) (fun s t => s.isReady && s.rf (F.ctxState 1) != 0 &&
    s.now % 2 ^ s.rf (F.slowK 1) == 0 && (s.slowOf 1).since != s.now && t.rf (F.slowVal 1) == 0 && t.rf (F.slowWin 1) == 10 && t.slowOf
    1 == ⟨0, 0, 1024⟩) = true := by decide +kernel
theorem test_slowdownWindowClose_all : chk (sl 1024 0 5) (.slowdownWindowClose 1) (fun s t => s.isReady && s.rf (F.ctxState 1) != 0 &&
    s.now % 2 ^ s.rf (F.slowK 1) == 0 && (s.slowOf 1).since != s.now && t.rf (F.slowVal 1) == 65535 && t.rf (F.slowWin 1) == 10 &&
    t.slowOf 1 == ⟨0, 0, 1024⟩) = true := by decide +kernel
theorem test_slowdownWindowClose_max : chk (sl 1024 1 16) (.slowdownWindowClose 1) (fun s t => s.isReady && s.rf (F.ctxState 1) != 0 &&
    s.now % 2 ^ s.rf (F.slowK 1) == 0 && (s.slowOf 1).since != s.now && t.rf (F.slowVal 1) == 65535 && t.rf (F.slowWin 1) == 10 &&
    t.slowOf 1 == ⟨0, 0, 1024⟩) = true := by decide +kernel
theorem test_slowdownWindowClose_early : chk (sl 1023 1 1) (.slowdownWindowClose 1) (fun s t => s.now % 2 ^ 10 != 0 && t == s) = true :=
    by decide +kernel

/-! The KV block directory. -/

/-- A sequence record: LENGTH, HIGH; 2 layers, 4 heads, 32 blocks, dimension 64. -/
def rec0 (length high : Nat) : List Byte := bytesOf 64 [(0, 8, 0x20000), (8, 8, 0x30000), (16, 4, length), (20, 2, high), (22, 2, 2), (24, 2, 4), (26, 2, 32), (28, 2, 64)]
/-- A directory command of queue 9 on the record at offset 0x6000, the second at offset 0x6040. -/
def dc (op : Nat) (l : List (Nat × Nat × Nat)) : Cmd := cm 9 0 4 ([(0, 1, op), (48, 8, 0x6000), (56, 8, 0x6040)] ++ l)
/-- KV_APPEND of `n` tokens for `h` heads, KV_FORK of `n` tokens, KV_FREE, KV_TRIM of `n` tokens. -/
def ka (n h : Nat) : Cmd := cm 9 0 4 [(0, 1, 3), (48, 8, 0x6000), (76, 2, h), (78, 2, n)]
def kf (n : Nat) : Cmd := dc 4 [(64, 4, n)]
def ke : Cmd := cm 9 0 4 [(0, 1, 5), (48, 8, 0x6000)]
def kt (n : Nat) : Cmd := cm 9 0 4 [(0, 1, 6), (48, 8, 0x6000), (56, 4, n)]
/-- Context 1 with the command and the two records; the child is empty. -/
def kd (c : Cmd) (length high : Nat) : State := put [(F.slotBytes, 16384), (F.inPart 1, 1)] (poke (2 ^ 30 + 0x6000) (rec0 length high ++ rec0 0 0) (has c1 [c]))
/-- What a tile read gives. -/
def got (r : Fetch × State) (b : List Byte) : Bool := match r.1 with
  | .ok x => x == b
  | _ => false

theorem test_kvAppend : chk (kd (ka 64 4) 100 2) (.kvAppend 9) (fun s t => s.dirCmd 9 3 == some (ka 64 4) && got (s.tileRead 1 0x6000
    64) (rec0 100 2) && appendCheck (s.rf F.slotBytes) (ka 64 4) (seqOf (rec0 100 2)) == 0 && t.cmds ==
    [({ ka 64 4 with tiles := 4, acted := true } : Cmd)] && t.kvd == s.kvd) = true := by decide +kernel
theorem test_kvAppend_long : chk (kd (ka 64 4) 1048513 2) (.kvAppend 9) (fun s t => s.dirCmd 9 3 == some (ka 64 4) && got (s.tileRead 1
    0x6000 64) (rec0 1048513 2) && ends s t (ka 64 4) 0x31) = true := by decide +kernel
theorem test_kvAppend_none : chk (kd (ka 0 4) 100 2) (.kvAppend 9) (fun s t => s.dirCmd 9 3 == some (ka 0 4) && got (s.tileRead 1 0x6000
    64) (rec0 100 2) && ends s t (ka 0 4) 1) = true := by decide +kernel
theorem test_kvFork : chk (kd (kf 65) 100 2) (.kvFork 9) (fun s t => s.dirCmd 9 4 == some (kf 65) && got (s.tileRead 1 0x6000 64) (rec0
    100 2) && got (s.tileRead 1 0x6040 64) (rec0 0 0) && forkCheck 65 false (seqOf (rec0 100 2)) (seqOf (rec0 0 0)) == 0 && t.cmds ==
    [({ kf 65 with tiles := 1, acted := true } : Cmd)]) = true := by decide +kernel
theorem test_kvFork_long : chk (kd (kf 101) 100 2) (.kvFork 9) (fun s t => s.dirCmd 9 4 == some (kf 101) && got (s.tileRead 1 0x6000 64)
    (rec0 100 2) && got (s.tileRead 1 0x6040 64) (rec0 0 0) && ends s t (kf 101) 0x11) = true := by decide +kernel
theorem test_kvFree : chk (kd ke 100 2) (.kvFree 9) (fun s t => s.dirCmd 9 5 == some ke && got (s.tileRead 1 0x6000 64) (rec0 100 2) &&
    freeCheck false (seqOf (rec0 100 2)) == 0 && t.cmds == [({ ke with tiles := 1, acted := true } : Cmd)]) = true := by decide +kernel
theorem test_kvFree_empty : chk (kd ke 0 0) (.kvFree 9) (fun s t => s.dirCmd 9 5 == some ke && got (s.tileRead 1 0x6000 64) (rec0 0 0)
    && ends s t ke 1) = true := by decide +kernel
theorem test_kvTrim : chk (kd (kt 60) 100 2) (.kvTrim 9) (fun s t => s.dirCmd 9 6 == some (kt 60) && got (s.tileRead 1 0x6000 64) (rec0
    100 2) && trimCheck 60 false (seqOf (rec0 100 2)) == 0 && t.cmds == [({ kt 60 with tiles := 1, acted := true } : Cmd)]) = true := by
    decide +kernel
theorem test_kvTrim_nothing : chk (kd (kt 1) 100 1) (.kvTrim 9) (fun s t => s.dirCmd 9 6 == some (kt 1) && got (s.tileRead 1 0x6000 64)
    (rec0 100 1) && trimCheck 1 false (seqOf (rec0 100 1)) == 0 && decide (1 ≤ (100 - 1) / 64) && t.cmds.all (fun d => d.phase == 5)) =
    true := by decide +kernel
theorem test_kvTrim_long : chk (kd (kt 101) 100 2) (.kvTrim 9) (fun s t => s.dirCmd 9 6 == some (kt 101) && got (s.tileRead 1 0x6000 64)
    (rec0 100 2) && ends s t (kt 101) 0x11) = true := by decide +kernel
theorem test_kvFree_unmapped : chk (put [(F.segLimit 1 0, 0)] (kd ke 100 2)) (.kvFree 9) (fun s t => s.dirCmd 9 5 == some ke && (match
    (s.tileRead 1 0x6000 64).1 with | .err _ => true | _ => false) && t.cmds.all (fun d => d.phase == 5 && d.failed) && t.kvd == s.kvd)
    = true := by decide +kernel
theorem test_kv_checks : (fun s : State => appendCheck 16384 (ka 1 1) { seqOf (rec0 0 0) with dim := 0 } == 0x10 && appendCheck 16384
    (ka 64 4) (seqOf (rec0 1048512 0)) == 0x11 && forkCheck 0 false (seqOf (rec0 1 1)) (seqOf (rec0 0 0)) == 1 && trimCheck 0 false
    (seqOf (rec0 1 1)) == 1 && freeCheck false { seqOf (rec0 0 0) with dim := 65 } == 0x11 && !s.isReady == false) (kd ke 0 0) = true :=
    by decide +kernel

/-- The directory at 4 GiB, the free ring at 5 GiB holds block 6, which is FREE. -/
def free6 (n : Nat) : State := put [(F.dirBase, 2 ^ 32), (F.ringBase, 5 * 2 ^ 30), (F.ringLog2, 8), (F.dirCount, 16)]
  (poke (2 ^ 32 + 96) (DirEnt.bytes ⟨0x4000, 0, 0, 1, 0, 0, 0, 0, 0⟩) (poke (5 * 2 ^ 30) (natLe 4 6) { st with kvd := { st.kvd with ringTail := n } }))

theorem test_kvFifoRefill : chk (free6 1) .kvFifoRefill (fun s t => s.isReady && s.rb (F.dvRunning 2) && s.ringCount == 1 && s.readHpa 0
    (s.ringAddr 0) 4 == some (natLe 4 6) && s.dirRaw 6 == some ⟨0x4000, 0, 0, 1, 0, 0, 0, 0, 0⟩ && t.kvd ==
    { s.kvd with ringHead := 1, fifo := [6] } && t.dirRaw 6 == some ⟨0x4000, 0, 0, 2, 0, 0, 0, 0, 0⟩) = true := by decide +kernel
theorem test_kvFifoRefill_queued : chk (poke (2 ^ 32 + 96) (DirEnt.bytes ⟨0x4000, 0, 0, 2, 0, 0, 0, 0, 0⟩) (free6 1)) .kvFifoRefill (fun
    s t => s.isReady && s.ringCount == 1 && s.dirRaw 6 == some ⟨0x4000, 0, 0, 2, 0, 0, 0, 0, 0⟩ && resetBy t 3) = true := by
    decide +kernel
theorem test_kvFifoRefill_empty : chk (free6 0) .kvFifoRefill (fun s t => s.ringCount == 0 && t == s) = true := by decide +kernel

/-- An append of 64 tokens waits for its reservation, with `n` blocks in the FIFO. -/
def full (n : Nat) : State := let s : State := kd { ka 64 4 with tiles := 4, acted := true } 100 2
  { s with kvd := { s.kvd with fifo := List.range n }, grz := { s.grz with waiters := [(1, 9, 0, 0)] } }

theorem test_kvFull : chk (full 3) (.kvFull 9) (fun s t => s.frontCmd 9 == some { ka 64 4 with tiles := 4, acted := true } && s.isReady
    && s.rb (F.dvRunning 2) && decide (s.kvd.fifo.length + s.ringCount + s.pinfold < App.blocks 64) && bit (t.rf (F.evRaw pgKvd)) 2 &&
    t.grz.waiters.isEmpty && t.cmds.all (fun d => d.status == 0x32 && d.phase == 5)) = true := by decide +kernel
theorem test_kvFull_enough : chk (full 4) (.kvFull 9) (fun s t => (s.frontCmd 9).isSome && s.kvd.fifo.length + s.ringCount + s.pinfold
    == App.blocks 64 && t == s) = true := by decide +kernel

/-- A scan for context 3 runs, one for context 4 waits; block 2 is IN_USE by `o`. -/
def scan (o : Nat) : State := put [(F.dirBase, 2 ^ 32), (F.dirCount, 4), (F.reclaimBusy, 1), (F.reclaimCtx, 3)]
  (poke (2 ^ 32 + 32) (DirEnt.bytes ⟨0x4000, o, 1, 3, 0, 0, 0, 0, 0⟩) { st with kvd := { st.kvd with reclaims := [3, 4] } })

theorem test_kvReclaimDone : chk (scan 3) .kvReclaimDone (fun s t => s.kvd.reclaims == [3, 4] && s.rb F.reclaimBusy && (match
    s.reclaimAll 3 (List.range 4) with | .ok _ => true | .error _ => false) && t.kvd.reclaims == [4] && t.kvd.fifo == [2] && t.rb
    F.reclaimBusy && t.rf F.reclaimCtx == 4 && bit (t.rf (F.evRaw pgKvd)) 5) = true := by decide +kernel
theorem test_kvReclaimDone_nothing : chk (scan 5) .kvReclaimDone (fun s t => (List.range 4).all (fun i => (s.dirRaw i).isSome &&
    (s.dirRaw i).all (fun e => !(e.st == 3 && e.owner == 3))) && t.mem == s.mem && t.kvd.fifo.isEmpty) = true := by decide +kernel

/-- WEIGHT_HINT of `n` pages from offset `o` of segment 0. -/
def wh (o n : Nat) : Cmd := cm 9 0 4 [(0, 1, 2), (48, 8, o), (56, 4, n)]

theorem test_weightHint : chk (has c1 [wh (511 * 2 ^ 21) 1]) (.weightHint 9) (fun s t => s.phase4 9 2 == some (wh (511 * 2 ^ 21) 1) &&
    ends s t ({ wh (511 * 2 ^ 21) 1 with acted := true } : Cmd) 0 && t.xlt.tlb == s.xlt.tlb && t.rf F.l2Hits == 1) = true := by
    decide +kernel
theorem test_weightHint_past : chk (has c1 [wh (512 * 2 ^ 21) 1]) (.weightHint 9) (fun s t => s.phase4 9 2 == some (wh (512 * 2 ^ 21) 1)
    && ends s t (wh (512 * 2 ^ 21) 1) 0x22 && only s t) = true := by decide +kernel
theorem test_weightHint_none : chk (has c1 [wh 0 0]) (.weightHint 9) (fun s t => s.phase4 9 2 == some (wh 0 0) && ends s t (wh 0 0) 1 &&
    only s t) = true := by decide +kernel
theorem test_weightHint_many : chk (has c1 [wh 0 4097]) (.weightHint 9) (fun s t => s.phase4 9 2 == some (wh 0 4097) && ends s t (wh 0
    4097) 0x11 && only s t) = true := by decide +kernel
theorem test_weightHint_untranslated : chk (has { c1 with xlt := { c1.xlt with tlb := [] } } [wh 0 1]) (.weightHint 9) (fun s t =>
    s.phase4 9 2 == some (wh 0 1) && (s.hintProbe (wh 0 1) 0 [0]).1.xlt.reports.any (fun r => r.hint && r.qn == 9 && r.slot == 0) &&
    t.xlt.reports.length == 1 && t.cmds.all (fun d => d.phase == 4 && d.acted)) = true := by decide +kernel

/-! Tiles. -/

/-- A DMA tile's entry: one row of 64 bytes from segment 1's offset 0x100 to segment 0's offset 0x8000, four reads. -/
def dmaE : List Byte := bytesOf 256 [(0, 1, 3), (1, 1, 15), (8, 2, 4), (32, 8, 2 ^ 48 + 0x100), (40, 8, 0x8000), (48, 1, 15), (52, 4, 64), (56, 4, 1), (60, 4, 64), (64, 4, 64)]
/-- A TILES command of queue 9 whose one tile is that one, its table at offset 0x6000. -/
def ti : Cmd := { cm 9 0 4 [(0, 1, 1), (48, 8, 0x6000), (56, 4, 1)] with tiles := 1, acted := true }
/-- Context 1 in partition 0, which owns core 2; no translation of segment 1 is cached. -/
def adm : State := put [(F.inPart 1, 1), (F.pValid 0, 1), (F.segBase 1 1, 2 ^ 40), (F.segLimit 1 1, 4), (F.segRights 1 1, 7)]
  ((poke (2 ^ 30 + 0x6000) dmaE (has c1 [ti])).modCore 2 (fun c => { c with own := 0 }))
/-- The tile that TILE_ADMISSION places on core 2 waits for a walk, as the premises of its statement ask. -/
def admits (s : State) : Bool :=
  let s : State := s.pruneWaiters
  match s.frontCmd 9 with
  | none => false
  | some c => s.mayTry 2 (s.rf (F.ctxPart c.ctx)) c && (match s.checkTile 2 c with
    | .error _ => false
    | .ok (tl, u) =>
      let d : Cmd := (u.cmd c.qn c.slot).getD c
      let a : Ask := u.askOf 2 d ⟨u, 2, tl⟩
      let r : Bool × State := u.tryAsk 2 tl.part a (d.qn, d.slot, d.next)
      let v : State := r.2
      u.orderMet d ⟨u, 2, tl⟩ d.next && r.1 && v.droverHands 2 d && v.coreFree 2 && v.pick 2 == some d.qn && v.domOn (coreDom 2) &&
        (let w : State := v.admitPlace 2 d tl a
         match w.tileOn 2 with
         | none => false
         | some t' => match Tx.runs ⟨w, 2, t'⟩ with
           | .error (.need b) => !b.direct && (match segMap w t'.ctx b.seg b.off b.right with
             | .ok e => (w.cached (some 2) t'.ctx e).1.isNone
             | .error _ => false)
           | _ => false))

theorem test_tileAdmission : chk adm (.tileAdmission 9 2) (fun s t => s.ctxMayRun 1 && s.rf F.holdState == 0 && !s.quiesces 2 && admits
    s && (match t.tileOn 2 with | some x => x.waits == [(⟨false, 1, 0x100, 1⟩, true)] && x.kind == 3 | none => false) && t.rb
    (F.tsqActive 2) && t.rf (F.tsqQueue 2) == 9 && t.rf (F.pReads 0) == 4) = true := by decide +kernel


/-- A DMA tile of queue 9 on core 2 with its wait, its lines and whether it has every input. -/
def td2 (wt : List (Access × Bool)) (g : List Staged) (r : Bool) : Tile :=
  { tile0 3 with qn := 9, entry := dmaE, waits := wt, staged := g, ready := r }
/-- That tile on core 2, its command in phase 4. -/
def run2 (t : Tile) : State := put [(F.tsqActive 2, 1), (F.pReads 0, 4)] (withTile 2 t adm)
def acc (seg off : Nat) : Access := ⟨false, seg, off, 1⟩
/-- The walk gives an address, and its port has a free ID. -/
def walkOk (s : State) : Bool :=
  let r : Combined × State := s.walkFill (some 0) 1 0x240
  let v : State := r.2.takeWalk (some 2) r.1
  match r.1.use 0x240 1 with
  | .ok h => v.ctxSlot 1 == some 3 && v.waiting.isEmpty && !v.lineBusy (readReq h 1 3 (.tile 2 (acc 0 0x240))) &&
    freeTag (v.tagUsed (v.portOf h)) 0 1024 == some 0
  | _ => false
/-- Context 1's stage 2 maps its first GiB to HPA 1 GiB by one leaf. -/
def paged (s : State) : State := put [(F.xltMode 1, 2), (F.s2Root 1, 16 * 2 ^ 30)]
  (poke (16 * 2 ^ 30) (natLe 8 (16 * 2 ^ 30 + 0x1001)) (poke (16 * 2 ^ 30 + 0x1000) (natLe 8 (2 ^ 30 + 31)) s))
/-- The walk faults, and the tile can leave its core. -/
def walkFaults (s : State) : Bool :=
  let r : Combined × State := s.walkFill (some 0) 1 (2 ^ 40 + 0x100)
  match r.1.use (2 ^ 40 + 0x100) 1 with
  | .fault _ _ _ _ => (match r.2.stopTile 2 (td2 [(acc 1 0x100, true)] [] false) with
    | .ok v => v.rf (F.ctxState 1) == 1 && v.xlt.reported.isEmpty
    | .error _ => false)
  | _ => false

theorem test_translationWalkDone : chk (paged (run2 (td2 [(acc 0 0x240, true)] [] false))) (.translationWalkDone 2) (fun s t => s.tileOn
    2 == some (td2 [(acc 0 0x240, true)] [] false) && s.coreRuns 2 && s.joined 0 1 (s.pageOf 1 (acc 0 0x240)) == [(2, acc 0 0x240)] &&
    walkOk s && (t.tileOn 2).any (fun x => x.waits == [(acc 0 0x240, false)]) && t.txns.length == 1 && t.txns.all (fun x => x.client ==
    .tile 2 (acc 0 0x240) && x.hpa == 2 ^ 30 + 0x240)) = true := by decide +kernel
theorem test_translationWalkDone_fault : chk (run2 (td2 [(acc 1 0x100, true)] [] false)) (.translationWalkDone 2) (fun s t => walkFaults
    s && (t.tileOn 2).isNone && t.rf (F.ctxState 1) == 2 && t.xlt.reports.length == 1 && t.xlt.reports.all (fun r => r.eva == 2 ^ 40 +
    0x100 && r.qn == 9)) = true := by decide +kernel

/-- The line that the tile reads, delivered. -/
def line0 : Staged := ⟨false, 1, 0x100, 2 ^ 40, 0x0807, false⟩
/-- The premises on the tile's result. -/
def ends0 (s : State) (tl : Tile) : Bool := match Tx.result ⟨s, 2, tl⟩ with
  | .error _ => false
  | .ok r => !r.poison && r.kv.isEmpty && r.events.all (fun e => e.1 % 0x1000 == 0) && r.counts.all (fun e => e.1.off != (F.tsqTiles 2).off) &&
    (match s.placeRes 2 tl r with
     | (.ok (ws, []), u) =>
       let tv : Tile := { tl with fin := some ⟨{ r with outs := [] }, ws, [], false, false⟩ }
       let v : State := forL ws (fun w s => s.doWr 2 tl ((s.ctxSlot tl.ctx).getD 0) w) (u.putTile 2 tv)
       (u.ctxSlot tl.ctx).isSome && v.tileOn 2 == some tv && v.waiting.all (fun w => w.core != some 2) && !(v.core 2).retirePend
     | _ => false)

theorem test_tileEndNormal : chk (run2 (td2 [] [line0] true)) (.tileEndNormal 2) (fun s t => s.tileOn 2 == some (td2 [] [line0] true) &&
    s.coreRuns 2 && !(s.core 2).retirePend && ends0 s (td2 [] [line0] true) && (t.tileOn 2).isNone && !t.rb (F.tsqActive 2) && t.rf
    (F.tsqTiles 2) == 1 && leNat (t.rawBytes (2 ^ 30 + 0x8000) 64) == 0x0807 && t.cmds.all (fun d => d.ended.contains 0) && t.rf
    (F.pReads 0) == 0) = true := by decide +kernel
theorem test_tileEndNormal_waits : chk (run2 (td2 [] [] false)) (.tileEndNormal 2) (fun s t => s.tileOn 2 == some (td2 [] [] false) && t
    == s) = true := by decide +kernel

theorem lines_ok (x : Tx) (d : Bool) (seg : Nat) : ∀ k off, (∀ i < k, ∃ g ∈ x.t.staged, (g.direct == d && g.seg == seg && g.off == off + 64 * i) = true) →
    ∃ b, x.lines d seg off k = .ok b := by
  intro k
  induction k with
  | zero => intro off _; exact ⟨[], rfl⟩
  | succ k ih =>
    intro off h
    obtain ⟨g, hg, hp⟩ := h 0 (by omega)
    obtain ⟨b, hb⟩ := ih (off + 64) (fun i hi => by
      obtain ⟨g, hg, hp⟩ := h (i + 1) (by omega)
      exact ⟨g, hg, by rw [show off + 64 + 64 * i = off + 64 * (i + 1) by omega]; exact hp⟩)
    have hs : (x.t.staged.find? (fun g => g.direct == d && g.seg == seg && g.off == off)).isSome = true :=
      List.find?_isSome.mpr ⟨g, hg, by simpa using hp⟩
    obtain ⟨u, hu⟩ := Option.isSome_iff_exists.mp hs
    have hl : x.line d seg off = .ok ((natLe 64 u.data.toNat).map (fun b => (b, u.poison))) := by simp only [Tx.line, hu]
    exact ⟨_, by simp only [Tx.lines, hl, hb]; rfl⟩

theorem cbTile_lines (x : Tx) (h : x.cbImage x.t.half = 0) : x.cbTile = (x.lines false 0 0 8192).map (fun l => (l.drop 0).take 0x80000) := by
  have a : aSrc 0 = 0 := by decide
  have b : aSeg 0 = 0 := by decide
  have c : aOff 0 = 0 := by decide
  have d : ceilDiv (0 % 64 + 0x80000) 64 = 8192 := by decide +kernel
  simp only [Tx.cbTile, h, Tx.read, Tx.readSrc, Tx.mem, a, b, c, Nat.add_zero, Nat.zero_div, Nat.zero_mul, Nat.reduceEqDiff, if_false, if_true, d]
  cases x.lines false 0 0 8192 <;> rfl

/-- Lines of zeros of segment 0, from its offset 0. -/
def zeroLines (n : Nat) : List Staged := (List.range n).map (fun i => ⟨false, 0, 64 * i, 0, 0, false⟩)

theorem cbTile_ok (x : Tx) (h : x.cbImage x.t.half = 0) (hs : x.t.staged = zeroLines 8192) : x.cbTile.isOk = true := by
  obtain ⟨b, hb⟩ := lines_ok x false 0 8192 0 (fun i hi => by
    rw [hs, zeroLines]
    exact ⟨_, List.mem_map.mpr ⟨i, List.mem_range.mpr hi, rfl⟩, by simp⟩)
  rw [cbTile_lines x h, hb]
  rfl

/-- A codebook tile on core 2 whose image, at segment 0's offset 0, has been delivered. -/
def tileCb (l : List Staged) : Tile := { tile0 4 with ready := true, staged := l }

theorem test_tileEndNormal_codebook : (⟨withTile 2 (tileCb (zeroLines 8192)) st, 2, tileCb (zeroLines 8192)⟩ : Tx).cbTile.isOk = true :=
  cbTile_ok _ (by rw [tileCb]; decide +kernel) (by simp only [tileCb])


/-- The command is parked with tile 0 next; `sv` is the queue's save entry list. -/
def parked (l : List (Nat × Nat × Nat × Nat × Nat)) : State :=
  put [(F.grzSaveBase, 3 * 2 ^ 30)] ((has adm [{ ti with parked := true, resume := 0 }]).modQueue 9 (fun q => { q with save := l }))
/-- The save record of queue 9: one entry, its RESUME 0. -/
def saveRec : List Byte := bytesOf 64 [(0, 2, 9), (2, 1, 1), (16, 2, 0), (20, 4, 0), (24, 4, 0)]

theorem test_parkedResume : chk (poke (3 * 2 ^ 30 + 64 * 9) saveRec (poke (2 ^ 30) (ti.bytes) (parked [(0, 4, 0, 0, 0)])))
    (.parkedResume 9) (fun s t => s.ctxMayRun 1 && s.rf F.holdState == 0 && s.coreFree 2 && s.pick 2 == some 9 && s.saveRecord 9 == some
    saveRec && reads (s.reread { ti with parked := true }) ti.bytes && t.cmds.all (fun d => !d.parked && d.phase == 4 && d.next == 0)) =
    true := by decide +kernel
theorem test_parkedResume_bad : chk (parked [(0, 4, 0, 0, 0)]) (.parkedResume 9) (fun s t => s.coreFree 2 && s.pick 2 == some 9 &&
    (s.saveRecord 9).isNone && t.cmds.all (fun d => !d.parked && d.phase == 5 && d.status == 0x40 && d.halts)) = true := by
    decide +kernel

/-! Time, ramps, interrupt messages. -/

theorem test_epochPulse : chk (put [(F.epochCount, 5), (F.grzEn, 1), (F.grzLeft, 9)] (run2 (td2 [] [] false))) (.epochPulse
    0x0004000300020001 77 0) (fun s t => s.pins.porN && s.isReady && s.rb F.grzEn && t.rf F.epochCount == 6 && t.rf (F.monBeats 0) == 1
    && t.rf (F.monBeats 3) == 4 && t.rf (F.monTj 0) == 77 && (t.drover 1).dog == 1 && t.grz.count == 1 && t.rf F.grzLeft == 8 &&
    t.boot.shepDog == 1) = true := by decide +kernel
theorem test_epochPulse_boot : chk { up with boot := { up.boot with phase := .booting } } (.epochPulse 1 77 0) (fun s t => s.pins.porN
    && !s.isReady && t.rf F.epochCount == 1 && t.rf (F.monTj 0) == 0) = true := by decide +kernel
theorem test_epochPulse_reset : chk State.reset (.epochPulse 1 77 0) (fun s t => !s.pins.porN && t == s) = true := by decide +kernel

/-- Core 2's MXE activity, level and filler beats left. -/
def mx (act level left : Nat) : State := put [(F.mxeLevel 2, level), (F.rampBeats 2, 512), (F.mxeFiller 2, 1)] (st.modCore 2 (fun k => { k with act := act, fillLeft := left, ramp := 256 }))

theorem test_mxeFillGapExpiry : chk (mx 2 16 40) (.mxeFillGapExpiry 2) (fun s t => s.rb (F.mxeFiller 2) && (s.core 2).fillLeft == 40 &&
    (s.core 2).act == 2 && s.coreRuns 2 && t.rf (F.mxePhase 2) == 3 && t.rb (F.mxeFiller 2) && t.rf (F.mxeFill 2) == 40 && (t.core
    2).act == 3 && (t.core 2).fillLeft == 0 && (t.core 2).ramp == 512) = true := by decide +kernel
theorem test_mxeFillGapExpiry_none : chk (mx 2 16 0) (.mxeFillGapExpiry 2) (fun s t => (s.core 2).fillLeft == 0 && t == s) = true := by
    decide +kernel
theorem test_mxeRampInterval_up : chk (mx 1 14 0) (.mxeRampInterval 2) (fun s t => s.coreRuns 2 && (s.core 2).act == 1 && t.rf
    (F.mxeLevel 2) == 15 && (t.core 2).act == 1 && t.rf (F.mxeQuiet 2) == 2) = true := by decide +kernel
theorem test_mxeRampInterval_top : chk (mx 1 16 0) (.mxeRampInterval 2) (fun s t => s.coreRuns 2 && (s.core 2).act == 1 && t.rf
    (F.mxeLevel 2) == 16 && t.rf (F.mxePhase 2) == 2 && (t.core 2).act == 2) = true := by decide +kernel
theorem test_mxeRampInterval_down : chk (mx 3 2 0) (.mxeRampInterval 2) (fun s t => s.coreRuns 2 && (s.core 2).act == 3 && t.rf
    (F.mxeLevel 2) == 1 && (t.core 2).act == 3 && t.rf (F.mxeFill 2) == 2 && t.rf (F.mxeQuiet 2) == 14) = true := by decide +kernel
theorem test_mxeRampInterval_bottom : chk (mx 3 1 64) (.mxeRampInterval 2) (fun s t => s.coreRuns 2 && (s.core 2).act == 3 && t.rf
    (F.mxeLevel 2) == 0 && (t.core 2).act == 0 && t.rf (F.mxePhase 2) == 0 && bit (t.rf (F.evRaw (pgMxe 2))) 2) = true := by
    decide +kernel

/-- A message of vector 7 waits to be sent. -/
def msg : IrqMsg := ⟨some 7, 0x1000, 5, none⟩
def irq (s : State) : State := { s with pins := { s.pins with irqQ := [msg] } }

theorem test_irqMessageSend : chk (irq st) .irqMessageSend (fun s t => s.pins.irqQ == [msg] && s.irqFree msg && s.rf F.hostState == 0 &&
    !s.flock.joined && s.xing .hrp && t.pins.irqQ.isEmpty && t.pins.irqSent == [msg] && t.regs == s.regs) = true := by decide +kernel
theorem test_irqMessageSend_held : chk (irq (put [(F.hostState, 1)] st)) .irqMessageSend (fun s t => s.pins.irqQ == [msg] && s.rf
    F.hostState == 1 && t.pins.irqQ.isEmpty && t.rf F.irqHeld == 128) = true := by decide +kernel
theorem test_irqMessageSend_stopped : chk (irq { st with pins := { st.pins with stopped := [.hrp] } }) .irqMessageSend (fun s t =>
    !s.xing .hrp && t == s) = true := by decide +kernel
theorem test_irqMessageSend_after : chk
    { c1 with pins := { c1.pins with irqQ := [{ msg with after := some (9, 0) }] }, txns := [{ txR with client := .record 9 0 }] }
    .irqMessageSend (fun s t => !s.irqFree { msg with after := some (9, 0) } && t == s) = true := by decide +kernel
theorem test_irqMessageSend_member : (fun s : State => s.flock.joined && !s.rb F.flkBw && s.routeTo 0 == 1 && s.rf (F.lkState 1) == 3 &&
    (s.link 1).waitQ.isEmpty && decide (0 < (s.link 1).cred.getD 0 0) && decide (0 < (s.link 1).cred.getD 1 0)) (irq mem3) = true := by
    decide +kernel

/-! Sheepdogs and resets. -/

/-- Core 2's sheepdog counts and limits, a tile on it. -/
def dg (d : List Nat) : State := put ((List.range 5).map (fun e => (F.shdLimit 2 e, 10))) ((run2 (td2 [] [] false)).modCore 2 (fun k => { k with dogs := d }))

theorem test_engineSheepdogExpiry_mxe : chk (dg [10, 0, 0, 0, 0]) (.engineSheepdogExpiry 2 .mxe) (fun s t => decide (s.rf (F.shdLimit 2
    0) ≤ (s.core 2).dogs.getD 0 0) && s.rf F.holdState != 1 && !(s.cluster 0).resetting && bit (t.rf (F.shdExpired 2)) 0 && bit (t.core
    2).engRst 0 && t.rb (F.shdEngRst 2)) = true := by decide +kernel
theorem test_engineSheepdogExpiry_vxe : chk (dg [0, 10, 0, 0, 0]) (.engineSheepdogExpiry 2 .vxe) (fun s t => decide (s.rf (F.shdLimit 2
    1) ≤ (s.core 2).dogs.getD 1 0) && s.rf F.holdState != 1 && !(s.cluster 0).resetting && bit (t.rf (F.shdExpired 2)) 1 && bit (t.core
    2).engRst 1 && t.rb (F.shdEngRst 2)) = true := by decide +kernel
theorem test_engineSheepdogExpiry_ate : chk (dg [0, 0, 10, 0, 0]) (.engineSheepdogExpiry 2 .ate) (fun s t => decide (s.rf (F.shdLimit 2
    2) ≤ (s.core 2).dogs.getD 2 0) && s.rf F.holdState != 1 && !(s.cluster 0).resetting && bit (t.rf (F.shdExpired 2)) 2 && bit (t.core
    2).engRst 2 && t.rb (F.shdEngRst 2)) = true := by decide +kernel
theorem test_engineSheepdogExpiry_wdu : chk (dg [0, 0, 0, 10, 0]) (.engineSheepdogExpiry 2 .wdu) (fun s t => decide (s.rf (F.shdLimit 2
    3) ≤ (s.core 2).dogs.getD 3 0) && s.rf F.holdState != 1 && !(s.cluster 0).resetting && bit (t.rf (F.shdExpired 2)) 3 && bit (t.core
    2).engRst 3 && t.rb (F.shdEngRst 2)) = true := by decide +kernel
theorem test_tsqSheepdogExpiry : chk (dg [0, 0, 0, 0, 10]) (.tsqSheepdogExpiry 2) (fun s t => decide (s.rf (F.shdLimit 2 4) ≤ (s.core
    2).dogs.getD 4 0) && bit (t.rf (F.shdExpired 2)) 4 && (t.core 2).engRst == 16) = true := by decide +kernel
theorem test_tsqSheepdogExpiry_early : chk (dg [0, 0, 0, 0, 9]) (.tsqSheepdogExpiry 2) (fun s t => decide ((s.core 2).dogs.getD 4 0 <
    s.rf (F.shdLimit 2 4)) && t == s) = true := by decide +kernel
theorem test_sheepdog_in_cluster_reset : chk ((dg [10, 0, 0, 0, 0]).setCluster 0 { Cluster.init with resetting := true })
    (.engineSheepdogExpiry 2 .mxe) (fun s t => (s.cluster 0).resetting && bit (t.rf (F.shdExpired 2)) 0 && (t.core 2).engRst == 0) =
    true := by decide +kernel

/-- Core 2 in engine reset since `age` EPOCHs, its tile's header byte 1 `h`. -/
def er (age h : Nat) : State := (put [(F.shdEngRst 2, 1), (F.csbBound 1, 1)] (run2 { td2 [] [] false with entry := splice dmaE 1 (natLe 1 h) })).modCore 2 (fun k => { k with engRst := 1, rstAge := age })

theorem test_engineResetComplete : chk (er 5 15) (.engineResetComplete 2) (fun s t => (s.core 2).engRst == 1 && !(s.cluster 0).resetting
    && (s.cmd 9 0).isSome && (t.core 2).engRst == 0 && !t.rb (F.shdEngRst 2) && t.rf (F.shdResets 2) == 1 && (t.tileOn 2).isNone &&
    t.cmds.all (fun d => d.stopped.contains 0) && t.rf (F.ctxState 1) == 1) = true := by decide +kernel
theorem test_engineResetComplete_serial : chk (er 5 47) (.engineResetComplete 2) (fun s t => (s.core 2).engRst == 1 && (s.tileOn 2).any
    (fun x => bit (fldOf x.entry 1 1) 5) && t.rf (F.ctxState 1) == 3 && bit (t.rf (F.evRaw (pgShd 2))) 2) = true := by decide +kernel
theorem test_engineResetComplete_none : chk st (.engineResetComplete 2) (fun s t => (s.core 2).engRst == 0 && t == s) = true := by
    decide +kernel
theorem test_engineResetLimit : chk (er 250000 15) (.engineResetLimit 2) (fun s t => (s.core 2).engRst != 0 && decide (s.toEpochs 250000
    ≤ (s.core 2).rstAge) && !(s.cluster 0).resetting && (t.cluster 0).resetting && bit (t.rf (F.evRaw (pgShd 2))) 1 && t.rb (F.shdClRst
    0) && t.rb (F.shdClRst 3) && (t.core 2).engRst == 0) = true := by decide +kernel
theorem test_clusterResetComplete : chk (put [(F.shdClRst 5, 1)]
    { c1.setCluster 1 { Cluster.init with resetting := true, dirCache := [⟨3, 0, ⟨0x4000, 0, 0, 1, 0, 0, 0, 0, 0⟩⟩] } with csb := [⟨2 ^ 24, 7⟩, ⟨2 ^ 25, 7⟩], csbMap := [(64, 65)] })
    (.clusterResetComplete 1) (fun s t => (s.cluster 1).resetting && (List.range 4).all (fun i => (s.core (4 + i)).tile.isNone) &&
    s.csbMap == [(64, 65)] && s.rf (F.ctxState 1) == 1 && !(t.cluster 1).resetting && t.csb == [⟨2 ^ 25, 7⟩] && !t.rb (F.shdClRst 5) &&
    t.rb (F.domain (coreDom 5)) && t.rf (F.ctxState 1) == 3) = true := by decide +kernel
theorem test_clusterResetComplete_none : chk st (.clusterResetComplete 1) (fun s t => !(s.cluster 1).resetting && t == s) = true := by
    decide +kernel
theorem test_queueSheepdogExpiry : chk (put [(F.qShd 9, 10)] (c1.modQueue 9 (fun q => { q with dog := 10 }))) (.queueSheepdogExpiry 9)
    (fun s t => s.rf (F.qShd 9) != 0 && decide (s.rf (F.qShd 9) ≤ (s.queue 9).dog) && s.rf (F.ctxState 1) == 1 && t.rf (F.ctxState 1) ==
    3 && (t.queue 9).dog == 0 && t.closing.any (fun k => k.ctx == 1 && k.cause == 1 && k.cmd.isNone)) = true := by decide +kernel
theorem test_queueSheepdogExpiry_steward : chk (put [(F.qShd 0, 10)] (c1.modQueue 0 (fun q => { q with dog := 10 })))
    (.queueSheepdogExpiry 0) (fun s t => decide (s.rf (F.qShd 0) ≤ (s.queue 0).dog) && bit (t.rf (F.evRaw 0)) 0 && t.cmds == s.cmds) =
    true := by decide +kernel
theorem test_queueSheepdogExpiry_early : chk (put [(F.qShd 9, 10)] (c1.modQueue 9 (fun q => { q with dog := 9 }))) (.queueSheepdogExpiry
    9) (fun s t => decide ((s.queue 9).dog < s.rf (F.qShd 9)) && t == s) = true := by decide +kernel

/-- A tile on core 2 that is being aborted since EPOCH count 0. -/
def ab (e : Nat) : State := put [(F.epochCount, e), (F.ctxState 1, 3)] { run2 { td2 [] [] false with aborting := true } with timers := [(0x1001, 1)] }

theorem test_abortAck : chk (ab 0) (.abortAck 2) (fun s t => (s.tileOn 2).any (fun x => x.aborting) && (s.core 2).engRst == 0 &&
    (t.tileOn 2).isNone && !t.rb (F.tsqActive 2) && t.rf (F.pReads 0) == 0) = true := by decide +kernel
theorem test_abortAckTimeout : chk (ab 20000) (.abortAckTimeout 2) (fun s t => s.reached (.ctxAbort 1) (s.toEpochs 20000) && (t.core
    2).engRst == 0b10000 && t.rb (F.shdEngRst 2)) = true := by decide +kernel
theorem test_abortAckTimeout_not_aborting : chk (run2 (td2 [] [] false)) (.abortAckTimeout 2) (fun s t => (s.tileOn 2).any (fun x =>
    !x.aborting) && t == s) = true := by decide +kernel

/-! Firmware. -/

/-- Earlier crashes at EPOCH counts `l`; the count is now 2^20. -/
def cra (l : List Nat) : State := put [(F.epochCount, 2 ^ 20)] { st with boot := { st.boot with crashes := l } }

theorem test_droverCrash : chk (cra [1, 0]) (.droverCrash 1 2) (fun s t => s.rb (F.dvRunning 1) && (s.boot.crashes.filter (fun e =>
    decide (s.now - e < 2 ^ 20))).length == 1 && !t.rb (F.dvRunning 1) && t.rb (F.dvRestarting 1) && t.rf (F.dvCause 1) == 3 && t.rf
    (F.dvCrashEpoch 1) == 2 ^ 20 && t.rf (F.dvTotal 1) == 1 && t.rf (F.dvWindow 3) == 2 && t.rb (F.dvRunning 0)) = true := by
    decide +kernel
theorem test_droverCrash_third : chk (cra [2, 1]) (.droverCrash 1 2) (fun s t => (s.boot.crashes.filter (fun e => decide (s.now - e < 2
    ^ 20))).length == 2 && resetBy t 4) = true := by decide +kernel
theorem test_droverCrash_stopped : chk (put [(F.dvRunning 1, 0)] st) (.droverCrash 1 2) (fun s t => !s.rb (F.dvRunning 1) && t == s) =
    true := by decide +kernel
theorem test_droverSheepdogExpiry : chk ((cra []).setDrover 2 { Drover.init with dog := 1000000 }) (.droverSheepdogExpiry 2) (fun s t =>
    s.rb (F.dvRunning 2) && decide (s.toEpochs 1000000 ≤ (s.drover 2).dog) && t.rf (F.dvCause 2) == 4 && !t.rb (F.dvRunning 2)) = true
    := by decide +kernel
theorem test_droverRestartDone : chk ((put [(F.dvRestarting 2, 1), (F.dvRunning 2, 0)] st).setDrover 2
    { Drover.init with slotB := true }) (.droverRestartDone 2 true) (fun s t => s.rb (F.dvRestarting 2) && t.rb (F.dvRunning 2) && !t.rb
    (F.dvRestarting 2) && t.rb (F.dvSlot 2) && bit (t.rf (F.evRaw pgShm)) 7 && (t.drover 2).regions.length == 4) = true := by
    decide +kernel
theorem test_droverRestartDone_digest : chk (put [(F.dvRestarting 2, 1), (F.dvRunning 2, 0)] st) (.droverRestartDone 2 false) (fun s t
    => s.rb (F.dvRestarting 2) && s.boot.crashes.isEmpty && t.rb (F.dvRestarting 2) && t.rf (F.dvCause 2) == 5) = true := by
    decide +kernel

/-- The Shepherd's sheepdog has expired; the last restart was at EPOCH count 0, if any. -/
def sd (e : Nat) (r : Option Nat) : State := put [(F.epochCount, e)] { st with boot := { st.boot with shepDog := 200000000, shepRestart := r } }

theorem test_shepherdSheepdogExpiry : chk (sd 5 none) (.shepherdSheepdogExpiry true) (fun s t => s.isReady && s.shepUp && decide
    (s.toEpochs 200000000 ≤ s.boot.shepDog) && t.boot.shepHalted && t.rb F.mbPaused && t.boot.shepRestart == some 5) = true := by
    decide +kernel
theorem test_shepherdSheepdogExpiry_again : chk (sd (2 ^ 20 - 1) (some 0)) (.shepherdSheepdogExpiry true) (fun s t => s.isReady &&
    s.shepUp && decide (s.toEpochs 200000000 ≤ s.boot.shepDog) && resetBy t 5) = true := by decide +kernel
theorem test_shepherdSheepdogExpiry_digest : chk (sd (2 ^ 20) (some 0)) (.shepherdSheepdogExpiry false) (fun s t => s.isReady &&
    s.shepUp && decide (s.toEpochs 200000000 ≤ s.boot.shepDog) && resetBy t 5) = true := by decide +kernel
theorem test_shepherdRestartDone : chk (put [(F.mbPaused, 1)] { st with boot := { st.boot with shepHalted := true } })
    .shepherdRestartDone (fun s t => s.boot.shepHalted && !t.boot.shepHalted && !t.rb F.mbPaused && bit (t.rf (F.evRaw pgShm)) 8) = true
    := by decide +kernel
theorem test_kickRegisterWrite_shepherd : chk (sd 5 none) (.kickRegisterWrite none) (fun s t => t.boot.shepDog == 0 && t.regs == s.regs)
    = true := by decide +kernel
theorem test_kickRegisterWrite_drover : chk (st.setDrover 2 { Drover.init with dog := 9 }) (.kickRegisterWrite (some 2)) (fun _ t =>
    (t.drover 2).dog == 0) = true := by decide +kernel

/-- A FLOCK_BIND waits for Drover 0 since EPOCH count 0. -/
def svc (e : Nat) : State := put [(F.dvRunning 0, 0), (F.dvSvc 0, 100), (F.epochCount, e)] (has st [{ fb 2 0 with svc := true }])

theorem test_dvSvcTimeout : chk (svc 101) (.dvSvcTimeout 0) (fun s t => (fb 2 0).duty == some 0 && !s.rb (F.dvRunning 0) && decide (s.rf
    (F.dvSvc 0) < s.now - 0) && (s.cmdsOf 0).find? (fun c => c.phase == 4 && !c.acted && c.svc) == some { fb 2 0 with svc := true } &&
    t.cmds == [({ fb 2 0 with svc := true } : Cmd).done 0x71]) = true := by decide +kernel
theorem test_dvSvcTimeout_early : chk (svc 100) (.dvSvcTimeout 0) (fun s t => decide (s.now - 0 ≤ s.rf (F.dvSvc 0)) && t == s) = true :=
    by decide +kernel
theorem test_shepherdServiceDone_down : chk (has { ck with boot := { ck.boot with shepHalted := true } }
    [{ kb 0 0 5 1 0 with svc := true }]) (.shepherdServiceDone 0) (fun s t => !s.shepUp && (kb 0 0 5 1 0).shepSvc && t == s) = true :=
    by decide +kernel
theorem test_shepherdServiceDone : (fun s : State => s.shepUp && reads (s.setupCheck { su 5 with svc := true }) (sb 0x80000505) &&
    (s.cmdsOf 0).find? (fun c => c.phase == 4 && !c.acted && c.svc && c.shepSvc) == some { su 5 with svc := true }) (s0
    { su 5 with svc := true } 0x80000505) = true := by decide +kernel

/-- A Shepherd update of slot 0 of queue 0 at step 2; the trust state. -/
def upd (tr : Nat) (p : Option Nat) : State := put [(F.mbPaused, 1), (F.trust, tr)]
  { has st [{ ti with qn := 0 }] with shep := { st.shep with update := some ⟨0, 0, true, 7, 99, 2⟩, permit := p } }

theorem test_shepherdUpdateResume : chk (upd 0 none) .shepherdUpdateResume (fun s t => s.shep.update == some ⟨0, 0, true, 7, 99, 2⟩ &&
    s.rf F.holdState == 0 && !s.shep.stopping && s.pins.taHeld.isEmpty && !t.rb F.mbPaused && t.shep.svnShep == 7 &&
    t.shep.update.isNone && t.rf F.trust == 0 && t.cmds.all (fun d => d.phase == 5 && d.status == 0)) = true := by decide +kernel
theorem test_shepherdUpdateResume_trusted : chk (upd 1 none) .shepherdUpdateResume (fun s t => s.shep.update == some ⟨0, 0, true, 7, 99,
    2⟩ && s.rf F.holdState == 0 && !s.shep.stopping && s.pins.taHeld.isEmpty && s.rf F.trust == 1 && t.rf F.trust == 3 && t.rf
    F.trustCause == 1) = true := by decide +kernel
theorem test_shepherdUpdateResume_permitted : chk (upd 2 (some 99)) .shepherdUpdateResume (fun s t => s.shep.update == some ⟨0, 0, true,
    7, 99, 2⟩ && s.rf F.holdState == 0 && !s.shep.stopping && s.pins.taHeld.isEmpty && s.rf F.trust == 2 && t.rf F.trust == 2 &&
    t.shep.permit.isNone) = true := by decide +kernel

/-! The host's liveness. -/

/-- The host's last beat was at EPOCH count 0; the count is now `e`. -/
def hl (e pol : Nat) : State := put [(F.epochCount, e), (F.hostLossEpochs, 100), (F.detachPolicy, pol), (F.attachToken, 9)] { st with timers := [(0, 1)] }

theorem test_hostLoss_hold : chk (hl 100 0) .hostLoss (fun s t => s.isReady && s.rf F.hostState == 0 && s.rf F.hostLossEpochs != 0 &&
    s.reached .hostBeat (s.rf F.hostLossEpochs) && t.rf F.hostState == 1 && bit (t.rf (F.evRaw 0)) 3 && t.mem == s.mem) = true := by
    decide +kernel
theorem test_hostLoss_preserve : chk (hl 100 1) .hostLoss (fun s t => s.isReady && s.rf F.hostState == 0 && s.rf F.hostLossEpochs != 0
    && s.reached .hostBeat (s.rf F.hostLossEpochs) && t.rf F.hostState == 2 && bit (t.core 15).quiesceReq 1) = true := by decide +kernel
theorem test_hostLoss_early : chk (hl 99 0) .hostLoss (fun s t => !s.reached .hostBeat (s.rf F.hostLossEpochs) && t == s) = true := by
    decide +kernel
theorem test_hostBeat : chk (hl 50 0) (.hostBeat 1) (fun s t => s.isReady && s.rf F.hostState == 0 && t.elapsed .hostBeat == some 0 &&
    t.regs == s.regs) = true := by decide +kernel
theorem test_hostBeat_lost : chk (put [(F.hostState, 1)] (hl 50 0)) (.hostBeat 1) (fun s t => s.rf F.hostState == 1 && t == s) = true :=
    by decide +kernel
theorem test_attachWrite_bad : chk (put [(F.hostState, 1), (F.badTokens, 255)] (hl 50 0)) (.attachWrite 8) (fun s t => s.isReady && s.rf
    F.attachToken == 9 && t.rf F.badTokens == 255 && t.rf F.hostState == 1) = true := by decide +kernel
theorem test_attachWrite_held : (fun s : State => s.isReady && s.rf F.attachToken == 9 && s.rf F.hostState == 1) (put [(F.hostState, 1),
    (F.badTokens, 3), (F.irqHeld, 0x81)] (hl 50 0)) = true := by decide +kernel
theorem test_attachWrite_attached : chk (hl 50 0) (.attachWrite 9) (fun s t => s.rf F.attachToken == 9 && s.rf F.hostState == 0 && t ==
    s) = true := by decide +kernel

/-- The host is lost and a PRESERVE save has sealed in area A. -/
def pres (n : Nat) : State := put [(F.hostState, n)] { hl 50 1 with hsa := { st.hsa with areaA := some { sv with preserve := true, sealed := true, superseded := false } } }

theorem test_preserveMessage : chk (pres 2) .preserveMessage (fun s t => s.rf F.hostState == 2 && s.isReady && (s.newest).any (fun p =>
    p.1.preserve && !p.1.superseded) && s.txns.isEmpty && s.xing .hrp && t.rf F.hostState == 3 && t.pins.irqSent == [⟨none, 0, 0,
    none⟩]) = true := by decide +kernel
theorem test_preserveMessage_none : chk (put [(F.hostState, 2)] (hl 50 1)) .preserveMessage (fun s t => s.newest.isNone && t == s) =
    true := by decide +kernel
theorem test_attachWrite_preserved : (fun s : State => s.isReady && s.rf F.attachToken == 9 && s.rf F.hostState == 3) (put
    [(F.holdState, 5)] (pres 3)) = true := by decide +kernel
theorem test_attachFresh : chk (pres 3) (.attachFresh true) (fun s t => s.isReady && s.newest.isSome && resetBy t 9 && (t.newest).any
    (fun p => p.1.superseded)) = true := by decide +kernel
theorem test_attachFresh_zero : chk (pres 3) (.attachFresh false) (fun s t => t == s) = true := by decide +kernel

/-! FW_STAGE, the mailbox, SPDM. No image, and no certificate chain, can be written out: what passes their checks rests on
opaque constants of Config; the witnesses show the premises outside those choices. -/

/-- FW_STAGE of `n` bytes of a type at offset 0x3000. -/
def fw (type n target : Nat) : Cmd := cm 0 0 4 [(0, 1, 0x89), (48, 2, target), (50, 1, type), (56, 8, 0x3000), (64, 4, n)]
def fwAt (c : Cmd) (s : State) : State := mapped 0 (2 ^ 31) (has (put [(F.ctxState 0, 1)] s) [c])

theorem test_fwStageDrover_type : chk (fwAt (fw 3 512 0) st) (.fwStageDrover 0) (fun s t => s.fwStage 0 false == some (fw 3 512 0) &&
    (fw 3 512 0).fwCheck == 17 && ends s t (fw 3 512 0) 17 && only s t) = true := by decide +kernel
theorem test_fwStageDrover_zero : chk (fwAt (fw 2 0 0) st) (.fwStageDrover 0) (fun s t => s.fwStage 0 false == some (fw 2 0 0) && (fw 2
    0 0).fwCheck == 16 && ends s t (fw 2 0 0) 16 && only s t) = true := by decide +kernel
theorem test_fwStageShepherd_long : chk (fwAt (fw 1 524289 0) st) (.fwStageShepherd 0) (fun s t => s.fwStage 0 true == some (fw 1 524289
    0) && (fw 1 524289 0).fwCheck == 17 && ends s t (fw 1 524289 0) 17 && only s t) = true := by decide +kernel
theorem test_fwStageShepherd_target : chk (fwAt (fw 1 512 1) st) (.fwStageShepherd 0) (fun s t => s.fwStage 0 true == some (fw 1 512 1)
    && (fw 1 512 1).fwCheck == 17 && ends s t (fw 1 512 1) 17 && only s t) = true := by decide +kernel
theorem test_fwStageDrover : (fun s : State => (s.fwStage 0 false).isSome && (fw 2 524288 0).fwCheck == 0 && s.shepUp) (fwAt (fw 2
    524288 0) st) = true := by decide +kernel
theorem test_fwStageDrover_waits : chk (fwAt (fw 2 512 0) { st with boot := { st.boot with shepHalted := true } }) (.fwStageDrover 0)
    (fun s t => (s.fwStage 0 false).isSome && (fw 2 512 0).fwCheck == 0 && !s.shepUp && only s t && t.cmds.all (fun d => d.svc)) = true
    := by decide +kernel
theorem test_fwStageShepherd : (fun s : State => (s.fwStage 0 true).isSome && (fw 1 524288 0).fwCheck == 0 && s.shepUp) (fwAt (fw 1
    524288 0) st) = true := by decide +kernel
theorem test_fwStageShepherd_waits : chk (fwAt (fw 1 512 0) { st with boot := { st.boot with shepHalted := true } }) (.fwStageShepherd
    0) (fun s t => (s.fwStage 0 true).isSome && (fw 1 512 0).fwCheck == 0 && !s.shepUp && only s t && t.cmds.all (fun d => d.svc)) =
    true := by decide +kernel
theorem test_mbInfo : chk (put [(F.mbLen, 8), (F.mbBuf, 0x40000), (F.mbDone, 1)] st) (.mbInfo 7) (fun s t => s.pins.porN && !s.rb
    F.mbBusy && !s.rb F.mbPaused && t.rb F.mbBusy && !t.rb F.mbDone && t.shep.mb == some ⟨1, 7, 8, 0x40000, 0, none⟩) = true := by
    decide +kernel
theorem test_mbLogRead_busy : chk (put [(F.mbBusy, 1)] st) (.mbLogRead 7) (fun s t => s.pins.porN && s.rb F.mbBusy && bit (t.rf (F.evRaw
    pgShm)) 5 && t.shep == s.shep) = true := by decide +kernel
theorem test_mbSpdm_paused : chk (put [(F.mbPaused, 1)] st) (.mbSpdm 7) (fun s t => s.pins.porN && s.rb F.mbPaused && bit (t.rf (F.evRaw
    pgShm)) 5 && t.shep == s.shep) = true := by decide +kernel
theorem test_mbStage_reset : chk State.reset (.mbStage 7) (fun s t => !s.pins.porN && t == s) = true := by decide +kernel

/-- A mailbox request in service, its buffer at 0x40000. -/
def mb (op len : Nat) : State := put [(F.mbBusy, 1)] { st with shep := { st.shep with mb := some ⟨op, 7, len, 0x40000, 0, none⟩ } }

theorem test_mbRequestDone : chk (mb 4 0) .mbRequestDone (fun s t => s.shepServes && s.mbAnswer ⟨4, 7, 0, 0x40000, 0, none⟩ == some (0,
    List.replicate 16 0) && !s.encrypts 1 && t.shep.mb.isNone && !t.rb F.mbBusy && t.rb F.mbDone && t.rf F.mbResult == 0 && t.rf
    F.mbRlen == 16 && t.rf F.mbTag == 7 && bit (t.rf (F.evRaw pgShm)) 4) = true := by decide +kernel
theorem test_mbRequestDone_log : chk (mb 2 0) .mbRequestDone (fun s t => s.mbAnswer ⟨2, 7, 0, 0x40000, 0, none⟩ == some (2, []) && t.rf
    F.mbResult == 2 && t.rf F.mbRlen == 0) = true := by decide +kernel
theorem test_mbRequestDone_none : chk st .mbRequestDone (fun s t => s.shep.mb.isNone && t == s) = true := by decide +kernel

/-- An SPDM request of 4 bytes waits; `n` sessions are open, the first established or not. -/
def sp (n : Nat) (e : Bool) : State := let s : State := mb 3 4
  { s with shep := { s.shep with sessions := (List.range n).map (fun i => ⟨65536 * i + 1, i, e⟩) } }
def rq : MbReq := ⟨3, 7, 4, 0x40000, 0, none⟩

theorem test_getVersion : (fun s : State => s.spdmReq == some rq) (sp 1 false) = true := by decide +kernel
theorem test_getCapabilities : (fun s : State => s.spdmReq == some rq) (sp 1 false) = true := by decide +kernel
theorem test_negotiateAlgorithms : (fun s : State => s.spdmReq == some rq) (sp 1 false) = true := by decide +kernel
theorem test_spdmUnsupportedRequest : (fun s : State => s.spdmReq == some rq) (sp 1 false) = true := by decide +kernel
theorem test_challenge : (fun s : State => s.spdmReq == some rq) (sp 1 false) = true := by decide +kernel
theorem test_getMeasurements : (fun s : State => s.spdmReq == some rq) (sp 1 false) = true := by decide +kernel
theorem test_getMeasurements_6 : (fun s : State => s.spdmReq == some rq) (sp 1 false) = true := by decide +kernel
theorem test_getCertificate : (fun s : State => s.spdmReq == some rq) (sp 1 false) = true := by decide +kernel
theorem test_spdm_sessions : (fun s : State => s.spdmReq == some rq && s.shep.sessions.length == 8 && s.shep.sessions.find? (fun k =>
    k.id == 65537 && !k.established) == some ⟨65537, 1, false⟩) (sp 8 false) = true := by decide +kernel
theorem test_keyExchange : (fun s : State => s.spdmReq == some rq && s.shep.sessions.length == 7 && s.shep.sessions.all (fun k => k.id
    != 65537 || k.established)) (sp 7 true) = true := by decide +kernel
theorem test_endSession : (fun s : State => s.spdmReq == some rq && s.shep.sessions.any (fun k => k.id == 65537)) (sp 3 true) = true :=
    by decide +kernel
theorem test_spdm_no_request : chk st .getVersion (fun s t => s.spdmReq.isNone && t == s) = true := by decide +kernel


/-! Clauses that name a register, a range or a page. -/

theorem test_seqRefetch_passes : chk (put [(F.qRefetches 9, 6), (F.epochCount, 4)] ((poke (2 ^ 30) (nopSlot 0) c1).modQueue 9 (fun q =>
    { q with refetch := some (0, 0, []) }))) (.seqRefetch 9) (fun s t => (s.queue 9).refetch == some (0, 0, []) && (s.queue 9).fetch ==
    0 && reads (s.readSlot 9 0) (nopSlot 0) && t.cmds == [newCmd 9 0 (nopSlot 0) 1] && (t.queue 9).refetch.isNone && (t.queue 9).fetch
    == 1) = true := by decide +kernel
theorem test_commandComplete_no_record : chk (put [(F.segLimit 1 0, 0)] (has c1 [done 0])) (.commandComplete 9) (fun s t => s.cmdsOf 9
    == [done 0] && (s.putRecord (done 0)).1 == 0x22 && t.rb (F.qHalted 9) && t.rf (F.qReason 9) == 0x22 && (t.queue 9).headStop &&
    t.cmds.isEmpty && t.rf (F.qHead 9) == 0 && t.rf (F.cqTail 9) == 0) = true := by decide +kernel
theorem test_siDataWord_line : chk (si1.setInlet 1
    { Inlet.init with inFrame := true, got := 62, bytes := 62, part := List.replicate 62 0 }) (.siDataWord 1 0x04030201 2 false false)
    (fun s t => (s.inlet 1).inFrame && decide (64 ≤ (s.inlet 1).bytes % 64 + 2) && t.mem != s.mem || !(t.inlet 1).inFrame) = true := by
    decide +kernel
theorem test_siDataWord_full : chk (frame1 0) (.siDataWord 1 0x04030201 4 true true) (fun s t => s.siOpen 1 && (s.inlet 1).inFrame &&
    (t.inlet 1).got == 0 && bit (t.inlet 1).flags 2 && (t.inlet 1).units == 1) = true := by decide +kernel
theorem test_siFrameStart_closed : chk st (.siFrameStart 1 0xAA 2 false true false) (fun s t => !s.siOpen 1 && t == s) = true := by
    decide +kernel
theorem test_registerWrite_plain : chk st (.registerWrite .host (BitVec.ofNat 26 (pgMxe 3 + 0x40)) false 0x12345) (fun s t => s.takes
    .host (pgMxe 3 + 0x40) && !s.pageLocked ⟨.mxe, 3, pgMxe 3⟩ && (regAt (pgMxe 3 + 0x40)).any (fun r => r.off == pgMxe 3 + 0x40 &&
    !r.row.wide && r.row.fields == [⟨0, 16, .rwl, 0x100⟩] && r.loc == ⟨.mxe, 3, pgMxe 3⟩) && (t.reg (pgMxe 3 + 0x40)).toNat == 0x2345 &&
    same s t [pgMxe 3 + 0x40]) = true := by decide +kernel
theorem test_registerWrite_locked : chk (put [(F.trust, 1)] st) (.registerWrite .host (BitVec.ofNat 26 (pgMxe 3 + 0x40)) false 0x12345)
    (fun s t => s.takes .host (pgMxe 3 + 0x40) && s.pageLocked ⟨.mxe, 3, pgMxe 3⟩ && t.reg (pgMxe 3 + 0x40) == s.reg (pgMxe 3 + 0x40)) =
    true := by decide +kernel
theorem test_registerWrite_ro : chk st (.registerWrite (.drover 0) (BitVec.ofNat 26 (pgMxe 3 + 0x48)) false 0xFFFF) (fun s t => s.takes
    (.drover 0) (pgMxe 3 + 0x48) && t.regs == s.regs) = true := by decide +kernel
theorem test_registerWrite_si : chk (put [(F.siEn 1, 0)] si1) (.registerWrite .host (BitVec.ofNat 26 (pgSi 1 + 0x4C)) false 7) (fun s t
    => s.takes .host (pgSi 1 + 0x4C) && !s.rb (F.siEn 1) && (t.reg (pgSi 1 + 0x4C)).toNat == 7) = true := by decide +kernel
theorem test_registerWrite_wide : chk st (.registerWrite .host 0x4050 true 0xABCDE00FFFFF) (fun s t => s.takes .host 0x4050 &&
    !s.pageLocked ⟨.grz, 0, 0x4000⟩ && bits (t.reg 0x4050).toNat 21 31 == 0xABCDE00FFFFF / 2 ^ 21 && same s t [0x4050]) = true := by
    decide +kernel

/-- The directory at 4 GiB and the free ring at 5 GiB; blocks 6 and 7 are OFFLINE; provisioning of `n` blocks from 6. -/
def prov (n : Nat) : State := put [(F.dirBase, 2 ^ 32), (F.ringBase, 5 * 2 ^ 30), (F.ringLog2, 8), (F.dirCount, 8), (F.provFirst, 6), (F.provCount, n)]
  (poke (2 ^ 32 + 96) (DirEnt.bytes ⟨0x4000, 0, 0, 0, 0, 0, 0, 0, 0⟩ ++ DirEnt.bytes ⟨0x8000, 0, 0, 0, 0, 0, 0, 0, 0⟩) st)

theorem test_kvdProvGo : chk (prov 2) (.kvdProvGo .host) (fun s t => s.takes .host 0x11068 && [6, 7].all (fun i => (s.dirRaw i).any (fun
    e => e.st == 0) && !s.kvd.fifo.contains i && !s.ringIds.contains i) && decide (s.provCount + 2 ≤ 2 ^ 8) && bit (t.rf (F.evRaw
    pgKvd)) 0 && t.kvd.ringTail == 2 && t.ringIds == [6, 7] && (t.dirRaw 7).any (fun e => e.st == 1 && e.addr == 0x8000)) = true := by
    decide +kernel
theorem test_kvdProvGo_one : chk (prov 1) (.kvdProvGo .host) (fun s t => !s.encrypts 0 && (List.range 16).all (fun j => (List.range
    4).all (fun k => (s.dirAddr 6 + j) % 2 ^ 52 != (s.ringAddr 0 + k) % 2 ^ 52)) && (t.dirRaw 6).any (fun e => e.st == 1) && leNat
    (t.rawBytes (5 * 2 ^ 30) 4) == 6) = true := by decide +kernel
theorem test_pageQuiesce_glb : chk st (.pageQuiesceReq .host 0x0C) (fun s t => s.takes .host 0x0C && !s.rb (F.pgQuiesceReq 0) && t.rb
    (F.pgQuiesceReq 0) && (List.range 16).all (fun n => bit (t.core n).quiesceReq 0)) = true := by decide +kernel
theorem test_pageQuiesce_cl : chk st (.pageQuiesceReq .host (BitVec.ofNat 26 (pgCl 2 + 0x0C))) (fun s t => s.takes .host (pgCl 2 + 0x0C)
    && !s.rb (F.pgQuiesceReq (pgCl 2)) && t.rb (F.pgQuiesceReq (pgCl 2)) && (List.range 16).all (fun n => bit (t.core n).quiesceReq 0 ==
    decide (n / 4 = 2))) = true := by decide +kernel
theorem test_pageRelease_glb : chk (put [(F.pgQuiesceReq 0, 1), (F.pgQuiesceReq (pgCl 1), 1)] st) (.pageQuiesceRelease .host 0x0C) (fun
    s t => s.takes .host 0x0C && s.rb (F.pgQuiesceReq 0) && !t.rb (F.pgQuiesceReq 0) && (List.range 16).all (fun n => bit (t.core
    n).quiesceReq 0 == decide (n / 4 = 1))) = true := by decide +kernel
theorem test_pageReset_vxe : chk st (.pageResetReq .host (BitVec.ofNat 26 (pgVxe 5 + 0x0C))) (fun s t => s.takes .host (pgVxe 5 + 0x0C)
    && s.domOn (coreDom 5) && !(s.cluster 1).resetting && s.rf F.holdState != 1 && t.rb (F.pgResetReq (pgVxe 5)) && (t.core 5).engRst ==
    2) = true := by decide +kernel
theorem test_pageReset_shd : chk st (.pageResetReq .host (BitVec.ofNat 26 (pgShd 5 + 0x0C))) (fun s t => s.takes .host (pgShd 5 + 0x0C)
    && t.rb (F.pgResetReq (pgShd 5)) && (t.core 5).engRst == 31) = true := by decide +kernel
theorem test_pageReset_cl : chk st (.pageResetReq .host (BitVec.ofNat 26 (pgCl 1 + 0x0C))) (fun s t => s.takes .host (pgCl 1 + 0x0C) &&
    s.domOn (clusterDom 1) && !(s.cluster 1).resetting && t.rb (F.pgResetReq (pgCl 1)) && (t.cluster 1).resetting && t.rb (F.shdClRst
    7)) = true := by decide +kernel
theorem test_pageReset_glb : chk st (.pageResetReq .host 0x0C) (fun s t => s.takes .host 0x0C && resetBy t 7) = true := by
    decide +kernel
theorem test_kvdError : (fun s : State => (s.kvdError ((cm 9 0 5 [(0, 1, 3)]).done 0x31)).rf (F.errCode pgKvd) == 0x31) st = true := by
    decide +kernel
theorem test_dir_reserved : (fun s : State => freeCheck true (seqOf (rec0 1 1)) == 0x11 && (ke.dirReserved == false) && (cm 9 0 4 [(0,
    1, 5), (48, 8, 2 ^ 52 + 0x6000)]).dirReserved && s.isReady) st = true := by decide +kernel
theorem test_allGather_starts : chk (lkg [co 1 8 100]) (.collectiveAllGather 9) (fun s t => s.phase4 9 7 == some (co 1 8 100) && (co 1 8
    100).coOp == 1 && s.rb (F.inPart 1) && s.poolGrants .reads 0 256 (9, 0, 0) && !(grp 4).early.contains 5 && s.routeTo 5 != 7 &&
    decide (s.rf (F.pReads 0) < 2 ^ 14 - 256) && t.flock.colls == [⟨9, 0, 1, 0, 2, 4, false, 0, 0, [], 0⟩] && t.rf (F.pReads 0) == 256
    && t.group 2 1 == some (grp 5)) = true := by decide +kernel


end Sys2Proof.Tests
end

