-- ==== Sys2Proof/WellFormed.lean ====
section
/-! DEFINITION. Which terms of Instr an agent can present. Every operand is bounded by its type, so every term is
well formed. -/

namespace Sys2Proof

/-- The command's operands are in range. -/
def Instr.wf : Instr → Bool
  | _ => true

end Sys2Proof
end

section
/-! PROOFS. A write of CQ_HEAD (09_contexts_queues_doorbells.md, R344; R341 for CQ_FULL): the range check in the words of
32-bit arithmetic, what the write does in each case, and what it leaves unchanged. The tests `test_cqHeadWrite`,
`test_cqHeadWrite_refused` and `test_cqHeadWrite_free_context` run the three cases. -/

namespace Sys2Proof.Machine

/-! Registers outside the ones written. -/

theorem State.regsBut_refl (s : State) (os : List Nat) : s.regsBut s os := fun _ _ => rfl

theorem State.regsBut_wf (s : State) (f : Fld) (v : Nat) {os : List Nat} (h : f.off ∈ os) : s.regsBut (s.wf f v) os :=
  fun o ho => s.reg_wf_ne f v o fun e => ho (e ▸ h)

theorem State.regsBut_wb (s : State) (f : Fld) (v : Bool) {os : List Nat} (h : f.off ∈ os) : s.regsBut (s.wb f v) os :=
  s.regsBut_wf f (b2n v) h

theorem State.regsBut_trans {s t u : State} {os : List Nat} (h : s.regsBut t os) (h' : t.regsBut u os) : s.regsBut u os :=
  fun o ho => (h' o ho).trans (h o ho)

/-! The range check. -/

theorem sub32_eq_toNat_sub (a b : Nat) : sub32 a b = (BitVec.ofNat 32 a - BitVec.ofNat 32 b).toNat := by
  simp only [sub32, BitVec.toNat_sub, BitVec.toNat_ofNat]
  omega

/-- R344's condition on a written value, as 32-bit words state it. -/
theorem cqHeadOk_toNat_iff (cqTail cqHead log2 : Nat) (v : W32) :
    cqHeadOk cqTail cqHead log2 v.toNat = true ↔
      (BitVec.ofNat 32 cqTail - v).toNat ≤ 2 ^ log2 ∧ (v - BitVec.ofNat 32 cqHead).toNat < 2 ^ 31 := by
  simp only [cqHeadOk, sub32_eq_toNat_sub, BitVec.ofNat_toNat, BitVec.setWidth_eq, Bool.and_eq_true, decide_eq_true_eq]

/-! The write, case by case. -/

/-- The write's four cases: an accepted value ends CQ_FULL where it leaves room for one more record (R341). -/
theorem State.cqHeadWrite_eq (s : State) (q v : Nat) :
    s.cqHeadWrite q v =
      if s.rf (F.ctxState (q / 8)) = 0 then s
      else if cqHeadOk (s.rf (F.cqTail q)) (s.rf (F.cqHead q)) (s.rf (F.cqLog2 q)) v then
        if (s.wf (F.cqHead q) v).cqRoom q then (s.wf (F.cqHead q) v).wb (F.qCqFull q) false else s.wf (F.cqHead q) v
      else s.wb (F.qDbReject q) true := rfl

theorem State.cqHeadWrite_of_free {s : State} {q : Nat} (v : Nat) (h : s.rf (F.ctxState (q / 8)) = 0) :
    s.cqHeadWrite q v = s := by
  rw [State.cqHeadWrite_eq, if_pos h]

/-- Whatever the value: only CQ_HEAD and Q_STAT, which holds both CQ_FULL and DB_REJECT, can change. -/
theorem State.cqHeadWrite_regsBut (s : State) (q v : Nat) :
    s.regsBut (s.cqHeadWrite q v) [(F.cqHead q).off, (F.qDbReject q).off] := by
  have hHead : s.regsBut (s.wf (F.cqHead q) v) [(F.cqHead q).off, (F.qDbReject q).off] :=
    s.regsBut_wf _ _ List.mem_cons_self
  rw [State.cqHeadWrite_eq]
  split_ifs
  · exact s.regsBut_refl _
  · exact State.regsBut_trans hHead (State.regsBut_wb _ _ _ (by simp [F.qCqFull, F.qDbReject]))
  · exact hHead
  · exact s.regsBut_wb _ _ (by simp)

theorem State.cqHeadWrite_only_regs (s : State) (q v : Nat) :
    s.cqHeadWrite q v = { s with regs := (s.cqHeadWrite q v).regs } := by
  rw [State.cqHeadWrite_eq]
  split_ifs <;> rfl

theorem F.qCqFull_apart_cqHead (q : Nat) : (F.qCqFull q).apart (F.cqHead q) := .inl (by simp [F.cqHead, F.qCqFull])

theorem F.cqHead_apart_qDbReject (q : Nat) : (F.cqHead q).apart (F.qDbReject q) := .inl (by simp [F.cqHead, F.qDbReject])

theorem F.qCqFull_apart_qDbReject (q : Nat) : (F.qCqFull q).apart (F.qDbReject q) :=
  .inr (.inl (by simp [F.qCqFull, F.qDbReject]))

theorem Fld.apart_symm {f g : Fld} (h : f.apart g) : g.apart f := h.imp Ne.symm Or.symm

/-- An accepted value stands in CQ_HEAD, and DB_REJECT is as before. -/
theorem State.cqHeadWrite_accepts {s : State} {q : Nat} (v : W32) (h : s.rf (F.ctxState (q / 8)) ≠ 0)
    (ok : cqHeadOk (s.rf (F.cqTail q)) (s.rf (F.cqHead q)) (s.rf (F.cqLog2 q)) v.toNat = true) :
    (s.cqHeadWrite q v.toNat).rf (F.cqHead q) = v.toNat ∧ (s.cqHeadWrite q v.toNat).rb (F.qDbReject q) = s.rb (F.qDbReject q) := by
  have hHead : (s.wf (F.cqHead q) v.toNat).rf (F.cqHead q) = v.toNat :=
    (s.rf_wf_same (F.cqHead q) v.toNat (by simp [F.cqHead])).trans (Nat.mod_eq_of_lt v.isLt)
  have hRej : (s.wf (F.cqHead q) v.toNat).rf (F.qDbReject q) = s.rf (F.qDbReject q) :=
    s.rf_wf_apart _ _ _ (F.cqHead_apart_qDbReject q) (by simp [F.qDbReject])
  rw [State.cqHeadWrite_eq, if_neg h, if_pos ok, State.rb, State.rb]
  split_ifs
  · rw [State.rf_wb_apart _ _ _ _ (F.qCqFull_apart_cqHead q) (by simp [F.cqHead]),
      State.rf_wb_apart _ _ _ _ (F.qCqFull_apart_qDbReject q) (by simp [F.qDbReject]), hHead, hRej]
    exact ⟨rfl, rfl⟩
  · rw [hHead, hRej]
    exact ⟨rfl, rfl⟩

/-- A refused value leaves CQ_HEAD and sets DB_REJECT. -/
theorem State.cqHeadWrite_rejects {s : State} {q : Nat} (v : Nat) (h : s.rf (F.ctxState (q / 8)) ≠ 0)
    (bad : ¬ cqHeadOk (s.rf (F.cqTail q)) (s.rf (F.cqHead q)) (s.rf (F.cqLog2 q)) v = true) :
    (s.cqHeadWrite q v).rf (F.cqHead q) = s.rf (F.cqHead q) ∧ (s.cqHeadWrite q v).rb (F.qDbReject q) = true := by
  rw [State.cqHeadWrite_eq, if_neg h, if_neg bad]
  exact ⟨s.rf_wb_apart _ _ _ (Fld.apart_symm (F.cqHead_apart_qDbReject q)) (by simp [F.cqHead]), s.rb_wb_same _ _ rfl (by simp [F.qDbReject])⟩

/-! The instruction. -/

theorem exec_cqHeadWrite (q : QNum) (v : W32) (s : State) :
    exec (.cqHeadWrite q v) s = .next (if s.hostOk then s.cqHeadWrite q.val v.toNat else s) := rfl

/-- Settles O24: the two branches of R344's range check, and a FREE context that takes nothing. -/
theorem cqHeadTakesAValueInRange : Obligations.CqHeadTakesAValueInRange := by
  unfold Obligations.CqHeadTakesAValueInRange
  refine ⟨fun s q v hhost hctx => ?_, fun s q v hfree => ?_⟩
  · refine ⟨s.cqHeadWrite q.val v.toNat, ?_, s.cqHeadWrite_regsBut _ _, s.cqHeadWrite_only_regs _ _, fun ok => ?_, fun bad => ?_⟩
    · rw [exec_cqHeadWrite, if_pos hhost]
    · exact State.cqHeadWrite_accepts v hctx ((cqHeadOk_toNat_iff _ _ _ v).2 ok)
    · exact State.cqHeadWrite_rejects v.toNat hctx (mt (cqHeadOk_toNat_iff _ _ _ v).1 bad)
  · rw [exec_cqHeadWrite, State.cqHeadWrite_of_free _ hfree, ite_self]

end Sys2Proof.Machine
end

section
/-! PROOFS. The thermal limit (17_power_beats_and_holdup.md, R571): what the update of a cluster's temperature, thermal bit
and shown level changes, and the event that entering the limit raises. The tests `test_thermalLimitEnter` and
`test_thermalLimitExit` run the two instructions. -/

namespace Sys2Proof.Machine

/-! Events: `raise` changes EV_RAW of its page, and no other register. -/

theorem State.reg_raise (s : State) (b i o : Nat) :
    (s.raise b i).reg o = (s.wf (F.evRaw b) (s.rf (F.evRaw b) ||| 2 ^ i)).reg o := by
  simp only [State.raise]
  split <;> rfl

theorem State.rf_raise_of_ne (s : State) (b i : Nat) (f : Fld) (h : (F.evRaw b).off ≠ f.off) : (s.raise b i).rf f = s.rf f := by
  rw [State.rf, State.reg_raise, s.reg_wf_ne _ _ _ h, State.rf]

theorem State.rb_raise_of_ne (s : State) (b i : Nat) (f : Fld) (h : (F.evRaw b).off ≠ f.off) : (s.raise b i).rb f = s.rb f := by
  rw [State.rb, s.rf_raise_of_ne b i f h, State.rb]

theorem State.bit_rf_evRaw_raise (s : State) (b i : Nat) (hi : i < 32) : bit ((s.raise b i).rf (F.evRaw b)) i = true := by
  have hRaw : (s.raise b i).rf (F.evRaw b) = (s.rf (F.evRaw b) ||| 2 ^ i) % 2 ^ 32 := by
    rw [State.rf, State.reg_raise]
    exact s.rf_wf_same (F.evRaw b) _ (by simp [F.evRaw])
  rw [hRaw, bit, Nat.testBit_mod_two_pow, Nat.testBit_or, Nat.testBit_two_pow_self]
  simp [hi]

/-! The effective level (R570): what it reads, and its value under the limit. -/

theorem State.validAt_congr {s t : State} {c : Nat} (h : ∀ l, t.rb (F.entValid c l) = s.rb (F.entValid c l)) (l : Nat) :
    t.validAt c l = s.validAt c l := by
  induction l with
  | zero => rw [State.validAt, State.validAt, h]
  | succ l ih => rw [State.validAt, State.validAt, h, ih]

/-- The effective level reads the power state, the cluster's thermal bit and its VALID bits alone. -/
theorem State.effLevel_congr {s t : State} {c : Nat} (hp : t.pwr = s.pwr) (hth : t.rb (F.thermal c) = s.rb (F.thermal c))
    (hv : ∀ l, t.rb (F.entValid c l) = s.rb (F.entValid c l)) : t.effLevel c = s.effLevel c := by
  simp only [State.effLevel, State.lvl, hp, hth, State.validAt_congr hv]

/-- Under the limit the level is 0, whether or not entry 0 is VALID. -/
theorem State.effLevel_of_thermal {s : State} {c : Nat} (h : s.rb (F.thermal c) = true) : s.effLevel c = 0 := by
  simp only [State.effLevel, h, if_true, State.validAt]
  split <;> rfl

theorem State.effLevel_raise_pgPwr (s : State) (c i : Nat) : (s.raise pgPwr i).effLevel c = s.effLevel c :=
  State.effLevel_congr (s.raise_pwr pgPwr i)
    (s.rb_raise_of_ne _ _ _ (by simp [F.evRaw, F.thermal, pgPwr]))
    fun l => s.rb_raise_of_ne _ _ _ (by simp only [F.evRaw, F.entValid, pgPwr]; omega)

/-! The fields of PWR_LEVEL that a cluster owns. -/

theorem F.level_apart_thermal {c : Nat} (hc : c < 4) (d : Nat) : (F.level c).apart (F.thermal d) :=
  .inr (.inl (by simp only [F.thermal, F.level]; omega))

theorem F.thermal_apart_thermal {c d : Nat} (h : c ≠ d) : (F.thermal c).apart (F.thermal d) :=
  .inr (by simp only [F.thermal]; omega)

theorem F.level_apart_level {c d : Nat} (h : c ≠ d) : (F.level c).apart (F.level d) :=
  .inr (by simp only [F.level]; omega)

theorem State.rf_level_showLevel (s : State) {c : Nat} (hc : c < 4) : (s.showLevel c).rf (F.level c) = s.effLevel c % 16 :=
  s.rf_wf_same (F.level c) _ (by simp only [F.level]; omega)

theorem State.rf_showLevel_apart (s : State) (c : Nat) (f : Fld) (h : (F.level c).apart f) (hw : f.lo + f.w ≤ 64) :
    (s.showLevel c).rf f = s.rf f := s.rf_wf_apart f _ _ h hw

theorem State.rb_showLevel_apart (s : State) (c : Nat) (f : Fld) (h : (F.level c).apart f) (hw : f.lo + f.w ≤ 64) :
    (s.showLevel c).rb f = s.rb f := by
  rw [State.rb, s.rf_showLevel_apart c f h hw, State.rb]

/-- Showing the effective level does not change it. -/
theorem State.effLevel_showLevel (s : State) {c : Nat} (hc : c < 4) : (s.showLevel c).effLevel c = s.effLevel c := by
  refine State.effLevel_congr (s.wf_pwr _ _) ?_ fun l => ?_
  · exact s.rb_showLevel_apart c _ (F.level_apart_thermal hc c) (by simp only [F.thermal]; omega)
  · exact s.rb_showLevel_apart c _ (.inl (by simp only [F.entValid, F.level]; omega)) (by simp [F.entValid])

/-! The update that both instructions make. -/

/-- Cluster `c` measures temperature `tj`, enters or leaves the limit, and shows its level. -/
def State.thermalUpdate (s : State) (c tj : Nat) (limit : Bool) : State :=
  ((s.wf (F.monTj c) tj).wb (F.thermal c) limit).showLevel c

theorem exec_thermalLimitEnter {s : State} {cl : ClId} {tj : BitVec 9} (hp : s.pins.porN = true) (h : 210 < tj.toNat) :
    exec (.thermalLimitEnter cl tj) s = .next ((s.thermalUpdate cl.val tj.toNat true).raise pgPwr 4) :=
  if_pos ⟨hp, h⟩

theorem exec_thermalLimitExit {s : State} {cl : ClId} {tj : BitVec 9} (hp : s.pins.porN = true) (h : tj.toNat ≤ 200) :
    exec (.thermalLimitExit cl tj) s = .next (s.thermalUpdate cl.val tj.toNat false) :=
  if_pos ⟨hp, h⟩

section
variable (s : State) {c : Nat} (tj : Nat) (limit : Bool)

/-- A field apart from the three that the update writes keeps its value. -/
theorem State.rf_thermalUpdate_apart (c : Nat) {f : Fld} (hm : (F.monTj c).apart f) (ht : (F.thermal c).apart f)
    (hl : (F.level c).apart f) (hw : f.lo + f.w ≤ 64) : (s.thermalUpdate c tj limit).rf f = s.rf f := by
  rw [State.thermalUpdate, State.rf_showLevel_apart _ _ _ hl hw, State.rf_wb_apart _ _ _ _ ht hw, State.rf_wf_apart _ _ _ _ hm hw]

theorem State.rb_thermal_thermalUpdate (hc : c < 4) : (s.thermalUpdate c tj limit).rb (F.thermal c) = limit := by
  have hw : (F.thermal c).lo + (F.thermal c).w ≤ 64 := by simp only [F.thermal]; omega
  rw [State.thermalUpdate, State.rb_showLevel_apart _ _ _ (F.level_apart_thermal hc c) hw]
  exact State.rb_wb_same _ _ limit rfl hw

theorem State.rf_level_thermalUpdate (hc : c < 4) :
    (s.thermalUpdate c tj limit).rf (F.level c) = (s.thermalUpdate c tj limit).effLevel c % 16 := by
  rw [State.thermalUpdate, State.rf_level_showLevel _ hc, State.effLevel_showLevel _ hc]

theorem State.rf_monTj_thermalUpdate (c : Nat) : (s.thermalUpdate c tj limit).rf (F.monTj c) = tj % 2 ^ 9 := by
  have hw : (F.monTj c).lo + (F.monTj c).w ≤ 64 := by simp [F.monTj]
  rw [State.thermalUpdate, State.rf_showLevel_apart _ _ _ (.inl (by simp only [F.monTj, F.level]; omega)) hw,
    State.rf_wb_apart _ _ _ _ (.inl (by simp only [F.monTj, F.thermal]; omega)) hw]
  exact s.rf_wf_same _ _ hw

/-- Another cluster keeps its thermal bit and its shown level. -/
theorem State.thermalUpdate_other_cluster (hc : c < 4) {d : Nat} (hd : d < 4) (h : d ≠ c) :
    (s.thermalUpdate c tj limit).rb (F.thermal d) = s.rb (F.thermal d) ∧
      (s.thermalUpdate c tj limit).rf (F.level d) = s.rf (F.level d) := by
  constructor
  · rw [State.rb, s.rf_thermalUpdate_apart tj limit c (.inl (by simp only [F.thermal, F.monTj]; omega)) (F.thermal_apart_thermal h.symm)
      (F.level_apart_thermal hc d) (by simp only [F.thermal]; omega), State.rb]
  · exact s.rf_thermalUpdate_apart tj limit c (.inl (by simp only [F.level, F.monTj]; omega))
      (Fld.apart_symm (F.level_apart_thermal hd c)) (F.level_apart_level h.symm) (by simp only [F.level]; omega)

/-- Only PWR_LEVEL and the cluster's PWR_MON can change. -/
theorem State.thermalUpdate_regsBut (c : Nat) : s.regsBut (s.thermalUpdate c tj limit) [0x2050, (F.monTj c).off] :=
  State.regsBut_trans (s.regsBut_wf _ _ (by simp))
    (State.regsBut_trans (State.regsBut_wb _ _ _ (by simp [F.thermal])) (State.regsBut_wf _ _ _ (by simp [F.level])))

end

/-- Settles O12: both instructions make the thermal update, and entering the limit raises event 4 on top of it. -/
theorem thermalLimitForcesTheLowestLevel : Obligations.ThermalLimitForcesTheLowestLevel := by
  unfold Obligations.ThermalLimitForcesTheLowestLevel
  refine ⟨fun s cl tj hp hTj => ⟨_, exec_thermalLimitEnter hp hTj, ?_⟩, fun s cl tj hp hTj => ⟨_, exec_thermalLimitExit hp hTj, ?_⟩⟩
  · have hLimit := s.rb_thermal_thermalUpdate tj.toNat true cl.isLt
    have hEff := State.effLevel_of_thermal hLimit
    have hLevel : ∀ d, (F.evRaw pgPwr).off ≠ (F.level d).off := fun d => by simp [F.evRaw, F.level, pgPwr]
    have hThermal : ∀ d, (F.evRaw pgPwr).off ≠ (F.thermal d).off := fun d => by simp [F.evRaw, F.thermal, pgPwr]
    refine ⟨?_, ?_, ?_, State.bit_rf_evRaw_raise _ _ _ (by decide), ?_, fun d hd hne => ?_, ?_, ?_⟩
    · rw [State.rb_raise_of_ne _ _ _ _ (hThermal _), hLimit]
    · rw [State.rf_raise_of_ne _ _ _ _ (hLevel _), s.rf_level_thermalUpdate _ _ cl.isLt, hEff]
    · rw [State.effLevel_raise_pgPwr, hEff]
    · rw [State.rf_raise_of_ne _ _ _ _ (by simp only [F.evRaw, F.monTj, pgPwr]; omega), State.rf_monTj_thermalUpdate,
        Nat.mod_eq_of_lt tj.isLt]
    · rw [State.rb_raise_of_ne _ _ _ _ (hThermal _), State.rf_raise_of_ne _ _ _ _ (hLevel _)]
      exact s.thermalUpdate_other_cluster _ _ cl.isLt hd hne
    · rw [State.raise_mem]
      rfl
    · rw [State.raise_cmds]
      rfl
  · refine ⟨s.rb_thermal_thermalUpdate _ _ cl.isLt, s.rf_level_thermalUpdate _ _ cl.isLt, ?_, fun d hd hne => ?_,
      s.thermalUpdate_regsBut _ _ _, rfl⟩
    · rw [State.rf_monTj_thermalUpdate, Nat.mod_eq_of_lt tj.isLt]
    · exact s.thermalUpdate_other_cluster _ _ cl.isLt hd hne

end Sys2Proof.Machine
end
